-- ==== Sys2Proof/Word.lean ====
section
/-!
DEFINITION. The word types of the KY96 model. Registers are 32-bit words (R470), pod scalars 64 bits,
pod vectors 128 bits and accumulators 80 bits (R41).
-/
namespace Sys2Proof

/-- One byte of memory. -/
abbrev Byte := BitVec 8
/-- A register word of the register space (R470), or an instruction word of a pod (R80). -/
abbrev W32 := BitVec 32
/-- A pod scalar register (R41). -/
abbrev W64 := BitVec 64
/-- A pod vector register (R41). -/
abbrev W128 := BitVec 128
/-- A pod accumulator: 16 guard bits above a 64-bit body (R41). -/
abbrev W80 := BitVec 80

/-- A sparse table: entries by key, held in strictly rising key order, with no entry equal to what an
unlisted key reads as. Memories, register files and arrays of units are tables. -/
abbrev Tab (α : Type) := List (Nat × α)

end Sys2Proof
end

