-- ==== Sys2Proof/Config.lean ====
section
/-!
DEFINITION. What one part fixes for its whole life, and the values the spec leaves open. Every constant here
has no body: nothing can be proved of its value, and a theorem holds for every value of it.
-/
namespace Sys2Proof

/-- Whether the part is a KY96-SA8 (8 GiB of DRAM) or a KY96-SA4 (4 GiB) (R1, R39). (Model: DESIGN CHOICE, log 12) -/
opaque Config.sa8 : Bool
/-- The 64-bit identifier fused at test (SYS_UID_LO, SYS_UID_HI; R474). (Model: DESIGN CHOICE, log 12) -/
opaque Config.uid : W64
/-- Whether A leads B when a quadrature channel counts forward with DIR 0: R138 states no direction. (Model: DESIGN CHOICE, log 37) -/
opaque Config.aLeads : Bool
/-- The size in bytes of the boot flash on the board, which the spec does not state (R418, R451). (Model: DESIGN CHOICE, log 12) -/
opaque Config.flashSize : Nat
/-- The free values: the value number `n` that a step draws where the spec states no value.
The step reads and advances the counter `draws` of the state. (Model: DESIGN CHOICE, log 13) -/
opaque Config.freeValue : Nat → W64
/-- A free rounding: the spec gives a formula over the reals and no number format for its result.
`tag` says which formula, the list holds its operands. (Model: DESIGN CHOICE, log 14) -/
opaque Config.freeResult : (tag : Nat) → List Int → Int
/-- The identifier of the certified firmware of the safety core (SAF_CORE.FWID, R305). (Model: DESIGN CHOICE, log 12) -/
opaque Config.safetyFwid : W32

end Sys2Proof
end

