-- ==== Sys2Proof/Syntax.lean ====
section
/-!
DEFINITION. The commands the block takes. Every row of spec/opcode_table.json is one constructor. A command's
operands are what the spec leaves to the outside: who writes which register with what value, the fields of a pod
instruction word, the bytes of a received frame, and what a sensor, a check or a clock found.
-/
namespace Sys2Proof

/-- The master number of a register access (R469): 0 to 44. -/
abbrev Master := Fin 45

/-- What reading the golden source of a line found (R421): the source passed its check, or it failed it and
`flashOk` says whether two consecutive reads of its flash line agreed. -/
inductive SrcCheck where
  | good
  | bad (flashOk : Bool)
  deriving DecidableEq, Repr

/-- What the checks of an access found (R413 to R421): parity and CRC passed, the repeat of a transfer passed, or
the check of the line failed (by parity or by CRC), with what its golden source gave. (Model: DESIGN CHOICE, log 88) -/
inductive LineCheck where
  | pass
  | retried
  | fail (parity : Bool) (src : SrcCheck)
  deriving DecidableEq, Repr


/-- What a single step of a pod meets (R73): the check of its fetch, and of the accesses of its instruction in order. -/
structure StepCheck where
  fetch : LineCheck
  data  : LineCheck
  data2 : LineCheck
  deriving DecidableEq, Repr

/-- A step in which every check passes. -/
def StepCheck.pass : StepCheck := { fetch := .pass, data := .pass, data2 := .pass }

/-- Bytes that a master sends, and what the check of the transfer found (R414). -/
structure Transfer where
  bytes : List Byte
  chk   : LineCheck
  deriving DecidableEq, Repr

/-- The end of a reload (R426): its region, and the lines whose source failed its check, each with what was found. -/
structure ReloadEnd where
  r    : Fin 64
  srcs : List (BitVec 34 × SrcCheck)
  deriving DecidableEq, Repr

/-- The falling edge of SRST (R282): how many µs it was active, and the pairs that take a qualified demand or a fault in the
same cycle of the Husk (R284). (Model: DESIGN CHOICE, log 109) -/
structure SrstEdge where
  act  : Nat
  same : List Nat
  deriving DecidableEq, Repr

/-- A change of the level at a DIO pin (R397, R399): the level, and whether it has been held for DEB, so that it is now the debounced
level too. (Model: DEDUCED, log 84) -/
structure PinEdge where
  level : Bool
  held  : Bool
  deriving DecidableEq, Repr

/-- A crossing by the field supply of 19.2 V or of 16 V, in either direction (R408). (Model: DEDUCED, log 84) -/
inductive FieldCross where
  | above192
  | below192
  | above16
  | below16
  deriving DecidableEq, Repr

/-- What the host's configuration writes hold in the endpoint (R475, R483): the two base addresses, and the enable and function mask of
the MSI-X capability. (Model: DEDUCED, log 79) -/
structure PciSpace where
  bar0   : BitVec 64
  bar2   : BitVec 64
  msixEn : Bool
  fnMask : Bool
  deriving DecidableEq, Repr, Inhabited

/-- After the endpoint's reset. -/
def PciSpace.reset : PciSpace := { bar0 := 0, bar2 := 0, msixEn := false, fnMask := false }

/-- An attempt of a vector to send its message, and the configuration space as the host has then written it (R483).
(Model: DEDUCED, log 79) -/
structure MsixSend where
  vec : Fin 64
  pci : PciSpace
  deriving DecidableEq, Repr

/-- A rail and its filtered value in mV (R441, R442). (Model: DEDUCED, log 85) -/
structure RailFall where
  r  : Fin 8
  mv : BitVec 16
  deriving DecidableEq, Repr

/-- The commands of the block, one constructor per row of spec/opcode_table.json, in its order. -/
inductive Instr where
  /-- TICK (R9): At t0 the tick number increments, every node samples and the per-tick latches and switches are taken. -/
  | tick
  /-- UPLINK_WINDOW_CLOSE (R318): At the uplink window close each port settles its violation count, fencing and admission, and releases accepted records. -/
  | uplinkWindowClose
  /-- FEEDBACK_PHASE (R143): The feedback unit updates all observers in ascending order and publishes their records at the end of the phase. -/
  | feedbackPhase
  /-- PROFILE_PHASE (R190): The profile engine applies commands and writes, evaluates every channel, then compare units and stepper channels, and publishes set-points. -/
  | profilePhase
  /-- LOOP_PHASE (R161): The loop engine evaluates every due slot, transform unit and mode set from values taken at the start of the phase and writes command records. -/
  | loopPhase
  /-- PUBLISH_DEADLINE (R124): At the publish deadline buffers of on-time tasks change halves and late tasks overrun. -/
  | publishDeadline
  /-- DOWNLINK_FRAME_SEND (R316): A port sends its downlink at D_start + DOFF and inserts HS sampled from HUSK_STOP. -/
  | downlinkFrameSend (n : Fin 32)
  /-- UPLINK_FRAME (R318): An uplink SOF at a port is guarded, checked for validity and corrects DLY. -/
  | uplinkFrame (n : Fin 32) (ts : Nat) (bytes : List Byte) (codeOk : Bool)
  /-- STAR_LINK_LOSS (R310): A receiver losing link invalidates the frame in progress and sends the port to DOWN. -/
  | starLinkLoss (n : Fin 32)
  /-- STAR_LINK_REGAIN (R310): After 1 us of error-free idle the port regains link and enters ADMIT or FENCED. -/
  | starLinkRegain (n : Fin 32)
  /-- STR_ADMIT (R319): Writing a port number re-admits a FENCED port. -/
  | strAdmit (m : Master) (v : W32)
  /-- STR_PORT_WRITE (R317): A write of EN 1 runs the port checks before the port enters ADMIT. -/
  | strPortWrite (m : Master) (n : Fin 32) (word : Fin 16) (v : W32)
  /-- STR_GUARD_WRITE (R332): A write of CSTEP or GUARD stores valid values and ignores others. -/
  | strGuardWrite (m : Master) (v : W32)
  /-- SAFETY_CYCLE (R285): At the ring-cycle mark the safety core snapshots its inputs, evaluates, updates LSDRV and CSTOP_N and prepares messages. -/
  | safetyCycle (onTime : Bool)
  /-- GROUP_STOP_T1_EXPIRY (R290): T1 ms after a category 1 stop the group's outputs are cut. -/
  | groupStopT1Expiry (g : Fin 16)
  /-- SAFETY_CORE_FAULT (R291): An internal fault of the safety core stops all its frames and messages and latches SAFE. -/
  | safetyCoreFault
  /-- STATUS_TELEGRAM (R266): The Husk's status telegram arrives every 10 us with pair, output and reset states. -/
  | statusTelegram (i0 i1 i2 i3 : BitVec 16)
  /-- LSDRV_FRAME (R266): The safety core's low-side enable frame reaches the Husk every 2 us. -/
  | lsdrvFrame
  /-- CSTOP_FRAME (R266): The safety core's stop-demand frame reaches the Husk every 2 us. -/
  | cstopFrame
  /-- CORE_LINK_TIMEOUT (R266): 4 us without a well-formed LSDRV or CSTOP_N frame is a core-link fault. -/
  | coreLinkTimeout (cstop : Bool)
  /-- HUSK_LINK_TIMEOUT (R266): A telegram missing for 50 us is a Husk-link fault of the safety core. -/
  | huskLinkTimeout
  /-- SAFETY_INPUT_QUALIFIED (R270): A safety input level held for FILT x 10 us is qualified and the pair state is evaluated. -/
  | safetyInputQualified (n : Fin 8) (b level : Bool)
  /-- DISCREPANCY_TIMEOUT (R271): Channels in discrepancy for longer than DISC put the pair in FAULT. -/
  | discrepancyTimeout (n : Fin 8)
  /-- TWO_HAND_TIMEOUT (R272): A second actuation missing for 500 ms blocks enabling until both controls are released. -/
  | twoHandTimeout (e : Fin 8)
  /-- TEST_PULSE (R274): An enabled TPk produces its off-pulse and the inputs on it are checked. -/
  | testPulse (k : Fin 4) (low around : BitVec 16)
  /-- TP_OVERCURRENT (R275): TPk in overcurrent for 100 us faults every pair using it. -/
  | tpOvercurrent (k : Fin 4)
  /-- CAT1_DELAY_EXPIRY (R277): At the end of a category 1 delay both switches of the output open. -/
  | cat1DelayExpiry (m : Fin 4)
  /-- OUTPUT_SWITCH_TEST (R279): The Husk opens one switch of an ON output for its periodic test. -/
  | outputSwitchTest (m : Fin 4) (low : Bool)
  /-- OUTPUT_TEST_TIMEOUT (R280): A test without response after 300 us is an output fault. -/
  | outputTestTimeout (m : Fin 4) (low : Bool)
  /-- SAFE_OUTPUT_OVERCURRENT (R280): A switch current above its limit faults and locks out the output. -/
  | safeOutputOvercurrent (m : Fin 4)
  /-- SAFE_OUTPUT_BACKFEED (R280): SOnH above 5 V for 1 ms while OFF is an output fault. -/
  | safeOutputBackfeed (m : Fin 4)
  /-- HUSK_LANE_DISAGREE (R267): A lane disagreement longer than 1 us is a Husk internal fault and SAFE. -/
  | huskLaneDisagree
  /-- SAFETY_SUPPLY_FAULT (R268): The safety supply out of range for 100 us opens every output and asserts HUSK_STOP. -/
  | safetySupplyFault
  /-- SAFETY_SUPPLY_RETURN (R268): Return of the safety supply is handled as a power-up of the Husk. -/
  | safetySupplyReturn
  /-- SRST_PRESS (R282): SRST qualified active starts the reset timing. -/
  | srstPress
  /-- SRST_RELEASE (R282): The falling edge of SRST accepts or ignores a reset by its duration. -/
  | srstRelease (edge : SrstEdge)
  /-- RESET_HELD (R282): SRST active for more than 3 s is flagged RESET_HELD. -/
  | resetHeld
  /-- PARAM_SET_COMMIT (R301): SYS_SPS_CMD.COMMIT starts the read and check of a safety parameter set. -/
  | paramSetCommit (m : Master)
  /-- PARAM_SET_AWAIT_CONFIRM (R301): A set that passed the core and Husk checks enters AWAIT_CONFIRM. -/
  | paramSetAwaitConfirm
  /-- PARAM_SET_DISCARD (R301): SYS_SPS_CMD.DISCARD drops a pending set. -/
  | paramSetDiscard (m : Master)
  /-- PARAM_CONFIRM_TIMEOUT (R301): A set not confirmed within 60 s is dropped with RESULT 8. -/
  | paramConfirmTimeout
  /-- SCHEDULER_CYCLE (R115): Every CK_FAB cycle the scheduler applies flags, CANCELs and DONEs, evaluates tasks, advances flows and dispatches. -/
  | schedulerCycle
  /-- SCH_TASK_WRITE (R112): A task descriptor write takes effect in the next cycle or is ignored with CFG_IGN. -/
  | schTaskWrite (m : Master) (t : BitVec 12) (word : Fin 8) (v : W32)
  /-- SCH_OFLOW_WRITE (R501): An ordered-flow write enables, disables or reconfigures the flow subject to its ring checks. -/
  | schOflowWrite (m : Master) (f : Fin 16) (word : Fin 4) (v : W32)
  /-- SCH_HPOST (R126): Writing a task number posts SCH_HMASK to it like a pod POST, unless it is tick-bound. -/
  | schHpost (m : Master) (v : W32)
  /-- SCH_HCANCEL (R126): Writing a task number cancels it with SCH_HMASK, unless it is tick-bound. -/
  | schHcancel (m : Master) (v : W32)
  /-- PLAN_LOAD (R129): SCH_PLAN_CTRL.LOAD in CONFIG checks a tick plan image and loads it or reports the failure. -/
  | planLoad (m : Master) (v : W32)
  /-- SHED_LEVEL_APPLY (R436): A decided pod clock step and shed level take effect at the next tick divisible by 16. -/
  | shedLevelApply
  /-- SHED_COMMIT_APPLY (R440): A committed shed level takes effect at its named tick. -/
  | shedCommitApply
  /-- DWR_TRANSFER_APPLY (R106): A DWR transfer is applied whole by its owning engine at a phase boundary. -/
  | dwrTransferApply (p : Fin 32)
  /-- GET_WAKE (R76): A pod sleeping in GET wakes and completes GET when a sprout is dispatched. -/
  | getWake (p : Fin 32)
  /-- FABRIC_LOAD_DATA (R58): Data of an outstanding fabric load arrives and unblocks its consumer. -/
  | fabricLoadData (p : Fin 32) (idx : Fin 4) (chk : LineCheck)
  /-- FABRIC_STORE_ACK (R60): A posted fabric store is acknowledged and leaves the store buffer. -/
  | fabricStoreAck (p : Fin 32) (idx : Fin 8) (chk : LineCheck)
  /-- OUTSIDE_ACCESS_STALL (R56): An outside request that waited 15 pod cycles takes slot A and stalls the pod one cycle. -/
  | outsideAccessStall (p : Fin 32)
  /-- ADD (R83): Scalar signed add. -/
  | add (p : Fin 32) (sat : Bool) (rd ra rb : BitVec 5) (mask : BitVec 4)
  /-- ADDU (R83): Scalar add with unsigned clamp. -/
  | addu (p : Fin 32) (sat : Bool) (rd ra rb : BitVec 5) (mask : BitVec 4)
  /-- SUB (R83): Scalar signed subtract. -/
  | sub (p : Fin 32) (sat : Bool) (rd ra rb : BitVec 5) (mask : BitVec 4)
  /-- SUBU (R83): Scalar subtract with unsigned clamp. -/
  | subu (p : Fin 32) (sat : Bool) (rd ra rb : BitVec 5) (mask : BitVec 4)
  /-- MUL (R83): Low 64 bits of a scalar product. -/
  | mul (p : Fin 32) (sat : Bool) (rd ra rb : BitVec 5) (mask : BitVec 4)
  /-- MULH (R83): High 64 bits of the signed product. -/
  | mulh (p : Fin 32) (sat : Bool) (rd ra rb : BitVec 5) (mask : BitVec 4)
  /-- MULHU (R83): High 64 bits of the unsigned product. -/
  | mulhu (p : Fin 32) (sat : Bool) (rd ra rb : BitVec 5) (mask : BitVec 4)
  /-- AND (R83): Scalar bitwise AND. -/
  | and (p : Fin 32) (sat : Bool) (rd ra rb : BitVec 5) (mask : BitVec 4)
  /-- OR (R83): Scalar bitwise OR. -/
  | or (p : Fin 32) (sat : Bool) (rd ra rb : BitVec 5) (mask : BitVec 4)
  /-- XOR (R83): Scalar bitwise XOR. -/
  | xor (p : Fin 32) (sat : Bool) (rd ra rb : BitVec 5) (mask : BitVec 4)
  /-- ANDN (R83): Scalar AND with complement. -/
  | andn (p : Fin 32) (sat : Bool) (rd ra rb : BitVec 5) (mask : BitVec 4)
  /-- SLL (R83): Scalar shift left. -/
  | sll (p : Fin 32) (sat : Bool) (rd ra rb : BitVec 5) (mask : BitVec 4)
  /-- SRL (R83): Scalar logical shift right. -/
  | srl (p : Fin 32) (sat : Bool) (rd ra rb : BitVec 5) (mask : BitVec 4)
  /-- SRA (R83): Scalar arithmetic shift right. -/
  | sra (p : Fin 32) (sat : Bool) (rd ra rb : BitVec 5) (mask : BitVec 4)
  /-- SLT (R83): Signed set-less-than. -/
  | slt (p : Fin 32) (sat : Bool) (rd ra rb : BitVec 5) (mask : BitVec 4)
  /-- SLTU (R83): Unsigned set-less-than. -/
  | sltu (p : Fin 32) (sat : Bool) (rd ra rb : BitVec 5) (mask : BitVec 4)
  /-- MIN (R83): Signed scalar minimum. -/
  | min (p : Fin 32) (sat : Bool) (rd ra rb : BitVec 5) (mask : BitVec 4)
  /-- MAX (R83): Signed scalar maximum. -/
  | max (p : Fin 32) (sat : Bool) (rd ra rb : BitVec 5) (mask : BitVec 4)
  /-- MINU (R83): Unsigned scalar minimum. -/
  | minu (p : Fin 32) (sat : Bool) (rd ra rb : BitVec 5) (mask : BitVec 4)
  /-- MAXU (R83): Unsigned scalar maximum. -/
  | maxu (p : Fin 32) (sat : Bool) (rd ra rb : BitVec 5) (mask : BitVec 4)
  /-- CLZ (R83): Leading zero count. -/
  | clz (p : Fin 32) (sat : Bool) (rd ra rb : BitVec 5) (mask : BitVec 4)
  /-- SEXTB (R83): Sign-extend a byte. -/
  | sextb (p : Fin 32) (sat : Bool) (rd ra rb : BitVec 5) (mask : BitVec 4)
  /-- SEXTH (R83): Sign-extend a halfword. -/
  | sexth (p : Fin 32) (sat : Bool) (rd ra rb : BitVec 5) (mask : BitVec 4)
  /-- SEXTW (R83): Sign-extend a word. -/
  | sextw (p : Fin 32) (sat : Bool) (rd ra rb : BitVec 5) (mask : BitVec 4)
  /-- ADDI (R84): Add a signed immediate. -/
  | addi (p : Fin 32) (sat : Bool) (rd ra : BitVec 5) (imm : BitVec 14)
  /-- ANDI (R84): AND with an immediate. -/
  | andi (p : Fin 32) (sat : Bool) (rd ra : BitVec 5) (imm : BitVec 14)
  /-- ORI (R84): OR with an immediate. -/
  | ori (p : Fin 32) (sat : Bool) (rd ra : BitVec 5) (imm : BitVec 14)
  /-- XORI (R84): XOR with an immediate. -/
  | xori (p : Fin 32) (sat : Bool) (rd ra : BitVec 5) (imm : BitVec 14)
  /-- SLLI (R84): Shift left by an immediate. -/
  | slli (p : Fin 32) (sat : Bool) (rd ra : BitVec 5) (imm : BitVec 14)
  /-- SRLI (R84): Logical shift right by an immediate. -/
  | srli (p : Fin 32) (sat : Bool) (rd ra : BitVec 5) (imm : BitVec 14)
  /-- SRAI (R84): Arithmetic shift right by an immediate. -/
  | srai (p : Fin 32) (sat : Bool) (rd ra : BitVec 5) (imm : BitVec 14)
  /-- SLTI (R84): Signed set-less-than an immediate. -/
  | slti (p : Fin 32) (sat : Bool) (rd ra : BitVec 5) (imm : BitVec 14)
  /-- MOVW (R85): Write a 16-bit immediate into a halfword of a scalar. -/
  | movw (p : Fin 32) (hw : BitVec 2) (keep : Bool) (rd : BitVec 5) (rsv : BitVec 4) (imm : BitVec 16)
  /-- VADD (R86): Vector lane add. -/
  | vadd (p : Fin 32) (sat : Bool) (rd ra rb : BitVec 5) (w : BitVec 2) (mask : BitVec 4)
  /-- VADDU (R86): Vector lane add with unsigned clamp. -/
  | vaddu (p : Fin 32) (sat : Bool) (rd ra rb : BitVec 5) (w : BitVec 2) (mask : BitVec 4)
  /-- VSUB (R86): Vector lane subtract. -/
  | vsub (p : Fin 32) (sat : Bool) (rd ra rb : BitVec 5) (w : BitVec 2) (mask : BitVec 4)
  /-- VSUBU (R86): Vector lane subtract with unsigned clamp. -/
  | vsubu (p : Fin 32) (sat : Bool) (rd ra rb : BitVec 5) (w : BitVec 2) (mask : BitVec 4)
  /-- VMUL (R86): Low bits of vector lane products. -/
  | vmul (p : Fin 32) (sat : Bool) (rd ra rb : BitVec 5) (w : BitVec 2) (mask : BitVec 4)
  /-- VMULQ (R87): Fixed-point fractional lane product. -/
  | vmulq (p : Fin 32) (sat : Bool) (rd ra rb : BitVec 5) (w : BitVec 2) (mask : BitVec 4)
  /-- VAND (R86): Vector bitwise AND. -/
  | vand (p : Fin 32) (sat : Bool) (rd ra rb : BitVec 5) (w : BitVec 2) (mask : BitVec 4)
  /-- VOR (R86): Vector bitwise OR. -/
  | vor (p : Fin 32) (sat : Bool) (rd ra rb : BitVec 5) (w : BitVec 2) (mask : BitVec 4)
  /-- VXOR (R86): Vector bitwise XOR. -/
  | vxor (p : Fin 32) (sat : Bool) (rd ra rb : BitVec 5) (w : BitVec 2) (mask : BitVec 4)
  /-- VSLL (R86): Vector lane shift left. -/
  | vsll (p : Fin 32) (sat : Bool) (rd ra rb : BitVec 5) (w : BitVec 2) (mask : BitVec 4)
  /-- VSRL (R86): Vector lane logical shift right. -/
  | vsrl (p : Fin 32) (sat : Bool) (rd ra rb : BitVec 5) (w : BitVec 2) (mask : BitVec 4)
  /-- VSRA (R86): Vector lane arithmetic shift right. -/
  | vsra (p : Fin 32) (sat : Bool) (rd ra rb : BitVec 5) (w : BitVec 2) (mask : BitVec 4)
  /-- VMIN (R86): Vector signed minimum. -/
  | vmin (p : Fin 32) (sat : Bool) (rd ra rb : BitVec 5) (w : BitVec 2) (mask : BitVec 4)
  /-- VMAX (R86): Vector signed maximum. -/
  | vmax (p : Fin 32) (sat : Bool) (rd ra rb : BitVec 5) (w : BitVec 2) (mask : BitVec 4)
  /-- VCMPEQ (R86): Vector equality compare. -/
  | vcmpeq (p : Fin 32) (sat : Bool) (rd ra rb : BitVec 5) (w : BitVec 2) (mask : BitVec 4)
  /-- VCMPLT (R86): Vector signed less-than compare. -/
  | vcmplt (p : Fin 32) (sat : Bool) (rd ra rb : BitVec 5) (w : BitVec 2) (mask : BitVec 4)
  /-- VSPLAT (R86): Copy a scalar into every lane. -/
  | vsplat (p : Fin 32) (sat : Bool) (rd ra rb : BitVec 5) (w : BitVec 2) (mask : BitVec 4)
  /-- VEXT (R86): Extract a lane into a scalar. -/
  | vext (p : Fin 32) (sat : Bool) (rd ra rb : BitVec 5) (w : BitVec 2) (mask : BitVec 4)
  /-- VINS (R86): Insert a scalar into a lane. -/
  | vins (p : Fin 32) (sat : Bool) (rd ra rb : BitVec 5) (w : BitVec 2) (mask : BitVec 4)
  /-- VSEL (R86): Bitwise select by the destination mask. -/
  | vsel (p : Fin 32) (sat : Bool) (rd ra rb : BitVec 5) (w : BitVec 2) (mask : BitVec 4)
  /-- FADD (R88): f32 lane add. -/
  | fadd (p : Fin 32) (sat : Bool) (rd ra rb : BitVec 5) (mask : BitVec 4)
  /-- FSUB (R88): f32 lane subtract. -/
  | fsub (p : Fin 32) (sat : Bool) (rd ra rb : BitVec 5) (mask : BitVec 4)
  /-- FMUL (R88): f32 lane multiply. -/
  | fmul (p : Fin 32) (sat : Bool) (rd ra rb : BitVec 5) (mask : BitVec 4)
  /-- FDIV (R88): f32 lane divide. -/
  | fdiv (p : Fin 32) (sat : Bool) (rd ra rb : BitVec 5) (mask : BitVec 4)
  /-- FSQRT (R88): f32 lane square root. -/
  | fsqrt (p : Fin 32) (sat : Bool) (rd ra rb : BitVec 5) (mask : BitVec 4)
  /-- FMA (R88): f32 fused multiply-add. -/
  | fma (p : Fin 32) (sat : Bool) (rd ra rb : BitVec 5) (mask : BitVec 4)
  /-- FMS (R88): f32 fused multiply-subtract. -/
  | fms (p : Fin 32) (sat : Bool) (rd ra rb : BitVec 5) (mask : BitVec 4)
  /-- FMIN (R89): f32 lane minimum. -/
  | fmin (p : Fin 32) (sat : Bool) (rd ra rb : BitVec 5) (mask : BitVec 4)
  /-- FMAX (R89): f32 lane maximum. -/
  | fmax (p : Fin 32) (sat : Bool) (rd ra rb : BitVec 5) (mask : BitVec 4)
  /-- FABS (R89): Clear the f32 sign bit. -/
  | fabs (p : Fin 32) (sat : Bool) (rd ra rb : BitVec 5) (mask : BitVec 4)
  /-- FNEG (R89): Invert the f32 sign bit. -/
  | fneg (p : Fin 32) (sat : Bool) (rd ra rb : BitVec 5) (mask : BitVec 4)
  /-- FCMPEQ (R89): f32 equality compare. -/
  | fcmpeq (p : Fin 32) (sat : Bool) (rd ra rb : BitVec 5) (mask : BitVec 4)
  /-- FCMPLT (R89): f32 less-than compare. -/
  | fcmplt (p : Fin 32) (sat : Bool) (rd ra rb : BitVec 5) (mask : BitVec 4)
  /-- FCMPLE (R89): f32 less-or-equal compare. -/
  | fcmple (p : Fin 32) (sat : Bool) (rd ra rb : BitVec 5) (mask : BitVec 4)
  /-- FCVTWS (R90): Convert f32 to signed 32-bit integer. -/
  | fcvtws (p : Fin 32) (sat : Bool) (rd ra rb : BitVec 5) (mask : BitVec 4)
  /-- FCVTSW (R90): Convert signed 32-bit integer to f32. -/
  | fcvtsw (p : Fin 32) (sat : Bool) (rd ra rb : BitVec 5) (mask : BitVec 4)
  /-- FSUM (R91): Pairwise sum of the four lanes. -/
  | fsum (p : Fin 32) (sat : Bool) (rd ra rb : BitVec 5) (mask : BitVec 4)
  /-- FDOT (R91): Pairwise dot product of two vectors. -/
  | fdot (p : Fin 32) (sat : Bool) (rd ra rb : BitVec 5) (mask : BitVec 4)
  /-- FSPLAT (R88): Copy one f32 lane into every lane. -/
  | fsplat (p : Fin 32) (sat : Bool) (rd ra rb : BitVec 5) (mask : BitVec 4)
  /-- MAC2L (R92): Accumulate the products of lanes 0 and 1. -/
  | mac2l (p : Fin 32) (sat : Bool) (rd ra rb : BitVec 5) (mask : BitVec 4)
  /-- MAC2H (R92): Accumulate the products of lanes 2 and 3. -/
  | mac2h (p : Fin 32) (sat : Bool) (rd ra rb : BitVec 5) (mask : BitVec 4)
  /-- MSU2L (R92): Subtract the products of lanes 0 and 1. -/
  | msu2l (p : Fin 32) (sat : Bool) (rd ra rb : BitVec 5) (mask : BitVec 4)
  /-- MSU2H (R92): Subtract the products of lanes 2 and 3. -/
  | msu2h (p : Fin 32) (sat : Bool) (rd ra rb : BitVec 5) (mask : BitVec 4)
  /-- MACP (R92): Accumulate two products into an accumulator pair. -/
  | macp (p : Fin 32) (sat : Bool) (rd ra rb : BitVec 5) (mask : BitVec 4)
  /-- ACLR (R92): Clear an accumulator. -/
  | aclr (p : Fin 32) (sat : Bool) (rd ra rb : BitVec 5) (mask : BitVec 4)
  /-- ALOAD (R92): Load an accumulator from a scalar, sign-extended. -/
  | aload (p : Fin 32) (sat : Bool) (rd ra rb : BitVec 5) (mask : BitVec 4)
  /-- AREAD (R93): Read a shifted accumulator into a scalar. -/
  | aread (p : Fin 32) (sat : Bool) (rd ra rb : BitVec 5) (mask : BitVec 4)
  /-- AADD (R92): Add one accumulator into another. -/
  | aadd (p : Fin 32) (sat : Bool) (rd ra rb : BitVec 5) (mask : BitVec 4)
  /-- AGRD (R92): Read the guard bits of an accumulator. -/
  | agrd (p : Fin 32) (sat : Bool) (rd ra rb : BitVec 5) (mask : BitVec 4)
  /-- ASETH (R92): Set the guard bits of an accumulator. -/
  | aseth (p : Fin 32) (sat : Bool) (rd ra rb : BitVec 5) (mask : BitVec 4)
  /-- LB (R94): Load a sign-extended byte. -/
  | lb (p : Fin 32) (rt : BitVec 5) (ag : BitVec 3) (mode : BitVec 2) (off : BitVec 15) (chk : LineCheck)
  /-- LBU (R94): Load a zero-extended byte. -/
  | lbu (p : Fin 32) (rt : BitVec 5) (ag : BitVec 3) (mode : BitVec 2) (off : BitVec 15) (chk : LineCheck)
  /-- LH (R94): Load a sign-extended halfword. -/
  | lh (p : Fin 32) (rt : BitVec 5) (ag : BitVec 3) (mode : BitVec 2) (off : BitVec 15) (chk : LineCheck)
  /-- LHU (R94): Load a zero-extended halfword. -/
  | lhu (p : Fin 32) (rt : BitVec 5) (ag : BitVec 3) (mode : BitVec 2) (off : BitVec 15) (chk : LineCheck)
  /-- LW (R94): Load a sign-extended word. -/
  | lw (p : Fin 32) (rt : BitVec 5) (ag : BitVec 3) (mode : BitVec 2) (off : BitVec 15) (chk : LineCheck)
  /-- LWU (R94): Load a zero-extended word. -/
  | lwu (p : Fin 32) (rt : BitVec 5) (ag : BitVec 3) (mode : BitVec 2) (off : BitVec 15) (chk : LineCheck)
  /-- LD (R94): Load a doubleword. -/
  | ld (p : Fin 32) (rt : BitVec 5) (ag : BitVec 3) (mode : BitVec 2) (off : BitVec 15) (chk : LineCheck)
  /-- LV (R94): Load a 128-bit vector. -/
  | lv (p : Fin 32) (rt : BitVec 5) (ag : BitVec 3) (mode : BitVec 2) (off : BitVec 15) (chk : LineCheck)
  /-- SB (R94): Store a byte. -/
  | sb (p : Fin 32) (rt : BitVec 5) (ag : BitVec 3) (mode : BitVec 2) (off : BitVec 15) (chk : LineCheck)
  /-- SH (R94): Store a halfword. -/
  | sh (p : Fin 32) (rt : BitVec 5) (ag : BitVec 3) (mode : BitVec 2) (off : BitVec 15) (chk : LineCheck)
  /-- SW (R94): Store a word. -/
  | sw (p : Fin 32) (rt : BitVec 5) (ag : BitVec 3) (mode : BitVec 2) (off : BitVec 15) (chk : LineCheck)
  /-- SD (R94): Store a doubleword. -/
  | sd (p : Fin 32) (rt : BitVec 5) (ag : BitVec 3) (mode : BitVec 2) (off : BitVec 15) (chk : LineCheck)
  /-- SV (R94): Store a 128-bit vector. -/
  | sv (p : Fin 32) (rt : BitVec 5) (ag : BitVec 3) (mode : BitVec 2) (off : BitVec 15) (chk : LineCheck)
  /-- LDVV (R96): Two vector loads in slots A and B. -/
  | ldvv (p : Fin 32) (v1 v2 : BitVec 5) (ag1 ag2 : BitVec 3) (rsv : BitVec 10) (chk chk2 : LineCheck)
  /-- LDSTV (R96): A vector load in slot A and a vector store in slot B. -/
  | ldstv (p : Fin 32) (v1 v2 : BitVec 5) (ag1 ag2 : BitVec 3) (rsv : BitVec 10) (chk chk2 : LineCheck)
  /-- BEQ (R97): Branch if equal. -/
  | beq (p : Fin 32) (ra rb : BitVec 5) (off : BitVec 15)
  /-- BNE (R97): Branch if not equal. -/
  | bne (p : Fin 32) (ra rb : BitVec 5) (off : BitVec 15)
  /-- BLT (R97): Branch if signed less. -/
  | blt (p : Fin 32) (ra rb : BitVec 5) (off : BitVec 15)
  /-- BGE (R97): Branch if signed greater or equal. -/
  | bge (p : Fin 32) (ra rb : BitVec 5) (off : BitVec 15)
  /-- BLTU (R97): Branch if unsigned less. -/
  | bltu (p : Fin 32) (ra rb : BitVec 5) (off : BitVec 15)
  /-- BGEU (R97): Branch if unsigned greater or equal. -/
  | bgeu (p : Fin 32) (ra rb : BitVec 5) (off : BitVec 15)
  /-- BR (R97): Unconditional branch. -/
  | br (p : Fin 32) (ra rb : BitVec 5) (off : BitVec 15)
  /-- BL (R97): Branch and link. -/
  | bl (p : Fin 32) (ra rb : BitVec 5) (off : BitVec 15)
  /-- REP (R99): Open a repeat level with an immediate count. -/
  | rep (p : Fin 32) (lvl : BitVec 2) (len : BitVec 12) (count : BitVec 16)
  /-- NOP (R100): No operation. -/
  | nop (p : Fin 32) (word : W32) (chk : LineCheck)
  /-- GET (R76): Take the oldest dispatched sprout, sleep, or return NONE. -/
  | get (p : Fin 32) (rd ra : BitVec 5) (imm : BitVec 12)
  /-- DONE (R77): Release a sprout slot after an implied FENCE, with an ordered outcome. -/
  | done (p : Fin 32) (rd ra : BitVec 5) (imm : BitVec 12)
  /-- POST (R101): OR event flags into a task. -/
  | post (p : Fin 32) (rd ra : BitVec 5) (imm : BitVec 12)
  /-- CANCEL (R115): Clear a task's flags and remove its untaken sprouts. -/
  | cancel (p : Fin 32) (rd ra : BitVec 5) (imm : BitVec 12)
  /-- EVT (R100): Raise software event source 480 + n. -/
  | evt (p : Fin 32) (rd ra : BitVec 5) (imm : BitVec 12)
  /-- FENCE (R60): Wait until every earlier store is acknowledged. -/
  | fence (p : Fin 32) (rd ra : BitVec 5) (imm : BitVec 12)
  /-- ERET (R70): Return from a trap handler, reopening saved repeat levels or taking a pending trap. -/
  | eret (p : Fin 32) (rd ra : BitVec 5) (imm : BitVec 12)
  /-- MFSR (R102): Read a special register. -/
  | mfsr (p : Fin 32) (rd ra : BitVec 5) (imm : BitVec 12)
  /-- MTSR (R102): Write a special register under its field access codes. -/
  | mtsr (p : Fin 32) (rd ra : BitVec 5) (imm : BitVec 12)
  /-- AGW (R103): Write a field of an address generator. -/
  | agw (p : Fin 32) (rd ra : BitVec 5) (imm : BitVec 12)
  /-- AGR (R103): Read a field of an address generator. -/
  | agr (p : Fin 32) (rd ra : BitVec 5) (imm : BitVec 12)
  /-- REPR (R99): Open a repeat level with a register count. -/
  | repr (p : Fin 32) (rd ra : BitVec 5) (imm : BitVec 12)
  /-- JR (R98): Jump to a register address. -/
  | jr (p : Fin 32) (rd ra : BitVec 5) (imm : BitVec 12)
  /-- JALR (R98): Jump to a register address and link. -/
  | jalr (p : Fin 32) (rd ra : BitVec 5) (imm : BitVec 12)
  /-- TIMRD (R104): Read a time base or the cell tick number. -/
  | timrd (p : Fin 32) (rd ra : BitVec 5) (imm : BitVec 12)
  /-- FBW (R105): Return the writable half of a publish buffer. -/
  | fbw (p : Fin 32) (rd ra : BitVec 5) (imm : BitVec 12)
  /-- FBR (R105): Return the published half of a publish buffer. -/
  | fbr (p : Fin 32) (rd ra : BitVec 5) (imm : BitVec 12)
  /-- DWR (R106): Copy local words to register space as one atomic transfer. -/
  | dwr (p : Fin 32) (rd ra : BitVec 5) (imm : BitVec 12) (chks : List LineCheck)
  /-- IMEM_WINDOW_WRITE (R419): A write to a halted pod's instruction memory through its global window also writes its image copy. -/
  | imemWindowWrite (m : Master) (p : Fin 32) (off : BitVec 16) (data : Transfer)
  /-- POD_RUN (R79): Writing RUN 1 starts a halted pod, taking any pending trap first. -/
  | podRun (m : Master) (p : Fin 32)
  /-- POD_HALT (R118): Writing RUN 0 halts the pod at the next instruction boundary and clears its accept mask. -/
  | podHalt (m : Master) (p : Fin 32)
  /-- POD_STEP (R73): STEP executes one instruction of a halted pod or performs a pending trap entry. -/
  | podStep (m : Master) (p : Fin 32) (chk : StepCheck)
  /-- POD_RESTART (R77): RESTART releases held sprouts as cancelled, clears trap state and resets the entry point. -/
  | podRestart (m : Master) (p : Fin 32)
  /-- FBK_CLR (R155): Writing an observer number requests the clear of its fault state at the next feedback phase. -/
  | fbkClr (m : Master) (k : BitVec 8)
  /-- FBK_OBS_WRITE (R158): An observer descriptor write enables, disables or changes fields, or is ignored in full. -/
  | fbkObsWrite (m : Master) (k : BitVec 8) (word : Fin 16) (v : W32)
  /-- FBK_LCH_WRITE (R138): A local channel write sets its enable, mode, direction and filter. -/
  | fbkLchWrite (m : Master) (n : Fin 16) (v : W32)
  /-- FBK_DIV_WRITE (R156): A divided output write enables it with zero remainder or changes its settings. -/
  | fbkDivWrite (m : Master) (d word : Fin 4) (v : W32)
  /-- FBK_MIRROR_WRITE (R160): A mirror write stores MEN and MOFF or is ignored when the copy would leave cell memory. -/
  | fbkMirrorWrite (m : Master) (v : W32)
  /-- LCH_COUNT_EDGE (R139): A filtered quadrature transition changes a local channel's count. -/
  | lchCountEdge (n : Fin 16) (a b : Bool)
  /-- LCH_Z_EDGE (R149): A qualified Z edge latches and time-stamps the count and fires event 360 + n. -/
  | lchZEdge (n : Fin 16)
  /-- HALL_EDGE (R141): A Hall transition changes the sector count and is time-stamped. -/
  | hallEdge (n : Fin 16) (hu hv hw : Bool)
  /-- DIVIDED_OUTPUT_EMIT (R157): A divided output emits owed counts as quadrature edges within its rate limit. -/
  | dividedOutputEmit (d : Fin 4) (due : Nat) (limited : Bool)
  /-- LPE_SWAP_SLOT (R176): A slot swap request sets SWP and swaps the bank at the slot's next update. -/
  | lpeSwapSlot (m : Master) (v : W32)
  /-- LPE_SWAP_GROUP (R177): A group swap request swaps every member at its first update at or after the boundary. -/
  | lpeSwapGroup (m : Master) (v : W32)
  /-- LPE_MSW (R180): A mode-switch request starts a bumpless hand-over to another alternative. -/
  | lpeMsw (m : Master) (v : W32)
  /-- LPE_SLOT_WRITE (R185): A slot descriptor, state or OUT write is accepted, checked on enable, or ignored. -/
  | lpeSlotWrite (m : Master) (slot : Fin 1024) (st : Bool) (word : Fin 16) (v : W32)
  /-- LPE_BANK_WRITE (R175): A coefficient bank write is accepted only for an inactive bank without a pending swap. -/
  | lpeBankWrite (m : Master) (slot : Fin 1024) (bank : Fin 2) (word : Fin 64) (v : W32)
  /-- LPE_XF_WRITE (R185): A transform unit write changes ADV or EN subject to its checks. -/
  | lpeXfWrite (m : Master) (j : Fin 128) (word : Fin 8) (v : W32)
  /-- LPE_MSET_WRITE (R185): A mode-set write changes XF or EN subject to its checks. -/
  | lpeMsetWrite (m : Master) (n : Fin 128) (word : Fin 8) (v : W32)
  /-- LPE_PEAK_READ (R187): A read of LPE_PEAK returns and clears the peak loop-phase length. -/
  | lpePeakRead (m : Master)
  /-- LPE_GRP_CAUSE_READ (R186): A read of a slot group's CAUSE returns and clears it. -/
  | lpeGrpCauseRead (m : Master) (g : Fin 64)
  /-- DISARM (R199): Discard an armed command and return to IDLE. -/
  | disarm (m : Master) (k : Fin 256) (v : W32)
  /-- MOVE_POS (R194): Start, arm or re-plan a class A position move. -/
  | movePos (m : Master) (k : Fin 256) (v : W32)
  /-- MOVE_VEL (R194): Start, arm or re-plan a class A velocity move. -/
  | moveVel (m : Master) (k : Fin 256) (v : W32)
  /-- MOVE_TAB (R210): Start or arm a class B move from a table's READY bank. -/
  | moveTab (m : Master) (k : Fin 256) (v : W32)
  /-- PAUSE (R201): Pause a class A move by a stop plan or ramp class B kappa to zero. -/
  | pause (m : Master) (k : Fin 256) (v : W32)
  /-- RESUME (R201): Resume a paused move, latch it in PAUSING or reverse the kappa ramp. -/
  | resume (m : Master) (k : Fin 256) (v : W32)
  /-- STOP (R201): Stop a channel with the class A stop plan and discard its target. -/
  | stop (m : Master) (k : Fin 256) (v : W32)
  /-- HOME (R225): Start homing in the configured mode. -/
  | home (m : Master) (k : Fin 256) (v : W32)
  /-- CLR_LIM (R224): Clear the direction blocks when no blocking switch is active. -/
  | clrLim (m : Master) (k : Fin 256) (v : W32)
  /-- PRF_CH_EN_WRITE (R192): Enabling a channel moves it to IDLE or FAULT, disabling moves it to OFF. -/
  | prfChEnWrite (m : Master) (k : Fin 256) (v : W32)
  /-- LIMIT_WRITE (R204): A class A limit write is stored, re-plans a running move or is deferred. -/
  | limitWrite (m : Master) (k : Fin 256) (word : Fin 8) (v : W32)
  /-- KAPPA_TGT_WRITE (R197): A new kappa goal starts a kappa ramp or is stored until pause or homing ends. -/
  | kappaTgtWrite (m : Master) (k : Fin 256) (v : W32)
  /-- PRF_GFIRE_NOW (R213): Writing PRF_GFIRE with AT 0 fires the group in the applying profile phase. -/
  | prfGfireNow (m : Master) (v : W32)
  /-- PRF_GFIRE_AT_TICK (R213): Writing PRF_GFIRE with AT 1 schedules the group fire at FIRE_TICK. -/
  | prfGfireAtTick (m : Master) (v : W32)
  /-- GROUP_FIRE_TICK_REACHED (R213): A pending fire fires in the profile phase of FIRE_TICK. -/
  | groupFireTickReached (g : Fin 32)
  /-- TABLE_COMMIT (R210): COMMIT with GO 1 starts background verification of a bank. -/
  | tableCommit (m : Master) (t : Fin 64) (v : W32)
  /-- TABLE_WITHDRAW (R210): COMMIT with GO 0 withdraws a pending commit that has not taken over. -/
  | tableWithdraw (m : Master) (t : Fin 64) (v : W32)
  /-- BANK_VERIFY_DONE (R210): Background verification ends and the bank becomes READY or is dropped with BANK_ERR. -/
  | bankVerifyDone (t : Fin 64)
  /-- PRF_TBL_WRITE (R210): A table descriptor write is stored unless the table is bound. -/
  | prfTblWrite (m : Master) (t : Fin 64) (word : Fin 8) (v : W32)
  /-- PRF_CMP_WRITE (R218): A compare unit write arms it with CMP fresh or changes its fields under the STEP and DIR rule. -/
  | prfCmpWrite (m : Master) (u : Fin 64) (word : Fin 16) (v : W32)
  /-- UNDERRUN_ALLOWANCE_EXPIRY (R212): The end of the underrun allowance makes a class A stop and raises UNDERRUN. -/
  | underrunAllowanceExpiry (k : Fin 256)
  /-- SWITCH_QUALIFIED (R222): A switch level held for QUAL ticks is confirmed as a qualified edge. -/
  | switchQualified (k : Fin 256) (j : Fin 3)
  /-- HOME_STALL_DETECTED (R226): The hard-stop condition held for ITICKS ticks completes mode 4 homing. -/
  | homeStallDetected (k : Fin 256)
  /-- HYST_WINDOW_CLOSE (R228): The hysteresis window closes and chatter beyond CHAT_MAX aborts homing. -/
  | hystWindowClose (k : Fin 256)
  /-- HOME_TIMEOUT (R230): TIMEOUT ticks elapsed in homing abort it with FAIL 2. -/
  | homeTimeout (k : Fin 256)
  /-- STEP_PULSE (R234): A step pulse rises at its scheduled instant and falls after PW. -/
  | stepPulse (st : Fin 32) (rise : Bool)
  /-- STEPPER_HOLD_CURRENT (R235): COUNT unchanged for HOLDT ticks selects IHOLD. -/
  | stepperHoldCurrent (st : Fin 32)
  /-- PRF_STP_WRITE (R237): A stepper channel write is stored, or ignored while enabled outside CONFIG. -/
  | prfStpWrite (m : Master) (st : Fin 32) (word : Fin 16) (v : W32)
  /-- PRF_HOME_WRITE (R237): A homing descriptor write is stored unless homing runs. -/
  | prfHomeWrite (m : Master) (k : Fin 256) (word : Fin 32) (v : W32)
  /-- PRF_MSTAB_WRITE (R236): A microstep table write is stored unless the table is in use. -/
  | prfMstabWrite (m : Master) (t : Fin 5) (index : Fin 128) (v : W32)
  /-- PRF_GRP_CAUSE_READ (R219): A read of a start group's CAUSE returns and clears it. -/
  | prfGrpCauseRead (m : Master) (g : Fin 32)
  /-- WORKSPACE_SEAL (R242): At the deadline of POSE_TICK the engine seals its workspace set and sends it. -/
  | workspaceSeal
  /-- SEPARATION_CHECK (R259): At CHK_TICK the engine computes base goals and resolves conflicts in rounds. -/
  | separationCheck
  /-- CHK_DONE (R264): The check ends, results stand in SEP_RES and event 384 fires with its followers. -/
  | chkDone
  /-- WORKSPACE_RESULT_APPLY (R262): In the first tick of the next frame goals, protective stops and resumes are applied to own arms. -/
  | workspaceResultApply
  /-- SEP_PSREL (R261): Writing an arm number requests release of its protective stop. -/
  | sepPsrel (m : Master) (v : W32)
  /-- AUTO_RELEASE (R261): AUTOREL frames in protective stop request an automatic release. -/
  | autoRelease
  /-- SEP_ARM_WRITE (R265): A SEP_ARM write stores fields permitted in the current state or is ignored. -/
  | sepArmWrite (m : Master) (a word : Fin 16) (v : W32)
  /-- SEP_PEAK_READ (R265): A read of SEP_PEAK returns and clears the peak work units. -/
  | sepPeakRead (m : Master)
  /-- RING_SLOT_SEND (R338): At a slot start the station sends its status, data or join frame. -/
  | ringSlotSend (kind : Fin 3)
  /-- STATUS_FRAME (R347): A received status frame is guarded, forwarded and used for synchronisation and membership. -/
  | statusFrame (east : Bool) (t : Nat) (bytes : List Byte) (codeOk : Bool)
  /-- DATA_FRAME (R342): A received data frame delivers XDATA and workspace set bytes. -/
  | dataFrame (east : Bool) (t : Nat) (bytes : List Byte) (codeOk : Bool)
  /-- COLD_START_FRAME (R345): A received cold-start frame is adopted by a listening station or is a collision. -/
  | coldStartFrame (east : Bool) (bytes : List Byte) (codeOk : Bool)
  /-- JOIN_FRAME (R360): A join frame carries the owner's state image to the joiner. -/
  | joinFrame (east : Bool) (t : Nat) (bytes : List Byte) (codeOk : Bool)
  /-- TWIN_INPUT_FLASH (R354): A twin input flash delivers heartbeat, flags, digest and the owner's local inputs. -/
  | twinInputFlash (bytes : List Byte) (codeOk : Bool)
  /-- MASK_FLASH (R320): A mask flash delivers the partner's released-port mask. -/
  | maskFlash (bytes : List Byte) (codeOk : Bool)
  /-- TWIN_FLASH_SEND (R354): Each twin sends its twin input flash at t0 + TW1. -/
  | twinFlashSend
  /-- MASK_FLASH_SEND (R354): Each twin sends its mask flash at U_end. -/
  | maskFlashSend
  /-- LIR_MISS (R354): A missing partner record or mask by its deadline makes the twin use its own values and set STF. -/
  | lirMiss (mask : Bool)
  /-- PEER_DELAY_EXCHANGE (R335): Each port runs a peer-delay exchange every 125 us and updates LD. -/
  | peerDelayExchange (east : Bool) (d : Nat)
  /-- RING_CYCLE_END (R347): At the end of a ring cycle the station computes m, slews TB0 and settles XDATA, modes and exclusion. -/
  | ringCycleEnd
  /-- EXCLUSION_END (R343): After 8 ring cycles an excluded station returns to LISTEN. -/
  | exclusionEnd
  /-- LISTEN_TIMEOUT (R344): The listen timer of a position-0 station expires and it starts a cold start. -/
  | listenTimeout
  /-- COLD_START_SEND (R344): A cold starter sends one cold-start frame per cycle with its countdown. -/
  | coldStartSend
  /-- COLD_START_WATCH_END (R344): The 5 us watch after a cold-start frame ends and decides a collision. -/
  | coldStartWatchEnd
  /-- RING_PORT_FAULT (R351): A ring port detecting a fault loops traffic onto the other ring. -/
  | ringPortFault (east : Bool)
  /-- RING_LINK_OK (R352): A link error-free for 1 ms sets LINKOK so that both ends can unloop. -/
  | ringLinkOk (east : Bool)
  /-- HEARTBEAT_TIMEOUT (R357): RING_CYCLE ticks without the owner's heartbeat give ownership to the eligible standby. -/
  | heartbeatTimeout
  /-- CRN_MODEREQ (R350): Writing a mode at the master starts a two-cycle mode request. -/
  | crnModereq (m : Master) (v : W32)
  /-- CRN_TWIN_JOIN (R360): Writing JOIN starts a hot join of a replacement twin. -/
  | crnTwinJoin (m : Master)
  /-- CRN_TWIN_KEEP (R356): DECIDE KEEP leaves the standby to rejoin after a mismatch. -/
  | crnTwinKeep (m : Master)
  /-- CRN_TWIN_SWAP (R356): DECIDE SWAP hands ownership over at the next ring-cycle boundary. -/
  | crnTwinSwap (m : Master)
  /-- REPLAY_TICK (R360): The joiner runs one replay tick from its log and compares its digest. -/
  | replayTick
  /-- CRN_STA_CNT_READ (R364): A read of a station's CUT and TRUNC counters returns and clears them. -/
  | crnStaCntRead (m : Master) (sta : Fin 16)
  /-- STR_PST_CNT_READ (R332): A read of a port's CUT, TRUNC or BAD counters returns and clears them. -/
  | strPstCntRead (m : Master) (n : Fin 32) (bad : Bool)
  /-- TIME_CYCLE (R367): Every CK_TIME cycle the bases advance, steps apply, triggers compare and captures latch. -/
  | timeCycle
  /-- TRIGGER_INSTANCE (R374): A triggered output instance fires when its base reaches the instance time. -/
  | triggerInstance (n : Fin 32)
  /-- TRIGGER_PULSE_END (R374): A triggered output returns to idle after WIDTH cycles. -/
  | triggerPulseEnd (n : Fin 32)
  /-- COMPARE_PULSE_START (R377): A compare request goes active when TB0 reaches its t_c. -/
  | comparePulseStart (n : Fin 32)
  /-- CAPTURE_EDGE (R378): A filtered capture edge is time-stamped into the FIFO and fires event 160 + n. -/
  | captureEdge (n : Fin 16) (level : Bool)
  /-- OFFSET_SAMPLE (R369): Writing OFS submits an offset sample that steps, slews or updates the servo. -/
  | offsetSample (m : Master) (b : Fin 6) (v : W32)
  /-- TIME_SET (R372): Writing SET loads a time into a base as a step, or is ignored. -/
  | timeSet (m : Master) (b : Fin 6) (v : W32)
  /-- SLEW_COMPLETE (R370): A slew reaches its measured offset and raises SLEW_END. -/
  | slewComplete (b : Fin 6)
  /-- HOLDOVER_ENTRY (R371): No sample for HOLD_TO ms puts a base in holdover. -/
  | holdoverEntry (b : Fin 6)
  /-- TIM_XTS_GO (R373): GO latches all six bases in one cycle and fires event 182. -/
  | timXtsGo (m : Master) (v : W32)
  /-- TRIGGER_ARM (R375): Writing ARM 1 captures a trigger's settings and arms it. -/
  | triggerArm (m : Master) (n : Fin 32) (v : W32)
  /-- TRIGGER_DISARM (R375): Writing ARM 0 stops further instances and drops compare requests. -/
  | triggerDisarm (m : Master) (n : Fin 32) (v : W32)
  /-- TIM_CP_WRITE (R378): A capture input write enables it or empties its FIFO on disable. -/
  | timCpWrite (m : Master) (n : Fin 16) (v : W32)
  /-- TIM_CP_NS_READ (R378): A read of NS removes the oldest capture entry and latches its seconds and edge. -/
  | timCpNsRead (m : Master) (n : Fin 16)
  /-- TIM_TB_CAUSE_READ (R381): A read of a base's CAUSE returns and clears it. -/
  | timTbCauseRead (m : Master) (b : Fin 6)
  /-- ETH_FRAME_RECEIVE (R386): A received Ethernet frame is stamped, classified, rate-limited and delivered, forwarded or dropped. -/
  | ethFrameReceive (p : Fin 2) (bytes : List Byte) (fcsOk : Bool)
  /-- KPP_COMMAND (R391): A command frame is checked for format, key, tag and counter before its operation runs. -/
  | kppCommand
  /-- KPP_READ (R392): The READ operation reads a range and returns it in an authenticated response. -/
  | kppRead
  /-- KPP_WRITE (R392): The WRITE operation writes a range as host accesses and responds with STATUS. -/
  | kppWrite
  /-- KPP_DOORBELL (R392): The DOORBELL operation fires host doorbell source 16 + D. -/
  | kppDoorbell
  /-- ETH_TRANSMIT (R389): An owned transmit descriptor is sent with any one-step insertion and its stamp. -/
  | ethTransmit (p : Fin 2)
  /-- ETH_TX_COMPLETE (R389): A frame has left, OWN is cleared and event 186 fires. -/
  | ethTxComplete (p : Fin 2)
  /-- ETH_LINK_CHANGE (R394): A plant port's link changes and event 190 fires. -/
  | ethLinkChange (p : Fin 2) (up : Bool)
  /-- ETH_KEY_WRITE (R393): A key slot write loads a key or enables the slot with zero counters. -/
  | ethKeyWrite (m : Master) (k : Fin 4) (word : Fin 16) (v : W32)
  /-- ETH_PORT_WRITE (R395): A port write changes its settings or advances a ring tail. -/
  | ethPortWrite (m : Master) (p : Fin 2) (word : Fin 32) (v : W32)
  /-- ETH_CNT_READ (R395): A read of a port counter or bucket DROP returns and clears it. -/
  | ethCntRead (m : Master) (p : Fin 2) (word : Fin 15)
  /-- DIO_DEBOUNCED_EDGE (R397): A DIO input level held for DEB becomes the debounced level and may fire an event. -/
  | dioDebouncedEdge (n : Fin 32) (x : PinEdge)
  /-- DIO_OUT_WRITE (R401): DIO_OUT replaces the output image. -/
  | dioOutWrite (m : Master) (v : W32)
  /-- DIO_OSET_WRITE (R401): DIO_OSET sets image bits. -/
  | dioOsetWrite (m : Master) (v : W32)
  /-- DIO_ORST_WRITE (R401): DIO_ORST clears image bits. -/
  | dioOrstWrite (m : Master) (v : W32)
  /-- DIO_CLR (R406): Writing GO requests a clear of DIO trips at the next t0. -/
  | dioClr (m : Master) (v : W32) (cool : Bool)
  /-- DIO_DEB_WRITE (R397): A debounce write takes effect at the next sample and restarts any count. -/
  | dioDebWrite (m : Master) (n : Fin 32) (v : W32)
  /-- DIO_OVERCURRENT (R405): A switch in current limit for 500 us trips its gang. -/
  | dioOvercurrent (n : Fin 32)
  /-- DIO_OVERTEMPERATURE (R405): A switch junction above 150 C trips its gang. -/
  | dioOvertemperature (n : Fin 32)
  /-- FIELD_UNDERVOLTAGE (R405): The field supply below 16 V for 100 us trips every switch. -/
  | fieldUndervoltage
  /-- FIELD_GOOD (R408): The field supply at or above 19.2 V for 10 ms becomes good. -/
  | fieldGood
  /-- FIELD_WARN_CROSSING (R408): Event 463 fires at each crossing of 19.2 V. -/
  | fieldWarnCrossing (x : FieldCross)
  /-- DIO_LINK_TIMEOUT (R410): 100 us without a well-formed command frame opens every DIO switch. -/
  | dioLinkTimeout
  /-- LINE_CORRECTION_DONE (R421): A correction write-back completes, is logged and releases the waiting accesses. -/
  | lineCorrectionDone (line : BitVec 34)
  /-- SCRUB_LINE (R430): The scrubber reads and checks the next protected line at its paced rate. -/
  | scrubLine (chk : LineCheck)
  /-- MEM_RELOAD (R426): Writing a region number reloads every line of a backed region from its source. -/
  | memReload (m : Master) (v : W32)
  /-- MEM_ZERO_FILL (R426): MEM_RELOAD with FILL 1 zero-fills the poisoned lines of a plain or recomputable region. -/
  | memZeroFill (m : Master) (v : W32)
  /-- RELOAD_DONE (R426): A reload ends and RELOADING returns to 0. -/
  | reloadDone (x : ReloadEnd)
  /-- MEM_REBUILT (R425): Writing a region number ends its rebuild and checks its pending lines. -/
  | memRebuilt (m : Master) (v : W32) (bad : List (BitVec 34))
  /-- CORRECTION_LOG_EXPIRY (R427): A log entry is removed WIN hours after its first correction. -/
  | correctionLogExpiry (line : BitVec 34)
  /-- MEM_CFG_WRITE (R432): A MEM_CFG write stores a valid scrub period and window or is ignored. -/
  | memCfgWrite (m : Master) (v : W32)
  /-- MEM_CNT_READ (R432): A read of MEM_CNT returns and clears the correction counts. -/
  | memCntRead (m : Master)
  /-- HEALTH_EVALUATION (R435): Every 1 ms the module chooses the pod clock step and shed level from the replica slack. -/
  | healthEvaluation (w : BitVec 128)
  /-- CRITICAL_REACTION (R438): Critical slack or temperature puts every joint in its fault action and the module in DEGRADED. -/
  | criticalReaction
  /-- TEMPERATURE_SAMPLE (R433): The temperature sensors refresh and TEMP_WARN or TEMP_OK may fire. -/
  | temperatureSample (w : BitVec 256)
  /-- AGEING_SAMPLE (R433): The ageing sensors refresh their frequency loss. -/
  | ageingSample (w : BitVec 384)
  /-- TTL_UPDATE (R439): An hourly minimum of S4 is taken and the time to limit recomputed. -/
  | ttlUpdate
  /-- DRAM_RETENTION_MEASURE (R439): The retention margin is measured every 60 s and sets the wanted refresh rate. -/
  | dramRetentionMeasure (ms : BitVec 16)
  /-- DRAM_REFRESH_CHANGE (R439): The refresh rate changes at a ring-cycle boundary and event 442 fires. -/
  | dramRefreshChange
  /-- EYE_MEASURE (R445): A link's eye margin is measured and may raise EYE_WARN. -/
  | eyeMeasure (port : Fin 37) (h w : BitVec 16)
  /-- RON_MEASURE (R445): A switch's on-resistance is measured and may raise RON_WARN. -/
  | ronMeasure (k : Fin 40) (r : BitVec 16)
  /-- SUPPLY_DIP_START (R442): A rail falls below its warning level and non-volatile writes are inhibited. -/
  | supplyDipStart (x : RailFall)
  /-- SUPPLY_DIP (R442): A dip ends, is recorded and fires event 438. -/
  | supplyDip (r : Fin 8) (dur : W32) (vmin : BitVec 16)
  /-- NV_INHIBIT_END (R443): 1 ms after a dip the inhibit ends and held flash operations resume. -/
  | nvInhibitEnd
  /-- HLT_SHED_CMD (R440): Writing GO commits a shed level for a named tick or is refused. -/
  | hltShedCmd (m : Master) (v : W32)
  /-- HLT_RAIL_VMIN_READ (R447): A read of a rail's VMIN returns and clears it. -/
  | hltRailVminRead (m : Master) (r : Fin 8)
  /-- POWER_ON_RESET (R462): Rising rails reset Corukan and the safety core and lose DRAM. -/
  | powerOnReset
  /-- PIN_RESET (R462): RESET_N low for at least 10 us resets the module. -/
  | pinReset
  /-- RAIL_RESET (R441): A Corukan rail below its reset level for 1 us resets the module. -/
  | railReset
  /-- RAIL_ORDER_VIOLATION (R488): A rail falling out of order holds the module in RESET until the order is repeated. -/
  | railOrderViolation
  /-- XREF_LOSS (R489): XREF missing for 2 us acts as a pin reset. -/
  | xrefLoss
  /-- FULL_RESET (R462): SYS_RESET KIND 1 with KEY 0x5A resets the module and loses DRAM. -/
  | fullReset (m : Master) (v : W32)
  /-- WARM_RESET (R462): SYS_RESET KIND 2 with KEY 0x5A resets the module and keeps DRAM in self-refresh. -/
  | warmReset (m : Master) (v : W32)
  /-- BOOT (R454): At the rise of RESET_N the boot steps run and end in CONFIG or SAFE. -/
  | boot (straps : BitVec 6) (trained fwOk : Bool)
  /-- SYS_BOOT_CTRL_GO (R454): GO starts the read of a host-written boot image. -/
  | sysBootCtrlGo (m : Master) (v : W32) (fwOk : Bool)
  /-- STATE_REQUEST_CONFIG (R459): TO CONFIG puts every joint in its fault action and returns to CONFIG. -/
  | stateRequestConfig (m : Master)
  /-- STATE_REQUEST_SYNC (R457): TO SYNC runs every leave-CONFIG check and enters SYNC or reports REFUSE. -/
  | stateRequestSync (m : Master)
  /-- STATE_REQUEST_RUN (R458): TO RUN schedules entry to RUN at SYS_RUN_TICK or is refused. -/
  | stateRequestRun (m : Master)
  /-- RUN_ENTRY (R458): The module enters RUN at t0 of the named tick. -/
  | runEntry
  /-- CONFIG_ENTRY (R459): The module enters CONFIG when every channel is at rest in FAULT or after 200 ms. -/
  | configEntry
  /-- STANDBY_ENTRY (R345): The module leaves SYNC for STANDBY when its ring state is ACTIVE or the ring is off. -/
  | standbyEntry
  /-- AUTORUN_RUN_REQUEST (R461): 64 ticks after entry to STANDBY AUTORUN 2 requests RUN or a hot join. -/
  | autorunRunRequest
  /-- HOST_WATCHDOG_EXPIRY (R463): Expiry of the host watchdog sets EXP and may put the module in DEGRADED. -/
  | hostWatchdogExpiry
  /-- SYS_HOSTWD_KICK (R463): A kick restarts the host watchdog timeout. -/
  | sysHostwdKick (m : Master) (v : W32)
  /-- SNAPSHOT_REQUEST (R464): SYS_SNAP_CTRL.GO takes a snapshot at the next or a named tick, or is refused. -/
  | snapshotRequest (m : Master) (v : W32)
  /-- SNAPSHOT_DONE (R464): The snapshot copy completes, DONE is set and event source 8 fires. -/
  | snapshotDone
  /-- TICK_REG_PERIOD_WRITE (R21): A SYS_TICK_PERIOD write is stored in CONFIG, refused when invalid, or ignored outside CONFIG. -/
  | tickRegPeriodWrite (m : Master) (v : W32)
  /-- TICK_REG_UL_WRITE (R21): A SYS_TICK_UL write is stored in CONFIG or ignored outside it. -/
  | tickRegUlWrite (m : Master) (v : W32)
  /-- TICK_REG_DL_WRITE (R21): A SYS_TICK_DL write is stored in CONFIG or ignored outside it. -/
  | tickRegDlWrite (m : Master) (v : W32)
  /-- TICK_REG_TIER_WRITE (R21): A SYS_TICK_TIER write stores its valid fields separately in CONFIG. -/
  | tickRegTierWrite (m : Master) (v : W32)
  /-- SYS_AERR_CNT_READ (R474): A read of SYS_AERR_INFO returns and clears the logged-access count. -/
  | sysAerrCntRead (m : Master)
  /-- LO_WORD_READ_LATCH (R473): A read of the LO word of an RO pair latches the matching HI word. -/
  | loWordReadLatch (m : Master) (off : BitVec 24)
  /-- REGISTER_WRITE (R3): A write to a register without a row of its own acts by its access codes, or is discarded and logged if unassigned. -/
  | registerWrite (m : Master) (off : BitVec 24) (v : W32) (whole : Bool)
  /-- BAR2_ACCESS (R477): A PCIe access through BAR2 reaches cell memory or the DRAM aperture. -/
  | bar2Access (write : Bool) (off : BitVec 24) (data : List Byte) (chks : List LineCheck)
  /-- HST_DOORBELL (R482): Writing D fires host doorbell event source 16 + D. -/
  | hstDoorbell (m : Master) (v : W32)
  /-- COMMIT_SUBMIT (R479): HST_CMT_STAT.GO starts the copy of a commit list into the commit store. -/
  | commitSubmit (m : Master) (v : W32)
  /-- COMMIT_COPY_DONE (R479): The commit copy completes and the commit is checked, accepted or refused. -/
  | commitCopyDone (chks : List LineCheck)
  /-- COMMIT_APPLY (R480): At t0 of its tick every held commit is applied as writes by master 42. -/
  | commitApply
  /-- MSIX_MESSAGE (R483): A pending unmasked vector sends its MSI-X message after its hold-off. -/
  | msixMessage (x : MsixSend)
  /-- DMA_GO (R484): Writing GO starts a host DMA channel. -/
  | dmaGo (m : Master) (ch : Fin 8) (v : W32)
  /-- DMA_PIECE (R484): A channel moves its next 512-byte piece in round-robin service. -/
  | dmaPiece (data : List Byte) (pcieOk : Bool) (chks : List LineCheck)
  /-- DMA_DONE (R484): A channel completes once all its writes are visible and signals its vector. -/
  | dmaDone (ch : Fin 8)
  /-- PCIE_HOT_RESET (R478): A PCIe hot reset or link-down resets the endpoint registers and aborts host DMA. -/
  | pcieHotReset
  /-- SWITCH_TEST_RESPONSE (R279): The Husk sees the test response of a safe-output switch under test, ends the off-pulse and closes the switch again. -/
  | switchTestResponse (m : Fin 4) (low : Bool)
  /-- FBK_LCH_QERR_READ (R160): A read of FBK_LCH[n].QERR returns the quadrature error count and clears it. -/
  | fbkLchQerrRead (m : Master) (n : Fin 16)
  /-- FORWARDED_FRAME_EGRESS (R388): A frame held in an egress priority queue, forwarded or answered by hardware, leaves the port and forwarded PTP event messages get their residence time added from the egress stamp. -/
  | forwardedFrameEgress (p : Fin 2)
  deriving DecidableEq, Repr

end Sys2Proof
end

