-- ==== Sys2Proof/Decode.lean ====
section
/-!
DEFINITION. The command a word spells by the bits of spec/opcode_table.json. The table gives bits to no row: the block takes
its commands from outside and not from a memory. The words of the pods' instructions are read in Machine/PodWord.lean.
-/
namespace Sys2Proof

/-- No row of the table has bits, so no word spells a command. (Model: DESIGN CHOICE, log 9) -/
def decodeTableWord (_nbits _w : Nat) : Option Instr := none

end Sys2Proof
end

