-- ==== Sys2Proof/Machine/Bits.lean ====
section
/-!
DEFINITION. Bit fields, sign extension, byte order and sparse tables: the small functions every unit uses.
-/
namespace Sys2Proof.Machine

/-! ## Fields of words -/

/-- Bits [hi:lo] of a number. -/
def bitsOf (w hi lo : Nat) : Nat := (w >>> lo) % 2 ^ (hi + 1 - lo)

/-- Field [hi:lo] of a register word. -/
def fld (w : W32) (hi lo : Nat) : Nat := bitsOf w.toNat hi lo

/-- One bit of a register word. -/
def bit (w : W32) (i : Nat) : Bool := w.toNat.testBit i

/-- The word with field [hi:lo] replaced by `v`. -/
def setFld (w : W32) (hi lo v : Nat) : W32 :=
  let m := (2 ^ (hi + 1 - lo) - 1) <<< lo
  (w &&& ~~~ (BitVec.ofNat 32 m)) ||| (BitVec.ofNat 32 ((v <<< lo) &&& m))

/-- The word with one bit replaced. -/
def setBit (w : W32) (i : Nat) (b : Bool) : W32 := setFld w i i b.toNat

/-- The signed value of the low `n` bits of a number. -/
def signed (n w : Nat) : Int :=
  let v := w % 2 ^ n
  if v < 2 ^ (n - 1) then (v : Int) else (v : Int) - (2 ^ n : Nat)

/-- The low `n` bits of an integer, as a number. -/
def wrapN (n : Nat) (i : Int) : Nat := (i % ((2 ^ n : Nat) : Int)).toNat

/-- An integer clamped to a range. -/
def clampI (lo hi i : Int) : Int := if i < lo then lo else if i > hi then hi else i

/-- A number clamped to an upper bound. -/
def satN (top n : Nat) : Nat := if n > top then top else n

/-- Arithmetic right shift: division by 2^k rounding toward minus infinity. -/
def shrI (i : Int) (k : Nat) : Int := i / ((2 ^ k : Nat) : Int)

/-! ## Byte order (R2): little-endian -/

/-- The `n` bytes of a number, least significant first. -/
def toBytes : (n : Nat) → Nat → List Byte
  | 0, _ => []
  | n + 1, v => BitVec.ofNat 8 v :: toBytes n (v / 256)

/-- The number a little-endian byte list stands for. -/
def ofBytes : List Byte → Nat
  | [] => 0
  | b :: bs => b.toNat + 256 * ofBytes bs

/-- The little-endian number of `n` bytes at an offset of a byte list. -/
def leAt (bs : List Byte) (off n : Nat) : Nat := ofBytes ((bs.drop off).take n)

/-- The big-endian number of `n` bytes at an offset of a byte list (network order, R382). -/
def beAt (bs : List Byte) (off n : Nat) : Nat := ofBytes ((bs.drop off).take n).reverse

/-- Replaces the bytes of a list from an offset on. -/
def splice (bs : List Byte) (off : Nat) (new : List Byte) : List Byte :=
  bs.take off ++ new ++ bs.drop (off + new.length)

/-! ## The sine of an angle in the first quadrant -/

/-- π scaled by 2^160, rounded down. -/
def piScaled : Nat := 4591442807048218921384805199743311128454155024418

/-- The sine series from the term of index `i` on: x^i / i! with alternating signs, scaled by 2^160. -/
def sinSeries : (fuel : Nat) → (i : Nat) → (x2 term : Nat) → Int
  | 0, _, _, _ => 0
  | n + 1, i, x2, term => (term : Int) - sinSeries n (i + 2) x2 (term * x2 / 2 ^ 160 / ((i + 1) * (i + 2)))

/-- sin(x) for 0 ≤ x ≤ π / 2, x and the result scaled by 2^160. -/
def sinScaled (x : Nat) : Nat := (sinSeries 30 1 (x * x / 2 ^ 160) x).toNat

/-! ## Sparse tables -/

/-- What a table holds at a key; an unlisted key reads as `d k`. -/
def tabGet {α : Type} (d : Nat → α) : Tab α → Nat → α
  | [], k => d k
  | (k', v) :: t, k => if k' < k then tabGet d t k else if k' = k then v else d k

/-- A table without its first entries, those of keys up to `k`. -/
def tabAfter {α : Type} : Tab α → Nat → Tab α
  | [], _ => []
  | (k', v) :: t, k => if k' ≤ k then tabAfter t k else (k', v) :: t

/-- The table with a key set, in canonical form: keys rising, no entry equal to its default. -/
def tabPut {α : Type} [DecidableEq α] (d : Nat → α) : Tab α → Nat → α → Tab α
  | [], k, v => if v = d k then [] else [(k, v)]
  | (k', v') :: t, k, v =>
    if k < k' then (if v = d k then (k', v') :: t else (k, v) :: (k', v') :: t)
    else if k = k' then (if v = d k then tabAfter t k else (k, v) :: t)
    else (k', v') :: tabPut d t k v

/-- Every key of the table lies above `lo`, keys rise, and no entry equals its default. -/
def tabWfAbove {α : Type} [DecidableEq α] (d : Nat → α) : (lo : Nat) → Tab α → Bool
  | _, [] => true
  | lo, (k, v) :: t => decide (lo ≤ k) && decide (v ≠ d k) && tabWfAbove d (k + 1) t

/-- The canonical form of a table. -/
def tabWf {α : Type} [DecidableEq α] (d : Nat → α) (t : Tab α) : Bool := tabWfAbove d 0 t

/-- The keys of a table within a range, rising. -/
def tabKeys {α : Type} (t : Tab α) (lo hi : Nat) : List Nat :=
  t.filterMap fun e => if lo ≤ e.1 ∧ e.1 < hi then some e.1 else none

/-- `f` applied for 0 to n − 1 in ascending order. -/
def forN {σ : Type} (n : Nat) (f : Nat → σ → σ) (s : σ) : σ := (List.range n).foldl (fun s i => f i s) s

/-- `f` applied for each element in order. -/
def forL {α σ : Type} (l : List α) (f : α → σ → σ) (s : σ) : σ := l.foldl (fun s a => f a s) s

/-- Insertion into a list sorted by a key, after equal keys. -/
def insertBy {α : Type} (key : α → Nat) (a : α) : List α → List α
  | [] => [a]
  | b :: l => if key a < key b then a :: b :: l else b :: insertBy key a l

/-- A list sorted by a key; equal keys keep their order. -/
def sortBy {α : Type} (key : α → Nat) (l : List α) : List α :=
  l.foldl (fun acc a => insertBy key a acc) []

/-- The numbers n with bit n of `w` set, below 32. -/
def bitsSet (w : W32) : List Nat := (List.range 32).filter fun i => bit w i

end Sys2Proof.Machine
end

