-- ==== Sys2Proof/Machine/F32.lean ====
section
/-!
DEFINITION. f32 arithmetic as the module evaluates it (R44 to R47, R88 to R91): exact evaluation, truncation toward
zero to a 24-bit significand, subnormals flushed, saturation by the S bit. Every function answers the result word and
whether FINV is raised.
-/
namespace Sys2Proof.Machine

/-- The canonical NaN (R44). -/
def canonNaN : W32 := 0x7FC00000#32
/-- The largest finite magnitude. -/
def maxFinite : W32 := 0x7F7FFFFF#32

def f32Sign (a : W32) : Bool := bit a 31
def f32Exp (a : W32) : Nat := fld a 30 23
def f32Frac (a : W32) : Nat := fld a 22 0
def isNaN32 (a : W32) : Bool := f32Exp a == 255 && f32Frac a != 0
def isInf32 (a : W32) : Bool := f32Exp a == 255 && f32Frac a == 0
/-- Zero, after flushing (R44 step 1). -/
def isZero32 (a : W32) : Bool := f32Exp a == 0

/-- The word with a sign and the magnitude bits of `m`. -/
def withSign (neg : Bool) (m : W32) : W32 := setBit m 31 neg
def zero32 (neg : Bool) : W32 := withSign neg 0
def inf32 (neg : Bool) : W32 := withSign neg 0x7F800000#32
def max32 (neg : Bool) : W32 := withSign neg maxFinite

/-- Subnormals become zero of the same sign (R44); with S, infinities become the largest finite value (R45). -/
def prep32 (sat : Bool) (a : W32) : W32 :=
  if f32Exp a == 0 then zero32 (f32Sign a) else if sat && isInf32 a then max32 (f32Sign a) else a

/-- A finite value as a signed significand: the value is `sig × 2^exp`. -/
def sigOf (a : W32) : Int :=
  if f32Exp a == 0 then 0
  else let m : Int := (f32Frac a + 2 ^ 23 : Nat); if f32Sign a then -m else m
def expOf (a : W32) : Int := (f32Exp a : Int) - 150

/-- Truncation of `±m × 2^e`, with `m` not zero, to a 24-bit significand (R44 step 5). -/
def truncMag (neg : Bool) (m : Nat) (e : Int) : W32 :=
  let l := Nat.log2 m
  let x : Int := (l : Int) + e
  if x ≥ 128 then max32 neg
  else if x < -126 then zero32 neg
  else
    let sig := if l ≥ 23 then m >>> (l - 23) else m <<< (23 - l)
    withSign neg (BitVec.ofNat 32 (((x + 127).toNat <<< 23) + (sig - 2 ^ 23)))

/-- Truncation of the exact value `m × 2^e`; an exact zero gives `z`. -/
def trunc32 (z : W32) (m : Int) (e : Int) : W32 :=
  if m = 0 then z else truncMag (decide (m < 0)) m.natAbs e

/-- The result of an invalid operation or of a NaN operand (R44, R45). -/
def invalid32 (sat : Bool) : W32 × Bool := (if sat then 0 else canonNaN, true)

/-- `m1 × 2^e1 + m2 × 2^e2` as one significand over the smaller exponent. -/
def sumExact (m1 e1 m2 e2 : Int) : Int × Int :=
  let e := min e1 e2
  (m1 * 2 ^ (e1 - e).toNat + m2 * 2 ^ (e2 - e).toNat, e)

/-- a + b (R44, R45, R88). -/
def fadd (sat : Bool) (a0 b0 : W32) : W32 × Bool :=
  let a := prep32 sat a0
  let b := prep32 sat b0
  if isNaN32 a || isNaN32 b || (isInf32 a && isInf32 b && f32Sign a != f32Sign b) then invalid32 sat
  else if isInf32 a then (a, false)
  else if isInf32 b then (b, false)
  else
    let x := sumExact (sigOf a) (expOf a) (sigOf b) (expOf b)
    (trunc32 (if f32Sign a != f32Sign b then 0 else if sigOf a = 0 then a else 0) x.1 x.2, false)

/-- The word with its sign inverted (R89: FNEG). -/
def fneg (a : W32) : W32 := a ^^^ 0x80000000#32
/-- The word with its sign cleared (R89: FABS). -/
def fabs (a : W32) : W32 := a &&& 0x7FFFFFFF#32

/-- a − b. -/
def fsub (sat : Bool) (a b : W32) : W32 × Bool := fadd sat a (fneg b)

/-- a × b. -/
def fmul (sat : Bool) (a0 b0 : W32) : W32 × Bool :=
  let a := prep32 sat a0
  let b := prep32 sat b0
  let neg := f32Sign a != f32Sign b
  if isNaN32 a || isNaN32 b || (isInf32 a && isZero32 b) || (isZero32 a && isInf32 b) then invalid32 sat
  else if isInf32 a || isInf32 b then (inf32 neg, false)
  else (trunc32 (zero32 neg) (sigOf a * sigOf b) (expOf a + expOf b), false)

/-- a / b. -/
def fdiv (sat : Bool) (a0 b0 : W32) : W32 × Bool :=
  let a := prep32 sat a0
  let b := prep32 sat b0
  let neg := f32Sign a != f32Sign b
  if isNaN32 a || isNaN32 b || (isInf32 a && isInf32 b) || (isZero32 a && isZero32 b) then invalid32 sat
  else if isInf32 a then (inf32 neg, false)
  else if isZero32 b then (if sat then max32 neg else inf32 neg, false)
  else if isInf32 b || isZero32 a then (zero32 neg, false)
  else (truncMag neg (((sigOf a).natAbs <<< 26) / (sigOf b).natAbs) (expOf a - expOf b - 26), false)

/-- The integer square root, by `n` result bits from the top. -/
def isqrtAux : (n : Nat) → (r m : Nat) → Nat
  | 0, r, _ => r
  | n + 1, r, m => isqrtAux n (if (r + 2 ^ n) * (r + 2 ^ n) ≤ m then r + 2 ^ n else r) m
/-- The largest number whose square is at most `m`. -/
def isqrt (m : Nat) : Nat := isqrtAux (Nat.log2 m / 2 + 1) 0 m

/-- √a; the square root of −0 is −0. -/
def fsqrt (sat : Bool) (a0 : W32) : W32 × Bool :=
  let a := prep32 sat a0
  if isNaN32 a || (f32Sign a && !isZero32 a) then invalid32 sat
  else if isZero32 a || isInf32 a then (a, false)
  else
    let e := expOf a
    let odd := (e % 2).toNat
    (truncMag false (isqrt ((sigOf a).natAbs <<< (30 + odd))) ((e - odd - 30) / 2), false)

/-- d + a × b with one truncation (R88); `sub` negates the product. -/
def fmaWith (sub sat : Bool) (d0 a0 b0 : W32) : W32 × Bool :=
  let d := prep32 sat d0
  let a := prep32 sat a0
  let b := if sub then fneg (prep32 sat b0) else prep32 sat b0
  let neg := f32Sign a != f32Sign b
  let pInf := isInf32 a || isInf32 b
  if isNaN32 d || isNaN32 a || isNaN32 b || (isInf32 a && isZero32 b) || (isZero32 a && isInf32 b)
      || (pInf && isInf32 d && neg != f32Sign d) then invalid32 sat
  else if isInf32 d then (d, false)
  else if pInf then (inf32 neg, false)
  else
    let x := sumExact (sigOf d) (expOf d) (sigOf a * sigOf b) (expOf a + expOf b)
    (trunc32 (zero32 (f32Sign d && neg)) x.1 x.2, false)

def fma (sat : Bool) (d a b : W32) : W32 × Bool := fmaWith false sat d a b
def fms (sat : Bool) (d a b : W32) : W32 × Bool := fmaWith true sat d a b

/-- The order of non-NaN values, as an integer key; −0 lies below +0 (R89). -/
def ordKey32 (a : W32) : Int := if f32Sign a then -((fabs a).toNat : Int) - 1 else (a.toNat : Int)

def fminmax (wantMax sat : Bool) (a0 b0 : W32) : W32 × Bool :=
  let a := prep32 sat a0
  let b := prep32 sat b0
  if isNaN32 a || isNaN32 b then invalid32 sat
  else (if (decide (ordKey32 a < ordKey32 b)) != wantMax then a else b, false)

def fmin (sat : Bool) (a b : W32) : W32 × Bool := fminmax false sat a b
def fmax (sat : Bool) (a b : W32) : W32 × Bool := fminmax true sat a b

/-- The comparable value of a non-NaN operand after flushing: −0 and +0 agree (R89). -/
def cmpKey32 (a : W32) : Int :=
  if isZero32 a then 0 else if f32Sign a then -((fabs a).toNat : Int) else (a.toNat : Int)

/-- A compare: all ones if `p` holds of the two keys, false with FINV on a NaN (R89). -/
def fcmp (p : Int → Int → Bool) (a b : W32) : W32 × Bool :=
  if isNaN32 a || isNaN32 b then (0, true)
  else (if p (cmpKey32 a) (cmpKey32 b) then 0xFFFFFFFF#32 else 0, false)

/-- `a < b` and `a ≤ b` and `a = b` of non-NaN values. -/
def f32Lt (a b : W32) : Bool := decide (cmpKey32 a < cmpKey32 b)
def f32Le (a b : W32) : Bool := decide (cmpKey32 a ≤ cmpKey32 b)
/-- The compares of R89, both false with a NaN operand. -/
def f32CmpLt (a b : W32) : Bool := !isNaN32 a && !isNaN32 b && f32Lt a b
def f32CmpLe (a b : W32) : Bool := !isNaN32 a && !isNaN32 b && f32Le a b

/-- A finite value truncated toward zero to an integer. -/
def f32ToInt (a : W32) : Int :=
  let m := (sigOf a).natAbs
  let e := expOf a
  let q := if e ≥ 0 then m <<< e.toNat else m >>> (-e).toNat
  if f32Sign a then -(q : Int) else (q : Int)

/-- f32 to a signed 32-bit integer (R46, R90): result, FINV, ISAT. -/
def fcvtws (sat : Bool) (a : W32) : W32 × Bool × Bool :=
  if isNaN32 a then (if sat then 0 else 0x80000000#32, true, false)
  else
    let out : Bool × Int := if isInf32 a then (true, if f32Sign a then -1 else 1)
      else let i := f32ToInt a; (decide (i < -(2 ^ 31 : Int) ∨ i > 2 ^ 31 - 1), i)
    if out.1 then
      if sat then (if out.2 < 0 then 0x80000000#32 else 0x7FFFFFFF#32, false, true)
      else (0x80000000#32, true, false)
    else (BitVec.ofInt 32 out.2, false, false)

/-- An integer to f32: exact, then truncated toward zero (R90). -/
def intToF32 (i : Int) : W32 := trunc32 0 i 0
def fcvtsw (a : W32) : W32 := intToF32 a.toInt

/-- The value of a finite f32 scaled by 2^k, rounded toward minus infinity: a fixed-point number. -/
def f32Fix (k : Nat) (a : W32) : Int :=
  let e := expOf a + k
  if e ≥ 0 then sigOf a * 2 ^ e.toNat else sigOf a / 2 ^ (-e).toNat

/-- The value of a finite f32 scaled by 2^k, truncated toward zero. -/
def f32FixZ (k : Nat) (a : W32) : Int :=
  let e := expOf a + k
  if e ≥ 0 then sigOf a * 2 ^ e.toNat else (sigOf a).tdiv (2 ^ (-e).toNat)

/-- The quotient of two integers, truncated toward zero to f32. (Model: DEDUCED, log 39) -/
def ratToF32 (num : Int) (den : Nat) : W32 :=
  if num = 0 || den = 0 then 0 else truncMag (decide (num < 0)) ((num.natAbs <<< 80) / den) (-80)

/-! ## Q24.40 (R135) and the operations of the engines, which run with S set -/

/-- to_f: q × 2^-40 truncated to f32. -/
def toF (q : Int) : W32 := trunc32 0 q (-40)
/-- to_q: f × 2^40 truncated toward zero and clamped to the signed 64-bit range. (Model: DEDUCED, log 93) -/
def toQ (f : W32) : Int := clampI (-(2 ^ 63 : Int)) (2 ^ 63 - 1) (f32FixZ 40 (prep32 true f))
/-- A Q24.40 sum wraps modulo 2^64. -/
def wrapQ (i : Int) : Int := signed 64 (wrapN 64 i)

def ea (a b : W32) : W32 := (fadd true a b).1
def es (a b : W32) : W32 := (fsub true a b).1
def em (a b : W32) : W32 := (fmul true a b).1
def ed (a b : W32) : W32 := (fdiv true a b).1
def f32One : W32 := 0x3F800000#32
def f32Half : W32 := 0x3F000000#32

end Sys2Proof.Machine
end

