-- ==== Sys2Proof/Machine/Crc.lean ====
section
/-!
DEFINITION. The checksums of the spec: CRC-32C (R416) and the safety CRC (R292).
-/
namespace Sys2Proof.Machine

/-- One shift step of a reflected CRC. -/
def crcStep (poly c : Nat) : Nat := if c % 2 = 1 then (c / 2) ^^^ poly else c / 2

/-- One byte into a reflected CRC. -/
def crcByte (poly c : Nat) (b : Byte) : Nat :=
  let x := c ^^^ b.toNat
  crcStep poly (crcStep poly (crcStep poly (crcStep poly (crcStep poly (crcStep poly (crcStep poly
    (crcStep poly x)))))))

/-- The reflected CRC of a byte list, initial value and final XOR all ones. -/
def crcRefl (poly : Nat) (bs : List Byte) : Nat := (bs.foldl (crcByte poly) 0xFFFFFFFF) ^^^ 0xFFFFFFFF

/-- The safety CRC (R292). -/
def crcSafety (bs : List Byte) : Nat := crcRefl 0xC8DF352F bs

/-- CRC-32C (R416). -/
def crc32c (bs : List Byte) : Nat := crcRefl 0x82F63B78 bs

end Sys2Proof.Machine
end

