-- ==== Sys2Proof/Machine/State.lean ====
section
/-!
DEFINITION. The state of one KY96 module as plain data. The register space is one sparse table of 32-bit
words (R468, R470); beside it stand the states of the units that the prose of the spec gives and no register
map holds: pods, scheduler stores, engine channels, the safety core, the Husk, ring, time and host queues.
The Husk and the safety core stand apart from the rest of the chip, as R8 and the safety chapter place them.
-/
namespace Sys2Proof.Machine

/-! ## Pods (R41) -/

/-- One address generator (R62). -/
structure AddrGen where
  base : BitVec 40
  len  : BitVec 24
  ptr  : BitVec 24
  step : BitVec 24
  deriving DecidableEq, Repr

/-- One open repeat level: iterations not yet completed, first and last body instruction (R64 to R67). -/
structure RepLevel where
  cnt   : Nat
  first : BitVec 16
  last  : BitVec 16
  deriving DecidableEq, Repr

/-- A sprout: its creation number, task, copied flags, and the item it stands for in an ordered flow
(R109, R111, R121). -/
structure Sprout where
  id    : Nat
  task  : Nat
  tb    : Bool
  flags : W32
  /-- Ordered flow and sequence number. -/
  item  : Option (Nat × Nat)
  /-- Atomic flow the task was bound to at creation. -/
  aflow : Option Nat
  /-- Home queue at creation. -/
  queue : Nat
  deriving DecidableEq, Repr

/-- One occupied sprout slot of a pod (R76, R77). -/
structure Slot where
  sprout : Sprout
  /-- Dispatch order: GET takes the smallest untaken. -/
  order  : Nat
  taken  : Bool
  /-- Taking order: ESPROUT names the largest (R74). -/
  takenAt : Nat
  /-- A DONE naming the slot has issued (R77). -/
  doneIssued : Bool
  deriving DecidableEq, Repr

/-- The pod states of POD_STAT.STATE (R77 map). -/
inductive PodState where
  | halted
  | running
  | sleeping
  | handler
  | doubleTrap
  deriving DecidableEq, Repr

/-- Kinds of a pod load (R94). -/
inductive LoadKind where
  | sext (bytes : Nat)
  | zext (bytes : Nat)
  | vec
  deriving DecidableEq, Repr

/-- The other access of the paired instruction of an outstanding load (R96), while it waits for this one or this one
for it: none, the next or the previous outstanding load (LDVV), a store to the own memories with what the check of its
line finds, or a held store of the buffer (LDSTV). -/
inductive Mate where
  | alone
  | next
  | prev
  | localStore (addr : Nat) (bytes : List Byte) (chk : LineCheck)
  | bufStore
  deriving DecidableEq, Repr

/-- An outstanding fabric load (R58): destination register, address, kind, the pc of the load, how many stores of the
buffer were issued before it (R472), the pointers it moved, as they were before it (R68), and the repeat levels that
apply to the load (R69). -/
structure FabLoad where
  rt   : Nat
  addr : Nat
  kind : LoadKind
  pc   : BitVec 16
  behind : Nat
  undo : List (Nat × BitVec 24)
  levels : List RepLevel
  mate : Mate := .alone
  /-- A vector register and the bytes that the other load of its instruction gave, written with this one (R68, R96). -/
  keep : Option (Nat × List Byte) := none
  deriving DecidableEq, Repr

/-- An entry of the store buffer (R60): a store of bytes at an address, or a DWR transfer (R106). `held` marks the store
of an LDSTV whose load is outstanding. -/
structure FabStore where
  addr  : Nat
  bytes : List Byte
  dwr   : Bool
  held  : Bool := false
  deriving DecidableEq, Repr

/-- An operation on its way from a pod to the scheduler (R101). -/
inductive SchedOp where
  | post (task : Nat) (mask : W32)
  | cancel (task : Nat) (mask : W32)
  | evt (n : Nat)
  /-- `behind` counts the stores of the buffer that its implied FENCE still waits for (R61). -/
  | done (slot : Nat) (outcome : W32) (behind : Nat)
  deriving DecidableEq, Repr

/-- One pod (R41, R52, R76 to R79). -/
structure Pod where
  pc      : BitVec 16
  /-- Scalar registers; s0 has no entry. -/
  sreg    : Tab W64
  vreg    : Tab W128
  acc     : Tab W80
  ag      : Tab AddrGen
  /-- Open repeat levels, outermost first; at most four. -/
  levels  : List RepLevel
  /-- Body bounds saved at trap entry (R69, hidden state). -/
  bounds  : List (BitVec 16 × BitVec 16)
  pstat   : W64
  trapen  : W64
  epc     : W64
  ecause  : W64
  eaddr   : W64
  erep    : W64
  esprout : W64
  agstat  : W64
  /-- The pod left halt at least once since reset: CYCLE counts (R52). -/
  started : Bool
  /-- CYCLE (R52), as it last was read or as it stood when RUN last halted the pod. -/
  cyc     : W64
  state   : PodState
  /-- POD_CTRL.RUN as written. -/
  run     : Bool
  /-- LAST_CAUSE of POD_STAT. -/
  lastCause : Nat
  slots   : Tab (Option Slot)
  /-- Numbers dispatches and takings of this pod. -/
  stamp   : Nat
  accept  : W64
  /-- Destination register of the GET the pod sleeps in, and the slot whose sprout ends that sleep (R117). -/
  getRd   : Nat
  waking  : Option Nat
  loads   : List FabLoad
  stores  : List FabStore
  /-- The four-entry queue to the scheduler (R101). -/
  toSched : List SchedOp
  /-- A tick-overrun trap held pending, with ESPROUT's value (R73). -/
  pendOverrun : Option W64
  /-- A flag trap held pending, with its ECAUSE fields (R73). -/
  pendFlag : Option W64
  /-- RESTART was written and waits for issued operations (R77). -/
  pendRestart : Bool
  deriving DecidableEq, Repr

/-- A pod right after reset (R79). -/
def Pod.reset : Pod :=
  { pc := 0, sreg := [], vreg := [], acc := [], ag := [], levels := [], bounds := [], pstat := 0, trapen := 0,
    epc := 0, ecause := 0, eaddr := 0, erep := 0, esprout := 0, agstat := 0, started := false, cyc := 0, state := .halted,
    run := false, lastCause := 0, slots := [], stamp := 0, accept := 0, getRd := 0, waking := none, loads := [], stores := [],
    toSched := [], pendOverrun := none, pendFlag := none, pendRestart := false }

/-! ## Scheduler (R109 to R131) -/

/-- What reached the scheduler since its last cycle (R114). -/
inductive Arrival where
  | source (n : Nat)
  | post (task : Nat) (mask : W32)
  deriving DecidableEq, Repr

/-- An entry of the reorder store (R121, R122). -/
structure Item where
  flow      : Nat
  seq       : Nat
  complete  : Bool
  outcome   : W32
  cancelled : Bool
  deriving DecidableEq, Repr

/-- A tick-bound task of the plan in force (R123, R128). -/
structure TbTask where
  task    : Nat
  release : Nat
  divisor : Nat
  phase   : Nat
  shed    : Nat
  pred    : Nat
  scope   : Nat
  /-- Worst-case execution times in ns at pod clock steps 0 to 4. -/
  wcet    : List Nat
  deriving DecidableEq, Repr

/-- A publish buffer of the plan (R125): `published` names the half last published. -/
structure PubBuf where
  buf   : Nat
  owner : Nat
  size  : Nat
  half0 : Nat
  half1 : Nat
  published : Bool
  deriving DecidableEq, Repr

/-- A shed level of the plan (R128): threshold and 80 makespans, step-major. -/
structure ShedLevel where
  threshold : Nat
  makespan  : List Nat
  deriving DecidableEq, Repr

/-- The tick plan in force. -/
structure Plan where
  /-- The CRC of its image. -/
  crc    : Nat
  tick   : List Nat
  tasks  : List TbTask
  bufs   : List PubBuf
  levels : List ShedLevel
  deriving DecidableEq, Repr

/-- Where the current instance of a tick-bound task stands (R123, R124, R29). -/
inductive TbStand where
  | notDue
  | due
  | released
  | doneOnTime
  | cancelled
  | shed
  | overrun
  deriving DecidableEq, Repr

/-- Run state of a tick-bound task: where its instance stands, and whether its previous counting instance
overran (R28, R29). -/
structure TbRun where
  stand : TbStand
  prevOver : Bool
  deriving DecidableEq, Repr

/-- The scheduler's stores beside its registers. -/
structure Sched where
  arrivals : List Arrival
  /-- Flag settings carried over, each a task and its bits (R114). -/
  carry    : List (Nat × W32)
  cancels  : List (Nat × W32)
  /-- DONEs received: pod, slot, outcome. -/
  dones    : List (Nat × Nat × W32)
  queues   : Tab (List Sprout)
  /-- Sprouts waiting in atomic flows. -/
  waiting  : Tab (List Sprout)
  /-- Task of the sprout past each busy atomic flow, with the sprout's number. -/
  holders  : Tab (Option (Nat × Nat))
  items    : List Item
  /-- Next sequence number of each ordered flow. -/
  nextSeq  : Tab Nat
  nextId   : Nat
  credit   : Tab Nat
  wrrPtr   : Nat
  plan     : Option Plan
  tb       : Tab TbRun
  /-- Flag settings of notifies for step 1 of the next cycle (R122). -/
  nextFlags : List (Nat × W32)
  /-- Chained tasks that step 1 of the next cycle releases (R123). -/
  nextRel : List Nat
  deriving DecidableEq, Repr, Inhabited

/-- The scheduler right after reset. (Model: DESIGN CHOICE, log 10) -/
def Sched.reset : Sched :=
  { arrivals := [], carry := [], cancels := [], dones := [], queues := [], waiting := [], holders := [], items := [],
    nextSeq := [], nextId := 0, credit := [], wrrPtr := 16, plan := none, tb := [], nextFlags := [], nextRel := [] }

/-! ## Memory integrity (R413 to R432) -/

/-- The condition of a 64-byte line (R421 to R429). A line without an entry is good. -/
structure Line where
  poisoned : Bool
  pending  : Bool
  refetch  : Bool
  /-- An image-copy line written through R419: it has no source. -/
  noSource : Bool
  deriving DecidableEq, Repr

/-- A good line. (Model: DESIGN CHOICE, log 11) -/
def Line.good : Line := { poisoned := false, pending := false, refetch := false, noSource := false }

/-- An entry of the correction log (R427): line, count, TB3 time in ns of the first correction. -/
structure CorrEntry where
  line  : Nat
  count : Nat
  first : Nat
  deriving DecidableEq, Repr

/-- A store that waits for the end of a line's handling (R423). -/
structure HeldStore where
  line   : Nat
  master : Nat
  addr   : Nat
  bytes  : List Byte
  deriving DecidableEq, Repr

/-- The memory-integrity state beside its registers. -/
structure MemInt where
  lines   : Tab Line
  log     : List CorrEntry
  /-- Lines whose correction write-back has not completed (R421, R423), with the requester's KIND. -/
  handling : List Nat
  /-- Stores that wait for such a correction, in order (R423). -/
  held    : List HeldStore
  /-- The scrubber's next line, counted over the protected lines (R430). -/
  scrubAt : Nat
  /-- The period the running pass uses. -/
  scrubPer : Nat
  deriving DecidableEq, Repr, Inhabited

/-- Memory integrity right after reset. (Model: DESIGN CHOICE, log 10) -/
def MemInt.reset : MemInt := { lines := [], log := [], handling := [], held := [], scrubAt := 0, scrubPer := 10 }

/-! ## Time unit (R365 to R381) -/

/-- One time base. -/
structure TimeBase where
  /-- The time in units of 2^-44 ns (R366). -/
  val   : Nat
  /-- The servo's integral term and rate word, in units of 2^-44 (R369). -/
  integ : Int
  rate  : Int
  /-- What a running slew still has to move, in units of 2^-44 ns (R370). -/
  slewLeft : Int
  /-- TB3 time in ns of the last offset sample (R371). -/
  since : Nat
  deriving DecidableEq, Repr

/-- A compare request held by a triggered output (R377): TB0 time in 2^-16 ns, and width. -/
structure PulseReq where
  tc    : Nat
  width : Nat
  deriving DecidableEq, Repr

/-- The captured settings and progress of a triggered output (R374 to R377). Times in 2^-16 ns. -/
structure Trig where
  start  : Nat
  period : Nat
  width  : Nat
  count  : Nat
  /-- The next instance, and how many have fired or been passed. -/
  next   : Nat
  done   : Nat
  /-- TB3 cycle at which the pulse ends. -/
  endAt  : Nat
  reqs   : List PulseReq
  deriving DecidableEq, Repr

/-- An entry of a capture FIFO (R378): stamp in 2^-16 ns and the level after the edge. -/
structure CapEntry where
  stamp : Nat
  level : Bool
  deriving DecidableEq, Repr

/-- The time unit beside its registers. -/
structure TimeUnit where
  bases : Tab TimeBase
  trigs : Tab Trig
  caps  : Tab (List CapEntry)
  /-- Ring correction still to be slewed into TB0 and its amount per cycle, in 2^-44 ns (R348). -/
  ringLeft : Int
  ringStep : Int
  deriving DecidableEq, Repr, Inhabited

/-- The time unit after reset. (Model: DESIGN CHOICE, log 10) -/
def TimeUnit.reset : TimeUnit := { bases := [], trigs := [], caps := [], ringLeft := 0, ringStep := 0 }

/-! ## Host interface (R479 to R484) -/

/-- A commit held in the commit store (R479): its tick and its writes in list order. -/
structure Commit where
  tick    : Nat
  entries : List (Nat × W32)
  deriving DecidableEq, Repr

/-- The host interface beside its registers. -/
structure HostIf where
  /-- A list copy that runs: source address, entries, tick. -/
  copying : Option (Nat × Nat × Nat)
  commits : List Commit
  /-- TB3 time in ns of each vector's last message. -/
  lastMsg : Tab (Option Nat)
  /-- The channel the round robin serves next. -/
  dmaNext : Nat
  /-- MADDR, LEN and DIR of each channel as its GO took them (R473). -/
  dmaJob  : Tab (Nat × Nat × Bool)
  /-- What the host has written in the configuration space (R475). -/
  pci     : PciSpace
  /-- The tick at which commits were last applied (R480). -/
  applied : Option Nat
  deriving DecidableEq, Repr, Inhabited

/-- The host interface after reset. (Model: DESIGN CHOICE, log 10) -/
def HostIf.reset : HostIf :=
  { copying := none, commits := [], lastMsg := [], dmaNext := 0, dmaJob := [], pci := PciSpace.reset, applied := none }



/-! ## Feedback unit (R132 to R160) -/

/-- A Hall edge between two t₀: its TB0 time at the pin in ns, the boundary it lies at in raw counts, the incremental
count at its time, and its boundary in sixths of an electrical turn (R141, R144, R148). -/
structure HallEdge where
  time  : Nat
  bound : Int
  inc   : Int
  sixth : Nat
  deriving DecidableEq, Repr

/-- A local channel (R138 to R141): pin levels, live count, and what is gathered since t₀ (`…Now`) or latched at t₀
(`…Tick`). -/
structure Lch where
  a : Bool
  b : Bool
  count : Int
  /-- Last valid Hall sector of the channel's own pins, 0 to 5. -/
  pin : Nat
  /-- The Hall sector of the channel's commutation: of its own pins in mode 1, of those of channel n + 8 in mode 2. -/
  sector : Nat
  errNow : Bool
  zNow : List Int
  hallNow : List HallEdge
  countTick : Int
  sectorTick : Nat
  errTick : Bool
  zTick : List Int
  hallTick : List HallEdge
  /-- TB0 time in ns of the last Z edge; count and time of the last Z edge and of the last Hall edge, as latched at t₀. -/
  zNowAt : Nat
  zRaw : Int
  zAt : Nat
  hallRaw : Int
  hallAt : Nat
  deriving DecidableEq, Repr

/-- An observer beside its record (R137, R148, R152, R504). -/
structure Obs where
  /-- Raw count and POS_LO of the last accepted record. -/
  raw   : Option (Int × Nat)
  seq   : Option Nat
  /-- Raw of the last sample neither lost nor frozen by SEQ, and the unchanged count. -/
  lastRaw : Option Int
  same  : Nat
  /-- The sample of that raw is frozen, and stays so while the raw does. -/
  frozen : Bool
  /-- A Hall edge has aligned the electrical angle; the effective offset of combined mode. -/
  aligned : Bool
  effOff : W32
  /-- POS at the end of the last feedback phase, for the divided outputs (R157). -/
  prevPos : Int
  /-- The observer was uninitialised when the last tick's evaluation began (R146). -/
  fresh : Bool
  /-- The held fault action is the one of FACT 1 (R153). -/
  fact : Bool
  deriving DecidableEq, Repr

/-- A divided output beside its registers (R156): remainder and output count. -/
structure DivOut where
  r    : Nat
  outc : Int
  deriving DecidableEq, Repr

/-- The feedback unit beside its registers. -/
structure Fbk where
  obs   : Tab Obs
  lch   : Tab Lch
  divs  : Tab DivOut
  /-- Descriptor writes that wait for the next feedback phase, each an offset and the words written from there on: one, or the
  sixteen of a descriptor written as a whole (R158). -/
  writes : List (Nat × List W32)
  /-- Clears that wait for the next feedback phase (R155). -/
  clears : List Nat
  /-- The sample records each port released in this tick (R312). -/
  released : Tab (List (List Byte))
  /-- TB0 in ns at the current and the previous t₀. -/
  t0     : Nat
  prevT0 : Nat
  deriving DecidableEq, Repr, Inhabited

def Fbk.reset : Fbk :=
  { obs := [], lch := [], divs := [], writes := [], clears := [], released := [], t0 := 0, prevT0 := 0 }

/-! ## Loop engine (R161 to R187) -/

/-- A loop slot beside its registers: full tick number of its last update, whether that update was at a limit, and the
tick from which a sampled swap is made (R169, R176, R177, R186). -/
structure LoopSlot where
  last    : Option Nat
  atLimit : Bool
  swapAt  : Option Nat
  deriving DecidableEq, Repr

/-- A hand-over of a mode set: outgoing alternative, tick n1 and tick F (R180). -/
structure ModeRun where
  out : Nat
  n1  : Nat
  f   : Nat
  deriving DecidableEq, Repr

/-- The loop engine beside its registers: swap and switch requests written since the last sampling, in order. -/
structure Lpe where
  slots    : Tab LoopSlot
  modes    : Tab ModeRun
  swaps    : List (Bool × List Nat)
  switches : List W32
  /-- Causes raised in the present phase, by group (R186). -/
  now      : Tab Nat
  deriving DecidableEq, Repr, Inhabited

def Lpe.reset : Lpe := { slots := [], modes := [], swaps := [], switches := [], now := [] }


/-! ## Profile engine (R188 to R239) -/

/-- One phase of a plan: its number, its jerk and its remaining time in Q24.40 seconds; none is unbounded
(R193 to R195). -/
structure Piece where
  num  : Nat
  jerk : W32
  left : Option Int
  deriving DecidableEq, Repr

/-- A plan: the phases still to run, the velocity at the end of phase 3, and the position at the end of phase 7. -/
structure ProfPlan where
  pieces : List Piece
  vEnd   : W32
  target : Option Int
  deriving DecidableEq, Repr

/-- A captured move (R199). -/
inductive Move where
  | pos (target : Int)
  | vel (v : W32)
  | tab (t : Nat)
  deriving DecidableEq, Repr

/-- A class B run: table, segment, σ and what R209 keeps for the next tick, the point of bank entry, the master's
previous position, and in an underrun allowance the ticks left and σ beyond the end (R207 to R212). -/
structure TabRun where
  table  : Nat
  seg    : Nat
  sigma  : Int
  debt   : Int
  entryP : Int
  entryV : W32
  sm     : Int
  past   : Option (Nat × Int)
  deriving DecidableEq, Repr

/-- A watched switch: raw level, length of its run in ticks, and the observer's POS in the run's first tick (R222). -/
structure Switch where
  level : Bool
  count : Nat
  start : Int
  deriving DecidableEq, Repr

/-- A homing run beside its registers (R225 to R231). -/
structure HomeRun where
  elapsed : Nat
  window  : Option Nat
  changes : Nat
  stall   : Nat
  /-- The raw count captured at a Z edge. -/
  zRaw    : Option Int
  /-- Δ of a completion, applied in the next tick (R229). -/
  delta   : Option Int
  deriving DecidableEq, Repr

/-- A profile channel beside its registers (R188 to R205). -/
structure Chan where
  p     : Int
  v     : W32
  a     : W32
  hold  : Int
  plan  : Option ProfPlan
  move  : Option Move
  armed : Option Move
  tab   : Option TabRun
  /-- The ramp of κ. -/
  kplan : Option ProfPlan
  /-- FACT of the fault action the channel holds. -/
  fact  : Bool
  /-- Limits changed, and κ goal written, since the last phase. -/
  limW  : Bool
  kapW  : Bool
  /-- The set-point computed in the present phase, published at its end (R188, R190). -/
  out   : Option (Int × W32 × W32)
  /-- Plan time gained since the first tick of the planning frame (R243). -/
  adv   : Int
  home  : HomeRun
  sw    : Tab Switch
  deriving DecidableEq, Repr

/-- A pending commit of a table: bank and AT (R210). -/
structure TabCommit where
  bank : Nat
  at1  : Bool
  deriving DecidableEq, Repr

/-- A compare unit beside its registers: LASTP with its tick, whether CMP is fresh, and the TB0 time in ns at which CMP
was formed (R214, R215). -/
structure CmpUnit where
  last   : Option (Nat × Int)
  fresh  : Bool
  formed : Nat
  deriving DecidableEq, Repr

/-- A stepper channel beside its registers (R232 to R235): the previous target count, ticks at rest, the pulses of the
next and of this tick as offsets in ns, and the levels of STs_STEP and STs_DIR with the level DIR takes next. -/
structure Stepper where
  prev    : Option Int
  rest    : Nat
  next    : List Nat
  now     : List Nat
  step    : Bool
  dir     : Bool
  dirNext : Bool
  deriving DecidableEq, Repr

/-- A command that waits for the next profile phase (R190). -/
inductive PrfCmd where
  | cmd (k : Nat) (word : W32)
  | fire (g : Nat)
  /-- The RESUME of a released arm (R261). -/
  | release (k : Nat)
  deriving DecidableEq, Repr

/-- The profile engine beside its registers. -/
structure Prf where
  chans  : Tab Chan
  tabs   : Tab (Option TabCommit)
  /-- The address of bank `b` of table `t`, at key 2t + b, as its last COMMIT took it (R473). -/
  banks  : Tab Nat
  cmps   : Tab CmpUnit
  steps  : Tab Stepper
  /-- Writes that wait for the next profile phase, with the TB0 time in ns of each. -/
  writes : List (Nat × W32 × Nat)
  cmds   : List PrfCmd
  /-- FIRE_TICK of each pending group fire. -/
  fireAt : Tab (Option Nat)
  /-- Causes raised in the present phase, by group. -/
  now    : Tab Nat
  deriving DecidableEq, Repr, Inhabited

def Prf.reset : Prf :=
  { chans := [], tabs := [], banks := [], cmps := [], steps := [], writes := [], cmds := [], fireAt := [], now := [] }

/-! ## Bilern star (R308 to R332) -/

/-- A star port beside its registers: what it saw in this tick (R318), the events it owes (R331), the accepted frame's
bytes without SOF, FCRC and EOF, the payload assembled for the downlink, and the frame it last sent (R314, R315). -/
structure Port where
  sof     : Bool
  acc     : Bool
  viol    : Bool
  lastO   : Int
  frame   : List Byte
  moved   : Bool
  warned  : Bool
  payload : Option (Nat × Bool × Nat × List Byte)
  sent    : List Byte
  deriving DecidableEq, Repr

/-- The star beside its registers: ports, the safety messages released since the safety core's last snapshot with
their ticks (R285, R312), and the track records released in this tick (R312). -/
structure Star where
  ports  : Tab Port
  safe   : Tab (List (Nat × List Byte))
  tracks : Tab (List (List Byte))
  deriving DecidableEq, Repr, Inhabited

def Star.reset : Star := { ports := [], safe := [], tracks := [] }

/-! ## Cascade ring (R333 to R352) -/

/-- A frame that a station forwards (R334, R339): the port by which it leaves, the time at which it leaves in 1/16 ns after t₀,
its bytes, and whether it is whole or ends in an error terminate block. -/
structure RingFwd where
  east  : Bool
  start : Nat
  bytes : List Byte
  whole : Bool
  deriving DecidableEq, Repr

/-- A ring station beside its registers (R335 to R352). -/
structure Ring where
  /-- The last peer-delay exchanges of RING_W and RING_E, newest first, at most eight, in 1/16 ns. -/
  delaysW : List Nat
  delaysE : List Nat
  /-- o_s of the status frames accepted in this tick, and whether by the primary copy. -/
  offs    : Tab (Option (Int × Bool))
  /-- Stations with an accepted status frame in this cycle. -/
  heard   : List Nat
  /-- LINK byte of each station's last accepted header; the loops in force for the windows, taken from it at a tick
  boundary; LINKOK bits shown by each station in this cycle (R352). -/
  shown   : Tab Nat
  links   : Tab Nat
  okSeen  : Tab Nat
  /-- What the last check of the mode in use found (R340). -/
  fits    : Bool
  /-- Data slots, by position, port and copy, that carried a frame in this tick. -/
  dataSeen : List (Nat × Bool × Bool)
  /-- Stream intervals received in this cycle, and workspace-set intervals of this planning frame, by position. -/
  stream  : Tab (List (Nat × Nat))
  wsGot   : Tab (List (Nat × Nat))
  /-- The half of XDATA in force, by position. -/
  xhalf   : Tab Bool
  /-- XDATA copied at the start of the cycle, by the owner. -/
  xown    : List Byte
  /-- A mode request: the mode and the first cycle of its two; what this station answers. -/
  request : Option (Nat × Nat)
  answer  : Nat
  acked   : List Nat
  naked   : Bool
  /-- Consecutive cycles with |m| above RG/2, and with |m| at most RG/4; cycles in INTEG, left in EXCLUDED. -/
  far     : Nat
  near    : Nat
  inState : Nat
  /-- The next countdown value of a cold starter, none once that of 0 has passed; whether it watches its ports, and what its
  watch has seen. -/
  countdown : Option Nat
  watching  : Bool
  returned  : Bool
  collided  : Bool
  /-- TB3 time in ns at which the listen timer was started. -/
  listenFrom : Nat
  /-- TICK of the first header heard in LISTEN; the last countdown heard of an adopted cold start, and whether one came in this
  cycle. -/
  firstHeard : Option Nat
  awaiting  : Option Nat
  coldSeen  : Bool
  /-- Ports that detected a fault are looped by CRN_STAT; links error-free for 1 ms. -/
  okE     : Bool
  okW     : Bool
  /-- A slew of the adopted offset still runs; a mismatch keeps the station in LISTEN until a module reset (R345 item 3). -/
  adopting : Bool
  mm       : Bool
  /-- Events of the tick already fired (R363). -/
  fired   : List Nat
  /-- The copies of the last frame this station sent, each with whether it left by RING_E; the last frame it forwarded. -/
  sent    : List (Bool × List Byte)
  fwd     : Option RingFwd
  deriving DecidableEq, Repr, Inhabited

def Ring.reset : Ring :=
  { delaysW := [], delaysE := [], offs := [], heard := [], shown := [], links := [], okSeen := [], fits := false, dataSeen := [], stream := [], wsGot := [],
    xhalf := [], xown := [], request := none, answer := 0, acked := [], naked := false, far := 0, near := 0, inState := 0,
    countdown := none, watching := false, returned := false, collided := false, listenFrom := 0, firstHeard := none, awaiting := none,
    coldSeen := false, okE := false, okW := false, adopting := false, mm := false, fired := [], sent := [], fwd := none }

/-! ## Twin pairs (R353 to R362) -/

/-- What a joiner logs of one tick (R360): its tick, the frames its ports released under both masks by port, the
owner's flash, the stream intervals of ring frames by position and offset, and the writes of host commits. -/
structure JoinTick where
  tick    : Nat
  frames  : List (Nat × List Byte)
  flash   : List Byte
  ring    : List (Nat × Nat × List Byte)
  commits : List (Nat × W32)
  deriving DecidableEq, Repr

/-- The inputs of one tick and the bookkeeping that live and replayed ticks each keep for themselves (R360): TB0 at t₀ of this tick
and the last, local channels, released records, tracks, safety messages, stream intervals, channel values used in the previous tick,
and the DIO levels of the owner's record. -/
structure TickInputs where
  t0       : Nat
  prevT0   : Nat
  lch      : Tab Lch
  released : Tab (List (List Byte))
  tracks   : Tab (List (List Byte))
  safe     : Tab (List (Nat × List Byte))
  stream   : Tab (List (Nat × Nat))
  lchPrev  : Tab (Int × Nat)
  dio      : Option W32
  deriving DecidableEq, Repr, Inhabited

/-- No inputs. -/
def TickInputs.none : TickInputs :=
  { t0 := 0, prevT0 := 0, lch := [], released := [], tracks := [], safe := [], stream := [], lchPrev := [], dio := Option.none }

/-- A twin beside its registers. -/
structure Twin where
  /-- Own heartbeat; ticks without the owner's heartbeat, and whether one came in this tick. -/
  hb       : Nat
  hbMiss   : Nat
  hbNow    : Bool
  /-- The partner's flash of this tick, its last TFLAGS and OWN_TICK, and its mask of this tick. -/
  flash    : Option (List Byte)
  pflags   : Nat
  pOwnTick : Nat
  /-- Bits [31:0] of the tick at which this twin last became owner (R354). -/
  ownTick  : Nat
  pmask    : Option W32
  /-- The owner's record and mask are still due in this tick. -/
  recDue   : Bool
  maskDue  : Bool
  /-- Raw counts and sectors of the local channels as used in the previous tick. -/
  lchPrev  : Tab (Int × Nat)
  /-- DIO levels of the owner's record for this tick (R354). -/
  dio      : Option W32
  /-- Output digest of the previous tick, and its STF. -/
  digest   : Nat
  stfPrev  : Bool
  /-- Ownership changes at the next tick boundary to this value; a SWAP waits for the ring-cycle boundary. -/
  want     : Option Bool
  swap     : Bool
  /-- This twin declares FAULT; it yields in this tick's downlinks. -/
  fault    : Bool
  mm       : Bool
  /-- Ring cycles for which X has been eligible while Y owns; the return hand-shake (R359). -/
  eligFor  : Nat
  retq     : Bool
  reta     : Bool
  sawRetq  : Bool
  sawReta  : Bool
  /-- SEQ of the safety messages placed in the previous ring cycle, as the partner reports it (R358). -/
  pSeq     : Nat
  /-- Hot join (R360). Joiner: T_c, the image received so far, the log, the next tick to replay, whether the work of
  the tick before it is still open, and consecutive matches in all and live; ring intervals and commits of this live
  tick. Owner: T_c, the image and how much of it was sent. -/
  joining  : Bool
  joinAt   : Option Nat
  image    : List Byte
  imageAt  : Nat
  log      : List JoinTick
  replay   : Option Nat
  opened   : Bool
  /-- Where the log's next entry goes in its memory, as an offset from CRN_JLOG; the inputs of the replayed ticks. -/
  logAt    : Nat
  rep      : TickInputs
  gotRing  : List (Nat × Nat × List Byte)
  gotCommits : List (Nat × W32)
  matched  : Nat
  live     : Nat
  deriving DecidableEq, Repr, Inhabited

def Twin.reset : Twin :=
  { hb := 0, hbMiss := 0, hbNow := false, flash := none, pflags := 0, pOwnTick := 0, ownTick := 0, pmask := none, lchPrev := [], dio := none, recDue := false,
    maskDue := false, digest := 0, stfPrev := false, want := none, swap := false, fault := false, mm := false, eligFor := 0,
    retq := false, reta := false, sawRetq := false, sawReta := false, pSeq := 0, joining := false, joinAt := none,
    image := [], imageAt := 0, log := [], replay := none, opened := false, logAt := 0, rep := .none, gotRing := [], gotCommits := [],
    matched := 0, live := 0 }

/-! ## Separation engine (R240 to R265) -/

/-- A received track: its record and the tick at which it was sampled (R241). -/
structure Track where
  record : List Byte
  tick   : Nat
  deriving DecidableEq, Repr

/-- The separation engine beside its registers: tracks, the results of a check that still have to be announced and
applied (R262, R264), frames spent in protective stop by arm, and arms whose release the seal published (R261). -/
structure Sep where
  tracks  : Tab (Option Track)
  /-- A finished check not yet announced: SEP_RES by arm, event sources after 384, work units and rounds. -/
  result  : Option (List (Nat × List W32) × List Nat × Nat × Nat)
  /-- Goals, new stops and releases for the first tick of the next frame: arm, goal, stop, resume. -/
  apply   : List (Nat × W32 × Bool × Bool)
  stopped : Tab Nat
  published : List Nat
  /-- A remote set was not usable in this planning frame. -/
  viewMiss : Bool
  /-- Ticks of the last seal and of the last check. -/
  sealedAt  : Option Nat
  checkedAt : Option Nat
  deriving DecidableEq, Repr, Inhabited

def Sep.reset : Sep :=
  { tracks := [], result := none, apply := [], stopped := [], published := [], viewMiss := false, sealedAt := none,
    checkedAt := none }


/-! ## The Husk (R266 to R284) -/

/-- The states of an input pair (R273), in the order of SAF_PAIR.STATE. -/
inductive PairState where
  | run
  | demand
  | waitReset
  | fault
  | faultClr
  deriving DecidableEq, Repr

/-- An input pair: state, qualified levels, last fault, demands, and on an even two-hand pair the enabling sequence:
0 waits for both controls released, 1 both released, 2 the first actuated within 500 ms (R272). -/
structure HPair where
  state : PairState
  lvlA  : Bool
  lvlB  : Bool
  /-- Whether a level of SInA and of SInB has been qualified since the power-up of the Husk. -/
  qualA : Bool
  qualB : Bool
  fcode : Nat
  dmd   : Nat
  seq   : Nat
  deriving DecidableEq, Repr

/-- A safe output: closed by command, in a category 1 delay, locked out by an output fault, the core's enable and demand
as the Husk holds them, last fault, and the switch under test (true: the low side) (R276 to R280). -/
structure HOut where
  on    : Bool
  delay : Bool
  fault : Bool
  core  : Bool
  cstop : Bool
  fcode : Nat
  test  : Option Bool
  deriving DecidableEq, Repr

/-- The states of the reset machine (R282), in the order of SAF_STAT.RSTATE. -/
inductive RstState where
  | blocked
  | ready
  | pressed
  | held
  deriving DecidableEq, Repr

/-- The Husk. -/
structure Husk where
  /-- The Husk section in force, and the one pending (R299, R301); empty for none. -/
  set      : List Byte
  pend     : List Byte
  pairs    : Tab HPair
  outs     : Tab HOut
  rst      : RstState
  /-- SRST is qualified active. -/
  srst     : Bool
  held     : Nat
  /-- Lock-outs of every output: power-up, a new set, the core link (R281). -/
  lockPower : Bool
  lockSet  : Bool
  lockLink : Bool
  /-- Well-formed frames since the last core-link fault, up to 500, that is 1 ms. -/
  lsGood   : Nat
  csGood   : Nat
  internal : Bool
  /-- The safety supply is in range. -/
  supply   : Bool
  /-- What the next telegram carries: an accepted reset, a confirmation; its counter (R266, R283). -/
  sendReset : Bool
  confirm  : Bool
  counter  : Nat
  /-- Events of the next telegram (R307). -/
  evs      : List Nat
  deriving DecidableEq, Repr

/-- The Husk at power-up. (Model: DESIGN CHOICE, log 10) -/
def Husk.reset : Husk :=
  { set := [], pend := [], pairs := [], outs := [], rst := .blocked, srst := false, held := 0, lockPower := true,
    lockSet := false, lockLink := false, lsGood := 0, csGood := 0, internal := false, supply := true, sendReset := false,
    confirm := false, counter := 0, evs := [] }

/-! ## The safety core (R285 to R302) -/

/-- What the core keeps of a node record: the last SEQ accepted, consecutive lost cycles, whether a message ever came,
ABS, its positions, its tracks. -/
structure SNode where
  lastSeq : Option Nat
  lost    : Nat
  abs     : Bool
  pos     : List Int
  tracks  : List Byte
  deriving DecidableEq, Repr

/-- What the core keeps of a joint record: its position, the largest and smallest since the reference (R288), and the
consecutive cycles of SLS, SLP and SDI violation. -/
structure SJoint where
  p   : Option Int
  hi  : Option Int
  lo  : Option Int
  sls : Nat
  slp : Nat
  sdi : Nat
  deriving DecidableEq, Repr

/-- What the core keeps of a group record: the stop category in force, whether it releases itself, whether T1 runs,
whether OMASK is cut, consecutive cycles of SSM violation and of clearance, violations of the last cycle as SAF_GRP
[27:23], MIN_SEP and the sphere centres of the last cycle (2^-40 m). -/
structure SGroup where
  stop    : Option Nat
  auto    : Bool
  t1      : Bool
  cut     : Bool
  ssm     : Nat
  clear   : Nat
  viol    : Nat
  minSep  : Nat
  centres : List Int
  deriving DecidableEq, Repr

/-- The safety core. -/
structure SafetyCore where
  started  : Bool
  /-- The internal fault, which only a power-on reset ends (R291). -/
  fault    : Bool
  /-- The set in force, and the pending one (R301); empty for none. -/
  set      : List Byte
  pend     : List Byte
  awaiting : Bool
  /-- TB3 time in ns at which AWAIT_CONFIRM was entered. -/
  awaitAt  : Nat
  result   : Nat
  /-- SEQ of the messages in force, the SEQs sent, newest first, at most two, and HANDOVER with PSEQ (R293, R358). -/
  seq      : Nat
  sent     : List Nat
  handover : Option Nat
  /-- The twin whose ownership the last downlink's messages named. -/
  side     : Option Nat
  cycles   : Nat
  syncMiss : Nat
  missRun  : Nat
  goodRun  : Nat
  /-- Latched group stops of R291: sync fault and Husk-link fault. -/
  syncFault : Bool
  linkFault : Bool
  /-- An accepted reset that the next cycle applies. -/
  resetPend : Bool
  nodes    : Tab SNode
  joints   : Tab SJoint
  groups   : Tab SGroup
  /-- JCMD by port: in force in this ring cycle, and prepared for the next. -/
  cur      : Tab (List Byte)
  next     : Tab (List Byte)
  /-- Events of the next telegram (R307). -/
  evs      : List Nat
  deriving DecidableEq, Repr, Inhabited

/-- The safety core after reset. (Model: DESIGN CHOICE, log 10) -/
def SafetyCore.reset : SafetyCore :=
  { started := false, fault := false, set := [], pend := [], awaiting := false, awaitAt := 0, result := 0, seq := 0,
    sent := [], handover := none, side := none, cycles := 0, syncMiss := 0, missRun := 0, goodRun := 0,
    syncFault := false, linkFault := false, resetPend := false, nodes := [], joints := [], groups := [], cur := [],
    next := [], evs := [] }

/-! ## Health (R433 to R447) -/

/-- The health monitors beside their registers: evaluations in which the faster step had slack, the step and level that
wait for a tick divisible by 16, the committed shed level, hourly minima of S4 newest first with the minimum of the
present hour, ends of dips in TB3 ns, the last DIP_RATE, rails in a dip, whether non-volatile writes are inhibited, the
confirmation records that wait (R443), the refresh rate that waits, and sensors that were at or above TJ_WARN. -/
structure Hlt where
  hold    : Nat
  change  : Option (Nat × Nat)
  /-- The committed shed levels and their ticks (R440), oldest first. -/
  shed    : List (Nat × Nat)
  minima  : List Int
  hourMin : Option Int
  dips    : List Nat
  rateAt  : Option Nat
  dipping : List Nat
  /-- The TB3 time at which the last fall of a rail ended (R442). -/
  dipEnd  : Nat
  /-- The smallest value of each rail since the last read that cleared VMIN (R447). -/
  vmin    : Tab (Option Nat)
  inhibit : Bool
  nvWait  : List (Nat × Nat)
  refx    : Option Nat
  /-- S(4) of the last evaluation in 10^-3 ps, and whether a critical reaction is in force. -/
  s4      : Int
  crit    : Bool
  warm    : Bool
  /-- The sensors that read 125 °C or more, each with the TB3 time since which it does (R438). -/
  hot     : List (Nat × Nat)
  deriving DecidableEq, Repr, Inhabited

def Hlt.reset : Hlt :=
  { hold := 0, change := none, shed := [], minima := [], hourMin := none, dips := [], rateAt := none, dipping := [], dipEnd := 0, vmin := [],
    inhibit := false, nvWait := [], refx := none, s4 := 0, crit := false, warm := false, hot := [] }

/-! ## Plant port (R382 to R395) -/

/-- A frame in an egress queue: priority, bytes from the destination address without FCS, and for a transparent-clock
correction its base, ingress stamp in 2^-16 ns and added link delay (R385, R388). -/
structure EgrFrame where
  prio  : Nat
  bytes : List Byte
  fix   : Option (Nat × Int × Int)
  deriving DecidableEq, Repr

/-- A class 1 frame that waits for the command engine: its port, the whole frame, and its UDP payload (R391). -/
structure KppFrame where
  port  : Nat
  frame : List Byte
  data  : List Byte
  deriving DecidableEq, Repr

/-- The plant port beside its registers: token buckets by 8p + c (10^-9 frames, TB3 time in ns), egress queues, the
local frame on its way out of each port, commands that wait, the command that passed its checks, and each port's last
frame sent. -/
structure Eth where
  buckets : Tab (Option (Nat × Nat))
  egress  : Tab (List EgrFrame)
  fly     : Tab (Option (List Byte))
  cmds    : List KppFrame
  ready   : Option KppFrame
  sent    : Tab (List Byte)
  deriving DecidableEq, Repr, Inhabited

/-- The plant port after reset. (Model: DESIGN CHOICE, log 10) -/
def Eth.reset : Eth := { buckets := [], egress := [], fly := [], cmds := [], ready := none, sent := [] }

/-! ## General inputs and outputs (R396 to R412) -/

/-- The DIO part of the Husk die: debounced levels, tripped switches, whether the field is good and has been since
power-up, the image of the next command frame and the image in force, whether the command link runs, a requested clear
with whether every junction is then below 135 °C, when the module knows it. -/
structure Dio where
  deb      : W32
  trip     : W32
  good     : Bool
  everGood : Bool
  frame    : Option W32
  drive    : W32
  link     : Bool
  /-- A requested clear (R406): whether every junction is below 135 °C, where the request says so. -/
  clr      : Option (Option Bool)
  /-- The Husk die has its supply (R268, R409). -/
  power    : Bool
  deriving DecidableEq, Repr, Inhabited

def Dio.reset : Dio :=
  { deb := 0, trip := 0, good := false, everGood := false, frame := none, drive := 0, link := false, clr := none, power := true }

/-! ## The chip -/

/-- The module states (R456). -/
inductive ModState where
  | reset
  | boot
  | config
  | sync
  | standby
  | run
  | degraded
  | safe
  deriving DecidableEq, Repr, Inhabited

/-- Everything of the module but the Husk and the safety core. -/
structure Chip where
  /-- The register space, keyed by the offset from 0x00_2000_0000 (R468); an unlisted word reads as its map's
  reset value. -/
  regs   : Tab W32
  /-- Cell memory, DRAM, pod data and instruction memories, keyed by the address every master uses (R37, R38);
  an unlisted byte reads 0. -/
  cells  : List Host.Cell
  /-- Boot flash, keyed by flash offset (R451); an unlisted byte reads 0xFF (erased). -/
  flash  : Tab Byte
  modState : ModState
  /-- The cell tick number, whether any tick has run since reset, and whether ticks run (R9). -/
  tick    : Nat
  ticked  : Bool
  ticking : Bool
  pods   : Tab Pod
  sched  : Sched
  mem    : MemInt
  tim    : TimeUnit
  host   : HostIf
  /-- HI words latched by reads of LO words, keyed by master × 2^24 + offset (R473). -/
  hiLatch : Tab (Option W32)
  /-- TB3 time in ns of the last firing of each rate-limited event source. -/
  lastFire : Tab (Option Nat)
  /-- How many free values have been drawn (the model's own). -/
  draws   : Nat
  /-- Pods whose POD_CTRL.STEP was written within the present command (the model's own). -/
  stepReq : List Nat
  /-- The golden copy of the boot image: its length and the flash offset it was read from (R455). -/
  golden : Nat × Option Nat
  /-- This twin failed a self-test in this tick (R354, R424). -/
  stf : Bool
  /-- Arms, or every joint, whose fault action is entered in the next feedback phase (R28, R438, R459, R463). -/
  armFaults : List Nat
  allFault : Bool
  /-- What falls due at the next tick boundary: entry to DEGRADED, entry to SAFE, RUN at a named tick (R458, R460). -/
  wantDegraded : Bool
  wantSafe : Bool
  wantRun : Option Nat
  fbk : Fbk
  lpe : Lpe
  prf : Prf
  star : Star
  ring : Ring
  twin : Twin
  sep : Sep
  /-- The number of the next tick, when ticks start or are adopted (R9, R345). -/
  nextTick : Option Nat
  hlt : Hlt
  eth : Eth
  dio : Dio
  /-- AUTORUN of the boot image, and the tick of entry to STANDBY it counts from (R461). -/
  autorun : Nat
  standbyAt : Option Nat
  /-- TB3 time in ns from which the host watchdog counts; none when it is off or has expired (R463). -/
  wdFrom : Option Nat
  /-- TB3 time in ns of the accepted request of CONFIG (R459). -/
  cfgFrom : Option Nat
  /-- SYS_BOOT_CTRL.GO was written in this BOOT (R454). -/
  bootGo : Bool
  /-- The boot ROM makes steps 6 and 7 of R454, whose writes count as made in CONFIG (the model's own). -/
  byRom : Bool
  /-- An order violation of the rails holds the module in RESET (R488). -/
  orderHeld : Bool
  /-- KIND of a SYS_RESET write, and a SYS_SPS_CMD write, made within the present command (the model's own). -/
  resetReq : Nat
  spsReq : W32
  /-- The tick of a requested snapshot, and the image taken at its t₀ (R464). -/
  snapAt : Option Nat
  snapImg : List Byte
  snapTo : Nat
  /-- DWR transfers that wait to be applied whole, each with its pod and its words (R106). -/
  dwr : List (Nat × List (Nat × W32))
  deriving DecidableEq, Repr, Inhabited

/-- The chip right after reset. -/
def Chip.reset : Chip :=
  { regs := [], cells := [], flash := [], modState := .reset, tick := 0, ticked := false, ticking := false, pods := [],
    sched := Sched.reset, mem := MemInt.reset, tim := TimeUnit.reset, host := HostIf.reset, hiLatch := [],
    lastFire := [], draws := 0, stepReq := [], golden := (0, none), stf := false, armFaults := [], allFault := false, wantDegraded := false, wantSafe := false, wantRun := none, fbk := Fbk.reset, lpe := Lpe.reset, prf := Prf.reset, star := Star.reset, ring := Ring.reset, twin := Twin.reset, sep := Sep.reset, nextTick := none, hlt := Hlt.reset, eth := Eth.reset, dio := Dio.reset, autorun := 0, standbyAt := none, wdFrom := none, cfgFrom := none, bootGo := false, byRom := false, orderHeld := false, resetReq := 0, spsReq := 0, snapAt := none, snapImg := [], snapTo := 0, dwr := []
  }

/-- Why a step stops with a fault. -/
inductive Fault where
  /-- Raised by no command: the spec lets no command stop the block. Safe. -/
  | never
  deriving DecidableEq, Repr

/-- Why a command has no meaning. -/
inductive Refusal where
  /-- Raised by an arm of `exec` that is not modelled yet. Safe: nothing is claimed of it. -/
  | notModelled (mnemonic : String)
  /-- Raised by a meaning whose command is not well formed (its operands are none the hardware can meet). Safe. -/
  | illFormed (mnemonic : String)
  deriving DecidableEq, Repr

/-- The state of the block: the chip, the Husk and the safety core beside it, and the commands that wait, first in,
first out. -/
structure State where
  chip    : Chip
  husk : Husk
  core : SafetyCore
  pending : List Instr
  deriving DecidableEq, Repr

/-- The machine right after reset. (Model: DESIGN CHOICE, log 10; DESIGN CHOICE, log 109) -/
def State.reset : State :=
  { chip := Chip.reset, husk := Husk.reset, core := SafetyCore.reset, pending := [] }

end Sys2Proof.Machine
end

