-- ==== Sys2Proof/Machine/RegMap.lean ====
section
/-!
DEFINITION. The register maps of the sixteen blocks (R468), as rows of offset, spacing, count, access masks and reset
value. A bit in no mask is RO or reserved: a write leaves it (R3, R4).
-/
namespace Sys2Proof.Machine

/-- One register, or an array of them: `count` words at `off`, `off + stride`, ... within its block. `rw` bits take
what is written, `w1c` bits are cleared by ones, `rc` bits are cleared by a read, `wo` bits are taken and read as
zero (R3). -/
structure RegDesc where
  off    : Nat
  stride : Nat
  count  : Nat
  rw     : Nat
  w1c    : Nat
  rc     : Nat
  wo     : Nat
  rst    : Nat
  deriving DecidableEq, Repr

/-- All 32 bits. -/
def allBits : Nat := 0xFFFFFFFF

/-- One word. -/
def reg1 (off rw w1c rc wo rst : Nat) : RegDesc := ⟨off, 4, 1, rw, w1c, rc, wo, rst⟩
/-- An array of words. -/
def regN (off stride count rw w1c rc wo rst : Nat) : RegDesc := ⟨off, stride, count, rw, w1c, rc, wo, rst⟩
/-- A read-only word, an array of read-only words. -/
def ro1 (off rst : Nat) : RegDesc := reg1 off 0 0 0 0 rst
def roN (off stride count rst : Nat) : RegDesc := regN off stride count 0 0 0 0 rst
/-- A plain RW word, an array of them. -/
def rw1 (off rw rst : Nat) : RegDesc := reg1 off rw 0 0 0 rst
def rwN (off stride count rw rst : Nat) : RegDesc := regN off stride count rw 0 0 0 rst
/-- Reserved read-only words of an entry: `words` of them from `off`, in `count` entries. -/
def rsvN (off stride count words : Nat) : List RegDesc :=
  (List.range words).map fun i => roN (off + 4 * i) stride count 0

/-- SYS (R21, R306, R467, R474). -/
def sysMap : List RegDesc :=
  [ ro1 0x000 0x4B590096, ro1 0x004 0xB0, ro1 0x008 0, ro1 0x010 0, ro1 0x014 0, ro1 0x020 0, ro1 0x024 0,
    reg1 0x028 0 0x80000000 0xFFFF 0 0, rwN 0x030 4 4 allBits 0,
    rw1 0x100 0x3FFF 1000, rw1 0x104 0x03FF03FF (192 * 65536 + 32), rw1 0x108 0x03FF03FF (928 * 65536 + 768),
    rw1 0x10C 0x1FFF007F (64 * 65536 + 4), reg1 0x110 0 7 0 0 0, ro1 0x118 0, ro1 0x11C 0,
    ro1 0x200 0, reg1 0x204 0 0 0 0 0, reg1 0x208 0 0 0 0 0, rw1 0x20C allBits 0, rw1 0x210 allBits 0,
    ro1 0x214 0, ro1 0x218 0, ro1 0x21C 0, reg1 0x220 0x4000FFFF 0x80000000 0 0 0, ro1 0x224 0,
    rw1 0x230 allBits 0, rw1 0x234 0xFF 0, ro1 0x238 0, rw1 0x23C allBits 0, rw1 0x240 allBits 0,
    reg1 0x244 0 4 0 0 0, ro1 0x248 0,
    rw1 0x300 allBits 0, rw1 0x304 0xFF 0, ro1 0x308 0 ]

/-- SCH (R111, R112, R117, R120, R121, R131). -/
def schMap : List RegDesc :=
  [ reg1 0x00 0 0x1E 0 0 0, rw1 0x08 allBits 0, ro1 0x0C 0, ro1 0x10 0, rw1 0x20 allBits 0, rw1 0x24 0xFF 0,
    ro1 0x28 0, ro1 0x2C 0,
    roN 0x100 4 16 1, rwN 0x140 4 48 0xFF 1,
    rwN 0x800 4 512 0xC001FFFF 0, rwN 0x1000 4 4096 0x8001FFFF 0,
    rwN 0x8000 16 16 0x807FFFFF 0, rwN 0x8004 16 16 0x07FF0FFF 0, rwN 0x8008 16 16 0x0003FFFF 0, roN 0x800C 16 16 0,
    roN 0x8100 4 16 0, roN 0x10000 4 2048 0,
    rwN 0x20000 32 4096 allBits 0, rwN 0x20004 32 4096 allBits 0, rwN 0x20008 32 4096 0xDFFFF03F 0,
    roN 0x2000C 32 4096 0, roN 0x20010 32 4096 0 ] ++ rsvN 0x20014 32 4096 3

/-- TIM (R381). -/
def timMap : List RegDesc :=
  [ reg1 0x000 0 6 0 0 0, ro1 0x004 0,
    rw1 0x100 0xEF3F03FF 0xC01000C8, rwN 0x140 64 2 0xEF3F03FF 0x401000C8, rw1 0x1C0 0xEF3F03FF 0xC01000C8,
    rwN 0x200 64 2 0xEF3F03FF 0x401000C8,
    rwN 0x104 64 6 allBits 0, rwN 0x108 64 6 allBits 0, rwN 0x10C 64 6 0xFFFF01FF 0x0BB801F4,
    rwN 0x110 64 6 allBits 1000,
    regN 0x114 64 6 0 0 0 allBits 0, regN 0x118 64 6 0 0 0 allBits 0, regN 0x11C 64 6 0 0 0 allBits 0,
    regN 0x120 64 6 0 0 0 0xFFFF 0, regN 0x124 64 6 0 0 0 allBits 0,
    roN 0x128 64 6 0, roN 0x12C 64 6 0, regN 0x130 64 6 0 0 0x1F 0 0, roN 0x134 64 6 0, roN 0x138 64 6 0,
    roN 0x13C 64 6 0,
    rwN 0x1000 64 32 0xFF000000 0, rwN 0x1004 64 32 allBits 0, rwN 0x1008 64 32 0xFFFF 0, rwN 0x100C 64 32 allBits 0,
    rwN 0x1010 64 32 allBits 0, rwN 0x1014 64 32 0xFFFF 0, rwN 0x1018 64 32 allBits 1, rwN 0x101C 64 32 allBits 0,
    roN 0x1020 64 32 0, roN 0x1024 64 32 0, regN 0x1028 64 32 0 0xE 0 0 0 ] ++ rsvN 0x102C 64 32 5 ++
  [ rwN 0x2000 32 16 0xE70000FF 0x20000000, regN 0x2004 32 16 0 0x100 0 0 0, regN 0x2008 32 16 0 0 allBits 0 0,
    roN 0x200C 32 16 0, roN 0x2010 32 16 0 ] ++ rsvN 0x2014 32 16 3

/-- MEM (R432). -/
def memMap : List RegDesc :=
  [ reg1 0x00 0 0x7F 0 0 0, rw1 0x04 0xFFFF00FF 0x000A0018, ro1 0x08 0, ro1 0x0C 0, ro1 0x10 0, ro1 0x14 0, ro1 0x18 0,
    reg1 0x20 0 0 allBits 0 0, rwN 0x100 8 32 allBits 0, rwN 0x104 8 32 0xFF 0,
    rwN 0x1000 32 64 0xF01F0FFF 0, rwN 0x1004 32 64 allBits 0, rwN 0x1008 32 64 0xFF 0, rwN 0x100C 32 64 allBits 0,
    rwN 0x1010 32 64 allBits 0, rwN 0x1014 32 64 0xFF 0, roN 0x1018 32 64 0, roN 0x101C 32 64 0, roN 0x2000 4 288 0 ]

/-- HST (R485), with the MSI-X table and pending bits as PCIe defines them. -/
def hstMap : List RegDesc :=
  [ ro1 0x00 0x00961FB7, rw1 0x04 0x1FFFF 0x200, ro1 0x08 0, rw1 0x10 allBits 0, rw1 0x14 0xFF 0, rw1 0x18 0x7F 0,
    rw1 0x1C allBits 0, rw1 0x20 allBits 0, reg1 0x24 0x7F000000 7 0 0 0, regN 0x40 4 16 0 allBits 0 0 0,
    rwN 0x100 16 64 0xFFFF 0, roN 0x104 16 64 0, roN 0x108 16 64 0, roN 0x10C 16 64 0, rwN 0x1000 4 512 0x8000003F 0,
    rwN 0x2000 64 8 0x603F0000 0, rwN 0x2004 64 8 allBits 0, rwN 0x2008 64 8 allBits 0, rwN 0x200C 64 8 allBits 0,
    rwN 0x2010 64 8 0xFF 0, rwN 0x2014 64 8 allBits 0, regN 0x2018 64 8 0 0x60000000 0 0 0, roN 0x201C 64 8 0,
    roN 0x2020 64 8 0, roN 0x2024 64 8 0 ] ++ rsvN 0x2028 64 8 6 ++
  [ rwN 0x80000 16 64 0xFFFFFFFC 0, rwN 0x80004 16 64 allBits 0, rwN 0x80008 16 64 allBits 0, rwN 0x8000C 16 64 1 1,
    roN 0x81000 4 2 0 ]

/-- POD (R77, R78): one 4 KiB frame for each pod. -/
def podMap : List RegDesc :=
  [ rwN 0x000 0x1000 32 1 0, roN 0x004 0x1000 32 0, roN 0x008 0x1000 32 0 ] ++ rsvN 0x100 0x1000 32 20 ++
  rsvN 0x200 0x1000 32 64 ++ rsvN 0x400 0x1000 32 128

/-- FBK (R160). -/
def fbkMap : List RegDesc :=
  [ reg1 0x00 0 7 0 0 0, rw1 0x04 0x807FFFFF 0, ro1 0x08 0,
    rwN 0x1000 64 256 0xFFFFFFF8 0x10, rwN 0x1004 64 256 allBits 0, rwN 0x1008 64 256 allBits 0,
    rwN 0x100C 64 256 allBits 0, rwN 0x1010 64 256 allBits 0, rwN 0x1014 64 256 allBits 0x43960000,
    rwN 0x1018 64 256 allBits 0, rwN 0x101C 64 256 allBits 0, rwN 0x1020 64 256 0xFFFF 0, rwN 0x1024 64 256 allBits 0,
    rwN 0x1028 64 256 allBits 0, roN 0x102C 64 256 0, roN 0x1030 64 256 0, roN 0x1034 64 256 0 ] ++
  rsvN 0x1038 64 256 2 ++
  [ rwN 0x8000 16 16 0xF00000FF 0, roN 0x8004 16 16 0, roN 0x8008 16 16 0, regN 0x800C 16 16 0 0 0xFFFF0000 0 0,
    rwN 0x8200 16 4 0xC0FFFF00 0, rwN 0x8204 16 4 allBits 0x00010001, rwN 0x8208 16 4 allBits 0,
    regN 0x820C 16 4 0 3 0 0 0 ] ++ rsvN 0x10000 32 256 8

/-- LPE (R187). -/
def lpeMap : List RegDesc :=
  [ reg1 0x0 0 0x1F 0 0 0, reg1 0x4 0 0 0xFFFF 0 0, ro1 0x8 0, ro1 0xC 0,
    rwN 0x10000 64 1024 0xFFFEFF00 0, rwN 0x10004 64 1024 allBits 0, rwN 0x10008 64 1024 allBits 0,
    rwN 0x1000C 64 1024 allBits 0, rwN 0x10010 64 1024 allBits 0, rwN 0x10014 64 1024 allBits 0,
    rwN 0x10018 64 1024 0xF07F0000 0, rwN 0x1001C 64 1024 0xFFBF81FF 0, regN 0x10020 64 1024 0 0x03000000 0 0 0,
    rwN 0x10024 64 1024 allBits 0, roN 0x10028 64 1024 0, roN 0x1002C 64 1024 0, roN 0x10030 64 1024 0,
    roN 0x10034 64 1024 0, roN 0x10038 64 1024 0, roN 0x1003C 64 1024 0,
    rwN 0x20000 4 16384 allBits 0,
    rwN 0x30000 32 128 0xC0000000 0, rwN 0x30004 32 128 allBits 0x3FC00000, roN 0x30008 32 128 0, roN 0x3000C 32 128 0,
    roN 0x30010 32 128 0, roN 0x30014 32 128 0, roN 0x30018 32 128 0, roN 0x3001C 32 128 0,
    rwN 0x31000 32 128 0x830000FF 0, rwN 0x31004 32 128 0xF07F0000 0, rwN 0x31008 32 128 0x800003FF 0,
    rwN 0x3100C 32 128 0x800003FF 0, rwN 0x31010 32 128 0x800003FF 0, rwN 0x31014 32 128 0x800003FF 0,
    regN 0x31018 32 128 0 0x02000000 0 0 0, roN 0x3101C 32 128 0,
    rwN 0x32000 8 64 0x1F 0, regN 0x32004 8 64 0 0 0x1F 0 0, roN 0x34000 4 512 0, roN 0x40000 4 65536 0 ] ++
  (List.range 44).map (fun w => rwN (0x80000 + 4 * w) 256 2048 allBits 0) ++
  (List.range 20).map (fun w => roN (0x800B0 + 4 * w) 256 2048 0)

/-- PRF (R220, R239). -/
def prfMap : List RegDesc :=
  [ reg1 0x0 0 0x1F 0 0 0, ro1 0x4 0, rwN 0x10000 64 256 0x9F000000 0 ] ++
  (List.range 9).map (fun w => rwN (0x10004 + 4 * w) 64 256 allBits 0x3F800000) ++
  [ rwN 0x10028 64 256 allBits 0, rwN 0x1002C 64 256 allBits 0, rwN 0x10030 64 256 allBits 0, roN 0x10034 64 256 0 ] ++
  rsvN 0x10038 64 256 2 ++
  [ regN 0x20000 32 256 0 0x3E 0 0 0, roN 0x20004 32 256 0, roN 0x20008 32 256 0, roN 0x2000C 32 256 0x3F800000 ] ++
  rsvN 0x20010 32 256 4 ++
  [ roN 0x30000 4 1024 0,
    rwN 0x31000 32 64 0xF0FFFFFF 0, rwN 0x31004 32 64 0xFFFFFFC0 0, rwN 0x31008 32 64 0xFF 0,
    rwN 0x3100C 32 64 0xFFFFFFC0 0, rwN 0x31010 32 64 0xFF 0, roN 0x31014 32 64 0,
    regN 0x31018 32 64 0 0x0C000000 0 0 0, roN 0x3101C 32 64 0,
    rwN 0x31800 32 32 0xFFFF 0, regN 0x31804 32 32 0 0 0xFFFF 0 0, rwN 0x31808 32 32 allBits 0,
    rwN 0x3180C 32 32 allBits 0 ] ++ rsvN 0x31810 32 32 4 ++
  [ rwN 0x32000 64 64 0xFF1F1FFF 0, rwN 0x32004 64 64 allBits 0, rwN 0x32008 64 64 allBits 0,
    rwN 0x3200C 64 64 allBits 0, rwN 0x32010 64 64 allBits 0, rwN 0x32014 64 64 allBits 1,
    regN 0x32018 64 64 0 0xB 0 0 0 ] ++ rsvN 0x3201C 64 64 9 ++
  [ rwN 0x34000 128 256 0xFCFFFFFF 0x00010401, rwN 0x34004 128 256 0xE000001F 0, rwN 0x34008 128 256 0xE000001F 0,
    rwN 0x3400C 128 256 0xE000001F 0 ] ++
  (List.range 6).map (fun w => rwN (0x34010 + 4 * w) 128 256 allBits 0) ++
  [ rwN 0x34028 128 256 0xFFFF 0, rwN 0x3402C 128 256 allBits 0, rwN 0x34030 128 256 allBits 0,
    rwN 0x34034 128 256 allBits 0, roN 0x34038 128 256 0, roN 0x3403C 128 256 0, regN 0x34040 128 256 0 7 0 0 0 ] ++
  rsvN 0x34044 128 256 15 ++
  [ rwN 0x3C000 64 32 0xFFE000FF 0, rwN 0x3C004 64 32 allBits 1, rwN 0x3C008 64 32 0x003F01FF 1,
    rwN 0x3C00C 64 32 allBits (500 * 65536 + 200), rwN 0x3C010 64 32 allBits 0, rwN 0x3C014 64 32 allBits 0,
    rwN 0x3C018 64 32 allBits 0, roN 0x3C01C 64 32 0, roN 0x3C020 64 32 0, roN 0x3C024 64 32 0,
    regN 0x3C028 64 32 0 1 0 0 0 ] ++ rsvN 0x3C02C 64 32 5 ++
  [ roN 0x3C800 16 32 0, roN 0x3C804 16 32 0, roN 0x3C808 16 32 0, roN 0x3C80C 16 32 1,
    roN 0x3D000 4 128 0, rwN 0x3D200 4 512 allBits 0 ]

/-- SEP (R265). -/
def sepMap : List RegDesc :=
  [ reg1 0x0 0 0x3E 0 0 0, rw1 0x4 0x1FFF003F (256 * 65536 + 32), rw1 0x8 0x0FFF0FFF (48 * 65536 + 15),
    rw1 0xC 0x0FFF0FFF (11 * 65536 + 4), rw1 0x10 allBits 0, rw1 0x14 allBits 0, rw1 0x18 allBits 0,
    rw1 0x1C allBits 0x3E000000, rw1 0x20 0x7FFFFF 0, rw1 0x24 allBits 0x3FCCCCCC, ro1 0x28 0, ro1 0x2C 0,
    reg1 0x30 0 0 allBits 0 0, ro1 0x34 0, rwN 0x100 4 64 0x87001F07 0,
    rwN 0x1000 64 16 0xE0FFFFFF 0, rwN 0x1004 64 16 allBits 0, rwN 0x1008 64 16 allBits 0x3F800000 ] ++
  (List.range 7).map (fun w => rwN (0x100C + 4 * w) 64 16 allBits 0) ++ rsvN 0x1028 64 16 6 ++
  [ rwN 0x2000 32 256 0xC0000000 0 ] ++ (List.range 7).map (fun w => rwN (0x2004 + 4 * w) 32 256 allBits 0) ++
  [ rwN 0x4000 32 32 0x877FFFFF 0 ] ++ (List.range 6).map (fun w => rwN (0x4004 + 4 * w) 32 32 allBits 0) ++
  [ roN 0x401C 32 32 0, roN 0x5000 4 512 0 ]

/-- STR (R332). -/
def strMap : List RegDesc :=
  [ reg1 0x0 0 0xF 0 0 0, rw1 0x4 0x00FF01FF (32 * 65536 + 40), ro1 0x8 0, ro1 0xC 0,
    rwN 0x1000 64 32 0xC3FF0000 (22 * 65536), rwN 0x1004 64 32 0x3FFFF 0, rwN 0x1008 64 32 0x3FFFF 0,
    rwN 0x100C 64 32 0x1FFF 0, rwN 0x1010 64 32 0x803FFF0F 0, rwN 0x1014 64 32 0xFFFF 0, rwN 0x1018 64 32 allBits 0,
    rwN 0x101C 64 32 allBits 0, rwN 0x1020 64 32 0xFF 0 ] ++ rsvN 0x1024 64 32 7 ++
  [ regN 0x2000 32 32 0 1 0 0 0, roN 0x2004 32 32 0, roN 0x2008 32 32 0, regN 0x200C 32 32 0 0 allBits 0 0,
    regN 0x2010 32 32 0 0 0xFFFF0000 0 0 ] ++ rsvN 0x2014 32 32 3 ++ [ roN 0x10000 4 8192 0 ]

/-- CRN (R364). -/
def crnMap : List RegDesc :=
  [ reg1 0x0 0 0xFFE 0 0 0, rw1 0x4 0xC0FF07FF (24 * 65536 + 448), rw1 0x8 allBits (2000 * 65536 + 250), ro1 0xC 0,
    ro1 0x10 0, ro1 0x14 0, ro1 0x18 0, ro1 0x1C 0, ro1 0x20 0, ro1 0x24 0, rw1 0x28 0x7FFFFF 0,
    rw1 0x30 0xFFFFFFC0 0, rw1 0x34 0xFF 0, rw1 0x38 0xFFFF 0, rwN 0x80 4 8 0x80FF7FFF 0,
    rwN 0x100 16 8 0xFFFFFFC0 0, rwN 0x104 16 8 0xFF 0, rwN 0x108 16 8 allBits 0, rwN 0x10C 16 8 0x80000000 0 ] ++
  (List.range 32).map (fun w => rwN (0x1000 + 4 * w) 256 8 allBits 0) ++
  [ rwN 0x1080 256 8 0x80000000 0 ] ++ rsvN 0x1084 256 8 31 ++
  [ roN 0x2000 16 16 0, roN 0x2004 16 16 0, roN 0x2008 16 16 0, regN 0x200C 16 16 0 0 allBits 0 0 ]

/-- ETH (R395). -/
def ethMap : List RegDesc :=
  [ reg1 0x0 0 0x7E 0 0 0, rw1 0x4 0x80FF80FF 0, rw1 0x8 0x8000FFFF 0x4B59, rwN 0x100 128 2 0xFF800007 0x02000000,
    rwN 0x104 128 2 allBits 0, rwN 0x108 128 2 0xFFFF 0, rwN 0x10C 128 2 allBits 0, rwN 0x110 128 2 allBits 0,
    rwN 0x114 128 2 allBits 0 ] ++
  (List.range 4).map (fun w => rwN (0x118 + 4 * w) 128 2 0x8FFF8FFF 0) ++
  [ rwN 0x128 128 2 allBits 0, rwN 0x12C 128 2 0xFF 0, rwN 0x130 128 2 0x0F000FFF 0x04000000, roN 0x134 128 2 0,
    rwN 0x138 128 2 allBits 0, rwN 0x13C 128 2 0xFF 0, rwN 0x140 128 2 0x0F000FFF 0x04000000, roN 0x144 128 2 0 ] ++
  rsvN 0x148 128 2 14 ++
  (List.range 8).map (fun w => regN (0x400 + 4 * w) 64 4 0 0 0 allBits 0) ++ [ rwN 0x420 64 4 0x80000000 0 ] ++
  rsvN 0x424 64 4 7 ++
  [ rwN 0x600 64 2 allBits (2048 * 4096 + 64), rwN 0x608 64 2 allBits (20000 * 4096 + 64),
    rwN 0x610 64 2 allBits (100 * 4096 + 8), rwN 0x618 64 2 allBits (10000 * 4096 + 64),
    rwN 0x620 64 2 allBits (10000 * 4096 + 128), rwN 0x628 64 2 allBits 1 ] ++
  (List.range 6).map (fun w => regN (0x604 + 8 * w) 64 2 0 0 allBits 0 0) ++ rsvN 0x630 64 2 4 ++
  (List.range 9).map (fun w => regN (0x800 + 4 * w) 64 2 0 0 allBits 0 0) ++ rsvN 0x824 64 2 7
/-- HLT (R447). -/
def hltMap : List RegDesc :=
  [ reg1 0x0 0 0xFF 0 0 0, rw1 0x4 0xFFFFFF07 (60 * 0x1000000 + 100 * 65536 + 20 * 256), rw1 0x8 allBits (168 * 65536 + 600),
    ro1 0xC 0, ro1 0x10 65535, rw1 0x14 0xFFFF 0, ro1 0x20 0, rw1 0x24 allBits 0, rw1 0x28 allBits 0, ro1 0x30 0,
    ro1 0x34 0, rw1 0x38 0xFF 6, rw1 0x3C 0xFF0000 (110 * 65536), ro1 0x40 0, rw1 0x44 allBits (40 * 65536 + 16),
    roN 0x100 4 24 0, roN 0x200 4 8 0, roN 0x300 4 16 0, regN 0x400 4 8 0 0 0xFFFF0000 0 0,
    rwN 0x500 4 40 0xFFFF0000 (600 * 65536), roN 0x600 4 37 0 ]
/-- SAF (R305). Its words are the mirror's copies. -/
def safMap : List RegDesc :=
  [ ro1 0x0 0x100, roN 0x100 4 8 0, roN 0x200 4 4 0, roN 0x300 4 16 0xFFFF, roN 0x400 4 4 0, ro1 0x410 0, ro1 0x500 0,
    ro1 0x504 0, ro1 0x508 0 ]

/-- DIO (R412). -/
def dioMap : List RegDesc :=
  [ reg1 0x0 0 3 0 0 0, ro1 0x4 0, rw1 0x8 allBits 0, rw1 0xC allBits 0, rw1 0x10 0xFFFFFF 0, rw1 0x14 allBits 0,
    rw1 0x18 allBits 0, ro1 0x1C 0, ro1 0x20 0, ro1 0x24 0, ro1 0x28 0, rwN 0x40 4 14 0xE000001F 0x20000000,
    rwN 0x100 4 32 0xFFFF 1000 ]
/-- The map of a block (R468). -/
def blockMap : Nat → List RegDesc
  | 0 => sysMap
  | 1 => schMap
  | 8 => timMap
  | 10 => memMap
  | 14 => podMap
  | 15 => hstMap
  | 2 => lpeMap
  | 3 => prfMap
  | 4 => fbkMap
  | 5 => sepMap
  | 6 => strMap
  | 7 => crnMap
  | 9 => ethMap
  | 11 => hltMap
  | 12 => safMap
  | 13 => dioMap
  | _ => []

/-- Whether a row assigns the word at an offset of its block. -/
def RegDesc.has (d : RegDesc) (x : Nat) : Bool :=
  decide (d.off ≤ x) && (x - d.off) % d.stride == 0 && decide ((x - d.off) / d.stride < d.count)

/-- The row of the word at an offset of the register space; none when no map assigns it (R471). -/
def regDesc (off : Nat) : Option RegDesc := (blockMap (off / 0x100000)).find? (·.has (off % 0x100000))

/-- A word with the RW fields of another value of the same register. -/
def rwOver (off : Nat) (w v : W32) : W32 := match regDesc off with
  | some d => (w &&& ~~~ (BitVec.ofNat 32 d.rw)) ||| (v &&& BitVec.ofNat 32 d.rw)
  | none => w

/-- Entry i of microstep table 0 (R236): floor(32767 × sin((2i + 1)π / 1024)). -/
def microEntry (i : Nat) : Nat := 32767 * sinScaled ((2 * i + 1) * piScaled / 1024) / 2 ^ 160
/-- Word w of a microstep table right after reset: entries 2w and 2w + 1. -/
def microWord (w : Nat) : W32 := BitVec.ofNat 32 (microEntry (2 * w) + 65536 * microEntry (2 * w + 1))

/-- What an unlisted word of the register space reads as: its map's reset value. (Model: DESIGN CHOICE, log 10) -/
def regReset (off : Nat) : W32 :=
  if 0x33D000 ≤ off ∧ off < 0x33DA00 then microWord ((off - 0x33D000) % 512 / 4)
  else match regDesc off with
  | some d => BitVec.ofNat 32 d.rst
  | none => 0

end Sys2Proof.Machine
end

