-- ==== Sys2Proof/Machine/Ops.lean ====
section
/-!
DEFINITION. The named operations over the register space, the pods, time, events and the access log that every unit
uses.
-/
namespace Sys2Proof.Machine

/-! ## Registers -/

/-- The stored word at an offset of the register space. -/
def Chip.reg (c : Chip) (off : Nat) : W32 := tabGet regReset c.regs off

/-- The chip with a register word set. -/
def Chip.setReg (c : Chip) (off : Nat) (v : W32) : Chip := { c with regs := tabPut regReset c.regs off v }

/-- Field [hi:lo] of a register. -/
def Chip.regF (c : Chip) (off hi lo : Nat) : Nat := fld (c.reg off) hi lo
/-- One bit of a register. -/
def Chip.regB (c : Chip) (off i : Nat) : Bool := bit (c.reg off) i
/-- The chip with a register's field set. -/
def Chip.setF (c : Chip) (off hi lo v : Nat) : Chip := c.setReg off (setFld (c.reg off) hi lo v)
/-- The chip with a register's bit set to a value. -/
def Chip.setB (c : Chip) (off i : Nat) (b : Bool) : Chip := c.setReg off (setBit (c.reg off) i b)
/-- Adds to a field, saturating at its largest value. -/
def Chip.addSat (c : Chip) (off hi lo n : Nat) : Chip :=
  c.setF off hi lo (satN (2 ^ (hi + 1 - lo) - 1) (c.regF off hi lo + n))
/-- Adds to a whole register, wrapping. -/
def Chip.addWrap (c : Chip) (off n : Nat) : Chip := c.setReg off (c.reg off + BitVec.ofNat 32 n)

/-- A 40-bit address or 64-bit value held in a LO and HI pair. -/
def Chip.pair (c : Chip) (lo : Nat) : Nat := (c.reg lo).toNat + (c.reg (lo + 4)).toNat * 2 ^ 32
/-- Sets a LO and HI pair. -/
def Chip.setPair (c : Chip) (lo v : Nat) : Chip :=
  (c.setReg lo (BitVec.ofNat 32 v)).setReg (lo + 4) (BitVec.ofNat 32 (v / 2 ^ 32))
/-- The signed 64-bit value of a LO and HI pair. -/
def Chip.pairI (c : Chip) (lo : Nat) : Int := signed 64 (c.pair lo)
/-- Sets a LO and HI pair to a signed value. -/
def Chip.setPairI (c : Chip) (lo : Nat) (i : Int) : Chip := c.setPair lo (wrapN 64 i)

/-- Numbers of the units of a register array, from `lo` below `hi`, that hold any stored word; ascending. -/
def Chip.unitsIn (c : Chip) (lo hi stride : Nat) : List Nat :=
  sortBy id ((c.regs.filterMap fun e => if lo ≤ e.1 ∧ e.1 < hi then some ((e.1 - lo) / stride) else none).eraseDups)

/-- What a generic write makes of a stored word (R3, R4). -/
def RegDesc.write (d : RegDesc) (old v : W32) : W32 :=
  let rw := BitVec.ofNat 32 (d.rw ||| d.wo)
  ((old &&& ~~~ rw) ||| (v &&& rw)) &&& ~~~ (v &&& BitVec.ofNat 32 d.w1c)

/-- Stores the W1C effect of a write alone. -/
def RegDesc.clearOnly (d : RegDesc) (old v : W32) : W32 := old &&& ~~~ (v &&& BitVec.ofNat 32 d.w1c)

/-- A generic write by the register's map; an unassigned word is left alone. -/
def Chip.mapWrite (c : Chip) (off : Nat) (v : W32) : Chip :=
  match regDesc off with
  | some d => c.setReg off (d.write (c.reg off) v)
  | none => c

/-- The W1C bits of a write alone. -/
def Chip.mapClear (c : Chip) (off : Nat) (v : W32) : Chip :=
  match regDesc off with
  | some d => c.setReg off (d.clearOnly (c.reg off) v)
  | none => c

/-! ## Pods -/

def Chip.pod (c : Chip) (n : Nat) : Pod := tabGet (fun _ => Pod.reset) c.pods n
def Chip.setPod (c : Chip) (n : Nat) (p : Pod) : Chip := { c with pods := tabPut (fun _ => Pod.reset) c.pods n p }
def Chip.modPod (c : Chip) (n : Nat) (f : Pod → Pod) : Chip := c.setPod n (f (c.pod n))

/-! ## Free values -/

/-- The next free value and the chip that has drawn it. (Model: DESIGN CHOICE, log 13) -/
def Chip.draw (c : Chip) : W64 × Chip := (Config.freeValue c.draws, { c with draws := c.draws + 1 })

/-! ## Time -/

/-- A time base with nothing set. -/
def TimeBase.zero : TimeBase := { val := 0, integ := 0, rate := 0, slewLeft := 0, since := 0 }
def Chip.base (c : Chip) (b : Nat) : TimeBase := tabGet (fun _ => TimeBase.zero) c.tim.bases b
def Chip.setBase (c : Chip) (b : Nat) (t : TimeBase) : Chip :=
  { c with tim := { c.tim with bases := tabPut (fun _ => TimeBase.zero) c.tim.bases b t } }
/-- TB3 in ns since reset. -/
def Chip.tb3 (c : Chip) : Nat := (c.base 3).val / 2 ^ 44
/-- TB0 in 2^-16 ns. -/
def Chip.tb0 (c : Chip) : Nat := (c.base 0).val / 2 ^ 28
/-- TB0 in ns. -/
def Chip.tb0Ns (c : Chip) : Nat := c.tb0 / 2 ^ 16

/-! ## Events (R22, R114, R483) -/

/-- The least spacing of two firings of a source in ns, for the sources whose chapters limit them. -/
def eventSpacing (n : Nat) : Option Nat :=
  if 128 ≤ n ∧ n ≤ 191 then some 1000
  else if 416 ≤ n ∧ n ≤ 431 then some 1000
  else if 432 ≤ n ∧ n ≤ 447 then some 1000000
  else if 448 ≤ n ∧ n ≤ 461 then some 1000
  else none

/-- Makes a vector pending (R483). -/
def Chip.vecPend (c : Chip) (v : Nat) : Chip := c.setB (0xF00100 + 16 * v) 31 true

/-- The host latch of a fired source (R483). -/
def Chip.hostLatch (c : Chip) (n : Nat) : Chip :=
  let e := c.reg (0xF01000 + 4 * n)
  if bit e 31 then (c.setB (0xF00040 + 4 * (n / 32)) (n % 32) true).vecPend (fld e 5 0) else c

/-- Source `n` fires now: it reaches the scheduler and its host entry. -/
def Chip.fireNow (c : Chip) (n : Nat) : Chip :=
  ({ c with sched := { c.sched with arrivals := c.sched.arrivals ++ [Arrival.source n] } }).hostLatch n

/-- Source `n` fires, or merges into a firing its chapter's spacing still covers. (Model: DEDUCED, log 96) -/
def Chip.fire (c : Chip) (n : Nat) : Chip :=
  match eventSpacing n with
  | none => c.fireNow n
  | some d =>
    let now := c.tb3
    let due := match tabGet (fun _ => none) c.lastFire n with
      | none => true
      | some t => decide (t + d ≤ now)
    if due then ({ c with lastFire := tabPut (fun _ => none) c.lastFire n (some now) }).fireNow n else c

/-- A POST of flags to a task from inside the module. -/
def Chip.postTask (c : Chip) (task : Nat) (mask : W32) : Chip :=
  { c with sched := { c.sched with arrivals := c.sched.arrivals ++ [Arrival.post task mask] } }

/-! ## The access log (R474) -/

/-- Loads SYS_AERR for an access of a master. (Model: DEDUCED, log 17) -/
def Chip.logAccess (c : Chip) (master kind addr : Nat) : Chip :=
  let i := c.reg 0x28
  let i := setFld (setFld (setBit i 31 true) 29 24 master) 19 16 kind
  let i := setFld i 15 0 (satN 0xFFFF (fld i 15 0 + 1))
  ((c.setReg 0x20 (BitVec.ofNat 32 addr)).setReg 0x24 (BitVec.ofNat 32 (addr / 2 ^ 32 % 256))).setReg 0x28 i

/-- A discarded store to an unmapped address: logged, and event 9 fires (R40). (Model: DEDUCED, log 17) -/
def Chip.badStore (c : Chip) (master kind addr : Nat) : Chip := (c.logAccess master kind addr).fire 9

/-! ## Module state -/

/-- Whether the module is in CONFIG; the writes of the boot ROM in BOOT count as made in CONFIG (R21, R454). (Model: DEDUCED, log 70) -/
def Chip.inConfig (c : Chip) : Bool := c.modState == .config || c.byRom

/-- In RESET and BOOT all 3.3 V outputs are low (R492). -/
def Chip.pinsLow (c : Chip) : Bool := c.modState == .reset || c.modState == .boot

/-- The masters that count as the host (R469). -/
def isHost (m : Nat) : Bool := decide (32 ≤ m ∧ m ≤ 42)

end Sys2Proof.Machine
end

