-- ==== Sys2Proof/Machine/Memory.lean ====
section
/-!
DEFINITION. The 40-bit address map (R37 to R40), bytes of memory, and the integrity of lines: checks, correction from
golden sources, poison, pending lines, the correction log and retirement (R413 to R432).
-/
namespace Sys2Proof.Machine

/-! ## Bytes -/

/-- A byte of cell memory, DRAM or a pod's memories. (Model: DESIGN CHOICE, log 11) -/
def Chip.byteAt (c : Chip) (a : Nat) : Byte := tabGet (fun _ => 0) c.cells a
def Chip.setByte (c : Chip) (a : Nat) (b : Byte) : Chip := { c with cells := tabPut (fun _ => 0) c.cells a b }
/-- The canonical form of the memory list. -/
def Memory.wf (m : List Host.Cell) : Bool := tabWf (fun _ => (0 : Byte)) m
/-- `n` bytes from an address. -/
def Chip.bytesAt (c : Chip) (a n : Nat) : List Byte := (List.range n).map fun i => c.byteAt (a + i)
/-- Writes bytes from an address on. -/
def Chip.setBytes (c : Chip) (a : Nat) : List Byte → Chip
  | [] => c
  | b :: bs => (c.setByte a b).setBytes (a + 1) bs
/-- The little-endian number of `n` bytes. -/
def Chip.numAt (c : Chip) (a n : Nat) : Nat := ofBytes (c.bytesAt a n)
/-- Writes a number as `n` little-endian bytes. -/
def Chip.setNum (c : Chip) (a n v : Nat) : Chip := c.setBytes a (toBytes n v)

/-- A byte of the boot flash; erased flash reads 0xFF. (Model: DESIGN CHOICE, log 11) -/
def Chip.flashAt (c : Chip) (a : Nat) : Byte := tabGet (fun _ => 0xFF) c.flash a
def Chip.setFlash (c : Chip) (a : Nat) (b : Byte) : Chip := { c with flash := tabPut (fun _ => 0xFF) c.flash a b }
def Chip.flashBytes (c : Chip) (a n : Nat) : List Byte := (List.range n).map fun i => c.flashAt (a + i)
def Chip.setFlashBytes (c : Chip) (a : Nat) : List Byte → Chip
  | [] => c
  | b :: bs => (c.setFlash a b).setFlashBytes (a + 1) bs

/-! ## The address map (R37 to R39, R417) -/

def cellBase : Nat := 0x0010000000
def cellEnd : Nat := 0x0010800000
def regBase : Nat := 0x0020000000
def podWin (n : Nat) : Nat := 0x0030000000 + n * 0x800000
def dramBase : Nat := 0x0100000000
/-- First byte of the CRC area, and first byte after DRAM (R417). -/
def crcBase : Nat := if Config.sa8 then 0x02E0000000 else 0x01F0000000
def dramEnd : Nat := if Config.sa8 then 0x0300000000 else 0x0200000000

/-- What an address reaches. -/
inductive Space where
  | cell
  | regs
  | data (pod : Nat)
  | imem (pod : Nat)
  | dram
  | crcArea
  | unmapped
  deriving DecidableEq, Repr

/-- The space of an address as masters other than a pod's own short ranges see it. -/
def spaceOf (a : Nat) : Space :=
  if a < cellBase then .unmapped
  else if a < cellEnd then .cell
  else if a < regBase then .unmapped
  else if a < regBase + 0x1000000 then .regs
  else if a < podWin 0 then .unmapped
  else if a < podWin 32 then
    let n := (a - podWin 0) / 0x800000
    let o := (a - podWin 0) % 0x800000
    if o < 0x40000 then .data n else if o < 0x50000 then .imem n else .unmapped
  else if a < dramBase then .unmapped
  else if a < 0x01F0000000 then .dram
  else if a < crcBase then .dram
  else if a < dramEnd then .crcArea
  else .unmapped

/-- Whether a range lies wholly in usable DRAM. -/
def inUsableDram (a len : Nat) : Bool := decide (dramBase ≤ a) && (spaceOf (a + len - 1) == .dram || len == 0)
/-- Whether a range lies wholly in cell memory. -/
def inCell (a len : Nat) : Bool := decide (cellBase ≤ a ∧ a + len ≤ cellEnd)

/-! ## Regions (R418 to R420) -/

/-- Register offset of word `w` of MEM_REG[r]. -/
def memReg (r w : Nat) : Nat := 0xA01000 + 32 * r + 4 * w
/-- Base and length of a region. -/
def Chip.regionBase (c : Chip) (r : Nat) : Nat := c.pair (memReg r 1) % 2 ^ 40
def Chip.regionLen (c : Chip) (r : Nat) : Nat := (c.reg (memReg r 3)).toNat
def Chip.regionSrc (c : Chip) (r : Nat) : Nat := c.pair (memReg r 4) % 2 ^ 40
def Chip.regionKind (c : Chip) (r : Nat) : Nat := c.regF (memReg r 0) 30 29
def Chip.regionHas (c : Chip) (r a : Nat) : Bool :=
  c.regB (memReg r 0) 31 && decide (c.regionBase r ≤ a ∧ a < c.regionBase r + c.regionLen r)
/-- The enabled region that holds an address. -/
def Chip.regionOf (c : Chip) (a : Nat) : Option Nat := (List.range 64).find? fun r => c.regionHas r a

/-- Where a line's golden content comes from. -/
inductive Golden where
  | dram (a : Nat)
  | flash (a : Nat)
  | missing
  deriving DecidableEq, Repr

/-- How a line is protected: plain, backed by a source, or rebuilt by the owner of a region. -/
inductive Backing where
  | plain
  | backed (src : Golden)
  | recomputable (r : Nat)
  deriving DecidableEq, Repr

def Chip.line (c : Chip) (l : Nat) : Line := tabGet (fun _ => Line.good) c.mem.lines l
def Chip.setLine (c : Chip) (l : Nat) (x : Line) : Chip :=
  { c with mem := { c.mem with lines := tabPut (fun _ => Line.good) c.mem.lines l x } }

/-- MEM_IMSRC[n]. (Model: DESIGN CHOICE, log 110) -/
def Chip.imsrc (c : Chip) (n : Nat) : Nat := c.pair (0xA00100 + 8 * n) % 2 ^ 40

/-- The protection of the line that holds an address (R418, R419, R455). -/
def Chip.backing (c : Chip) (a0 : Nat) : Backing :=
  let a := a0 / 64 * 64
  match spaceOf a with
  | .imem n =>
    let o := (a - podWin n) - 0x40000
    .backed (if c.imsrc n = 0 then .missing else .dram (c.imsrc n + o))
  | .dram =>
    if (c.line (a / 64)).noSource then .backed .missing
    else if a < dramBase + c.golden.1 then
      .backed (match c.golden.2 with | some f => .flash (f + (a - dramBase)) | none => .missing)
    else match c.regionOf a with
      | some r =>
        if c.regionKind r = 1 then .backed (.flash (c.regionSrc r + (a - c.regionBase r)))
        else if c.regionKind r = 2 then .recomputable r else .plain
      | none => .plain
  | _ =>
    match c.regionOf a with
    | some r =>
      if c.regionKind r = 1 then .backed (.dram (c.regionSrc r + (a - c.regionBase r)))
      else if c.regionKind r = 2 then .recomputable r else .plain
    | none => .plain

/-- Whether an address lies in a backed region, which stores may not change (R420). -/
def Chip.isBacked (c : Chip) (a : Nat) : Bool := match c.backing a with | .backed _ => true | _ => false

/-! ## Failed checks (R421 to R431) -/

/-- The stored word of the CRC area at an address: the CRC-32C of the line it stands for, or its complement for a
poisoned line; the words that stand for the CRC area itself read zero (R417, R426). (Model: DEDUCED, log 87) -/
def Chip.crcWord (c : Chip) (a : Nat) : Nat :=
  let l := dramBase + (a / 4 * 4 - crcBase) * 16
  if l < crcBase then
    let x := crc32c (c.bytesAt l 64)
    if (c.line (l / 64)).poisoned then 0xFFFFFFFF - x else x
  else 0

/-- MEM_ERR_* for the uncorrectable line that holds an address; POD is that of a fetch or a pod load (R432). -/
def Chip.memErr (c : Chip) (kind cause pod a0 : Nat) : Chip :=
  let a := a0 / 64 * 64
  let i := setFld (setFld (setFld 0 31 28 kind) 27 24 cause) 4 0 (if kind = 1 ∨ kind = 2 then pod else 0)
  ((c.setReg 0xA00010 (BitVec.ofNat 32 a)).setReg 0xA00014 (BitVec.ofNat 32 (a / 2 ^ 32 % 256))).setReg 0xA00018 i

/-- An occurrence of event 416: CORR_N (R431). (Model: DEDUCED, log 87) -/
def Chip.memPend (c : Chip) : Chip := (c.addSat 0xA00020 31 16 1).fire 416
/-- A correction: CORR and event 416. -/
def Chip.memCorr (c : Chip) : Chip := (c.setB 0xA00000 1 true).memPend

/-- Poisons a line (R426). -/
def Chip.poisonLine (c : Chip) (l : Nat) : Chip :=
  (c.setLine l { c.line l with poisoned := true, pending := false }).setB 0xA00000 3 true

/-- UNCORR, UNCORR_N and event 417 (R431), and the twin's STF for the tick (R424). -/
def Chip.uncorr (c : Chip) : Chip := { ((c.setB 0xA00000 2 true).addSat 0xA00020 15 0 1).fire 417 with stf := true }
/-- An uncorrectable access (R422): MEM_ERR beside what `uncorr` does. -/
def Chip.memUncorr (c : Chip) (kind cause pod a : Nat) : Chip := (c.memErr kind cause pod a).uncorr

/-- The owner's notice of a region with OEN (R425). -/
def Chip.postOwner (c : Chip) (r : Nat) : Chip :=
  let w := c.reg (memReg r 0)
  if bit w 28 then c.postTask (fld w 11 0) (BitVec.ofNat 32 (2 ^ fld w 20 16)) else c

/-- The scrubber's report of a line it poisoned (R425). -/
def Chip.memScrubPoison (c : Chip) (cause a : Nat) : Chip :=
  let c := ((c.memErr 4 cause 0 a).addSat 0xA00020 15 0 1)
  let c := match c.regionOf a with | some r => c.postOwner r | none => c
  { c.fire 418 with stf := true }

/-- What an access to a line meets. -/
inductive Access where
  | ok
  /-- A handling runs: the access waits. -/
  | wait
  /-- The line is poisoned or pending: the access fails. -/
  | bad
  deriving DecidableEq, Repr

/-- The report of an uncorrectable line to its requester. -/
def Chip.reportBad (c : Chip) (kind cause pod a : Nat) : Chip :=
  if kind = 4 then c.memScrubPoison cause a else c.memUncorr kind cause pod a

/-- A line of a source that is poisoned or pending gives no golden content (R419, R426). -/
def Chip.sourceLost (c : Chip) (d : Nat) : Bool := (c.line (d / 64)).poisoned || (c.line (d / 64)).pending
/-- Whether the golden source of a line gives its content: `src` tells what the check of the source found. A DRAM source that fails its
check is first corrected from flash where it is backed so (R421). -/
def Chip.sourceOk (c : Chip) (g : Golden) (src : SrcCheck) : Bool := match g, src with
  | .missing, _ => false
  | .flash _, .good => true
  | .flash _, .bad _ => false
  | .dram d, .good => !c.sourceLost d
  | .dram d, .bad flashOk => !c.sourceLost d && match c.backing d with
    | .backed (.flash _) => flashOk
    | _ => false
/-- A DRAM source whose own check failed and that flash does not restore: it is handled as its kind says (R421). A line that is
poisoned or pending already stays so. -/
def Chip.sourceFailed (c : Chip) (g : Golden) (src : SrcCheck) : Chip := match g, src with
  | .dram d, .bad _ =>
    if c.sourceLost d then c
    else match c.backing d with
      | .recomputable r => (((c.setLine (d / 64) { c.line (d / 64) with pending := true }).postOwner r).memPend)
      | _ => c.poisonLine (d / 64)
  | _, _ => c
/-- The lines that a correction handles: the line, after a DRAM source that is itself corrected from flash. -/
def handledLines (l : Nat) (g : Golden) (src : SrcCheck) : List Nat := match g, src with
  | .dram d, .bad _ => [d / 64, l]
  | _, _ => [l]

/-- The golden bytes of a backed line; a DRAM source line is itself corrected from flash where it is backed. -/
def Chip.goldenBytes (c : Chip) (g : Golden) : List Byte :=
  match g with
  | .dram a => c.bytesAt a 64
  | .flash a => c.flashBytes a 64
  | .missing => c.bytesAt 0 0

/-- The handling of a line whose check failed (R421): `kind` and `pod` name the requester. (Model: DEDUCED, log 87) -/
def Chip.lineFailed (c : Chip) (kind pod a : Nat) (parity : Bool) (src : SrcCheck) : Chip × Access :=
  let l := a / 64
  let cause := if parity then 2 else 1
  match c.backing a with
  | .backed g =>
    if c.sourceOk g src then
      ({ c with mem := { c.mem with handling := c.mem.handling ++ handledLines l g src } }, .wait)
    else
      let cause := if g = .missing then cause else 3
      (((c.sourceFailed g src).poisonLine l).reportBad kind cause pod a, .bad)
  | .recomputable r =>
    (((c.setLine l { c.line l with pending := true }).postOwner r).memPend, .bad)
  | .plain => ((c.poisonLine l).reportBad kind cause pod a, .bad)

/-- A read of a refetch line is served from its golden source (R429). -/
def Chip.refetchLine (c : Chip) (kind pod a : Nat) (src : SrcCheck) : Chip × Access := match c.backing a with
  | .backed g =>
    if c.sourceOk g src then (c.setBytes (a / 64 * 64) (c.goldenBytes g), .ok)
    else (((c.sourceFailed g src).poisonLine (a / 64)).reportBad kind 3 pod a, .bad)
  | _ => (c, .ok)

/-- The byte that an engine of the module takes at an address (R415, R423, R426, R429): a line in handling or in refetch gives its
golden content; what an engine takes from a poisoned or pending line the spec does not state. (Model: DESIGN CHOICE, log 14) -/
def Chip.engineByte (c : Chip) (a : Nat) : Byte :=
  let x := c.line (a / 64)
  let free := BitVec.ofInt 8 (Config.freeResult 203 [Int.ofNat c.draws, Int.ofNat a])
  if x.poisoned || x.pending then free
  else if x.refetch || c.mem.handling.contains (a / 64) then match c.backing a with
    | .backed g => if c.sourceOk g .good then (c.goldenBytes g).getD (a % 64) 0 else free
    | _ => c.byteAt a
  else match spaceOf a with
    | .crcArea => BitVec.ofNat 8 (c.crcWord a / 256 ^ (a % 4))
    | _ => c.byteAt a
/-- `n` bytes that an engine takes, and the number they spell. -/
def Chip.engineBytes (c : Chip) (a n : Nat) : List Byte := (List.range n).map fun i => c.engineByte (a + i)
def Chip.engineNum (c : Chip) (a n : Nat) : Nat := ofBytes (c.engineBytes a n)
/-- The lines a range of `n` bytes touches. -/
def linesOf (a n : Nat) : List Nat := (List.range ((a % 64 + n + 63) / 64)).map fun i => a / 64 + i
/-- The lines of a range are all good: a check over the range that an engine makes fails where one is poisoned or pending. -/
def Chip.linesGood (c : Chip) (a n : Nat) : Bool := (linesOf a n).all fun l => !(c.line l).poisoned && !(c.line l).pending
/-- An engine's access to a range meets the poisoned lines in it (R422): the table of R432 has no KIND for an engine, so KIND is
free. (Model: DESIGN CHOICE, log 13) -/
def Chip.engineMeets (c : Chip) (a n : Nat) : Chip :=
  forL ((linesOf a n).filter fun l => (c.line l).poisoned) (fun l c =>
    let d := c.draw
    d.2.memUncorr (d.1.toNat % 16) 1 0 (64 * l)) c

/-- A checked read access to the line that holds an address (R415, R421 to R423, R429). (Model: DEDUCED, log 87) -/
def Chip.checkLine (c : Chip) (kind pod a : Nat) (chk : LineCheck) : Chip × Access :=
  let l := a / 64
  if c.mem.handling.contains l then (c, .wait)
  else if (c.line l).poisoned then (if kind = 4 then c else c.memUncorr kind 1 pod a, .bad)
  else if (c.line l).pending then (c, .bad)
  else if (c.line l).refetch then c.refetchLine kind pod a (match chk with | .fail _ src => src | _ => .good)
  else match chk with
    | .fail parity src => c.lineFailed kind pod a parity src
    | _ => (c, .ok)

/-! ## Correction, log and retirement (R427 to R429) -/

/-- The SRAM macro of an address (R428); none for DRAM. -/
def macroOf (a : Nat) : Option Nat :=
  match spaceOf a with
  | .imem n => some n
  | .data n => some (32 + 4 * n + (a - podWin n) / 0x10000)
  | .cell => some (160 + (a - cellBase) / 0x10000)
  | _ => none

/-- Drops a line's entry of the correction log. -/
def Chip.logDrop (c : Chip) (l : Nat) : Chip :=
  { c with mem := { c.mem with log := c.mem.log.filter fun e => e.line != l } }

/-- The entry of the log with the earliest first time. -/
def earliest : List CorrEntry → Option CorrEntry
  | [] => none
  | e :: es => match earliest es with
    | none => some e
    | some f => some (if e.first ≤ f.first then e else f)

/-- Retires a line, or finds no spare (R428, R429). -/
def Chip.retireLine (c : Chip) (l m : Nat) : Chip :=
  let used := c.regF (0xA02000 + 4 * m) 4 0
  if used < 16 then
    (((c.setF (0xA02000 + 4 * m) 4 0 (used + 1)).logDrop l).setB 0xA00000 4 true).fire 419
  else
    let c := match c.backing (64 * l) with
      | .backed _ => if (c.line l).refetch then c
        else (c.setLine l { c.line l with refetch := true }).addSat 0xA00000 31 16 1
      | _ => c
    (c.setB 0xA00000 5 true).fire 420

/-- Logs a successful correction of a line (R427) and acts on its third (R428). -/
def Chip.logCorrection (c : Chip) (l : Nat) : Chip :=
  match c.mem.log.find? fun e => e.line == l with
  | some e =>
    let c := { c with mem := { c.mem with log := c.mem.log.map fun x =>
      if x.line == l then { x with count := x.count + 1 } else x } }
    if e.count + 1 ≥ 3 then
      match macroOf (64 * l) with
      | some m => c.retireLine l m
      | none => if e.count + 1 = 3 then (c.memErr 7 0 0 (64 * l)).fire 419 else c
    else c
  | none =>
    let full := decide (c.mem.log.length ≥ 256)
    let kept := if full then match earliest c.mem.log with
        | some e => c.mem.log.filter fun x => x.line != e.line
        | none => c.mem.log
      else c.mem.log
    let c := { c with mem := { c.mem with log := kept ++ [{ line := l, count := 1, first := c.tb3 }] } }
    if full then c.setB 0xA00000 6 true else c

/-! ## Stores -/

/-- A line is rewritten by a store: its log entry goes unless it is pending (R425, R427). -/
def Chip.rewriteLine (c : Chip) (l : Nat) : Chip := if (c.line l).pending then c else c.logDrop l

/-- A full-line write clears poison (R426). -/
def Chip.fullLine (c : Chip) (l : Nat) : Chip := c.setLine l { c.line l with poisoned := false }

/-- Bytes into mapped memory; the log entries of their lines go. -/
def Chip.putBytes (c : Chip) (a : Nat) (bs : List Byte) : Chip :=
  (forL (linesOf a bs.length) (fun l c => c.rewriteLine l) c).setBytes a bs

/-- The whole lines among the bytes of a store. -/
def wholeLines (a n : Nat) : List Nat := (linesOf a n).filter fun l => decide (a ≤ 64 * l) && decide (64 * l + 64 ≤ a + n)
/-- The store of a master into plain memory: by DMA and the host a full line clears poison, and in CONFIG the host's writes into a
backed region count as a reload of their lines (R420, R426). -/
def Chip.masterBytes (c : Chip) (master a : Nat) (bs : List Byte) : Chip :=
  let ls := if !isHost master then [] else if c.isBacked a then linesOf a bs.length else wholeLines a bs.length
  (forL ls (fun l c => c.fullLine l) c).putBytes a bs

/-- Whether a pod is halted: only then may its instruction memory be written (R38). -/
def Chip.podHalted (c : Chip) (n : Nat) : Bool :=
  match (c.pod n).state with
  | .halted => true
  | .doubleTrap => true
  | _ => false

/-- The bytes of a window write go to a place with one of its lines: a full line of the host or a DMA channel clears poison
(R419, R426). -/
def Chip.windowBytes (c : Chip) (master a : Nat) (bs : List Byte) : Chip :=
  (forL (if isHost master then wholeLines a bs.length else []) (fun l c => c.fullLine l) c).putBytes a bs

/-- A write to a halted pod's instruction memory, and to its image copy in the same transfer (R38, R419). -/
def Chip.imemWrite (c : Chip) (master n o : Nat) (bs : List Byte) : Chip :=
  let c := c.windowBytes master (podWin n + 0x40000 + o) bs
  if c.imsrc n = 0 then c
  else
    let d := c.imsrc n + o
    let c := c.windowBytes master d bs
    forL (linesOf d bs.length) (fun l c => c.setLine l { c.line l with noSource := true }) c

/-- The parts of a store, one in each line it touches. -/
def lineParts : (lines : Nat) → (a : Nat) → List Byte → List (Nat × List Byte)
  | 0, _, _ => []
  | _, _, [] => []
  | k + 1, a, bs => (a, bs.take (64 - a % 64)) :: lineParts k (a + (64 - a % 64)) (bs.drop (64 - a % 64))

/-- Whether a master's store to an address outside the register space is made (R38 to R40, R417, R420). -/
def Chip.storable (c : Chip) (master a : Nat) : Bool := match spaceOf a with
  | .imem n => c.podHalted n
  | .cell | .data _ | .dram => !c.isBacked a || (c.inConfig && isHost master)
  | _ => false

/-- A line in handling that a store within one line has to wait for (R423): its own, or that of the image copy it also writes. -/
def Chip.storeWaits (c : Chip) (a : Nat) : Option Nat :=
  if c.mem.handling.contains (a / 64) then some (a / 64)
  else match spaceOf a with
    | .imem n =>
      let d := (c.imsrc n + (a - podWin n - 0x40000)) / 64
      if c.imsrc n != 0 && c.mem.handling.contains d then some d else none
    | _ => none

/-- A store within one line: it is made, or waits for the end of a handling (R423). -/
def Chip.storePart (c : Chip) (master a : Nat) (bs : List Byte) : Chip := match c.storeWaits a with
  | some l => { c with mem := { c.mem with held := c.mem.held ++ [{ line := l, master := master, addr := a, bytes := bs }] } }
  | none => match spaceOf a with
    | .imem n => c.imemWrite master n (a - podWin n - 0x40000) bs
    | _ => c.masterBytes master a bs

/-- A store of a master to memory outside the register space (R38 to R40, R417, R420), line by line. The Bool says whether it was
made whole; else the first place it may not write is reported. -/
def Chip.memStore (c : Chip) (master kind a : Nat) (bs : List Byte) : Chip × Bool :=
  let ps := lineParts (linesOf a bs.length).length a bs
  let d := forL ps (fun p d => if c.storable master p.1 then d.storePart master p.1 p.2 else d) c
  match ps.find? fun p => !c.storable master p.1 with
  | none => (d, true)
  | some p => (d.badStore master kind p.1, false)
/-- A store of an engine of the module (R420). -/
def Chip.engineStore (c : Chip) (a : Nat) (bs : List Byte) : Chip := (c.memStore 44 1 a bs).1

/-! ## The end of a correction (R421, R423) -/

/-- The write-back of one line: golden content, the log, event 416. The stores that waited for the line are made after it. -/
def Chip.writeBack (c : Chip) (l : Nat) : Chip :=
  if c.mem.handling.contains l then
    let hs := c.mem.held.filter fun h => h.line == l
    let c := { c with mem := { c.mem with
      handling := c.mem.handling.filter (· != l), held := c.mem.held.filter fun h => h.line != l } }
    let c := match c.backing (64 * l) with
      | .backed g => ((c.setBytes (64 * l) (c.goldenBytes g)).logCorrection l).memCorr
      | _ => c
    forL hs (fun h c => c.storePart h.master h.addr h.bytes) c
  else c
/-- The write-back that ends a correction (R421), after that of a DRAM source corrected with it; waiting accesses go on.
(Model: DEDUCED, log 87) -/
def Chip.correctionDone (c : Chip) (l : Nat) : Chip :=
  if c.mem.handling.contains l then
    match c.backing (64 * l) with
    | .backed (.dram d) => (c.writeBack (d / 64)).writeBack l
    | _ => c.writeBack l
  else c

/-- A store whose transfer failed parity twice: not made, the line poisoned, event 417 (R414). A register has no line: MEM_ERR
stands. (Model: DEDUCED, log 87) -/
def Chip.storeParityFail (c : Chip) (a : Nat) : Chip := match spaceOf a with
  | .cell | .data _ | .imem _ | .dram => (c.poisonLine (a / 64)).memUncorr 6 2 0 a
  | _ => c.uncorr

/-- The bytes a load of mapped memory outside the register space returns. -/
def Chip.loadBytes (c : Chip) (a n : Nat) : List Byte :=
  match spaceOf a with
  | .crcArea => (List.range n).map fun i => BitVec.ofNat 8 (c.crcWord (a + i) / 256 ^ ((a + i) % 4))
  | _ => c.bytesAt a n

end Sys2Proof.Machine
end

