-- ==== Sys2Proof/Machine/PodTrap.lean ====
section
/-!
DEFINITION. Taking a trap in a pod, and the return from one (R68 to R74), each as ONE operation on the pod's own state.
-/
namespace Sys2Proof.Machine

/-- The GET result layout of a held sprout (R76). -/
def sproutWord (slot : Nat) (s : Sprout) : W64 :=
  BitVec.ofNat 64 (s.flags.toNat * 2 ^ 32 + slot * 2 ^ 16 + s.tb.toNat * 2 ^ 12 + s.task)
/-- The GET result with NONE set. -/
def noSproutWord : W64 := 0x8000#64

def Pod.slot (p : Pod) (k : Nat) : Option Slot := tabGet (fun _ => none) p.slots k
def Pod.setSlot (p : Pod) (k : Nat) (x : Option Slot) : Pod := { p with slots := tabPut (fun _ => none) p.slots k x }
/-- The occupied slots, ascending. -/
def Pod.held (p : Pod) : List (Nat × Slot) := (List.range 8).filterMap fun k => (p.slot k).map fun s => (k, s)
/-- The most recently taken sprout not yet released (R74). -/
def Pod.lastTaken (p : Pod) : Option (Nat × Slot) :=
  (p.held.filter fun x => x.2.taken).foldl (fun m x => match m with
    | some y => if y.2.takenAt < x.2.takenAt then some x else m
    | none => some x) none
/-- ESPROUT for the traps that name no sprout of their own (R74). -/
def Pod.espDefault (p : Pod) : W64 := match p.lastTaken with
  | some (k, s) => sproutWord k s.sprout
  | none => noSproutWord
/-- The oldest dispatched sprout not yet taken (R76). -/
def Pod.oldestUntaken (p : Pod) : Option (Nat × Slot) :=
  (p.held.filter fun x => !x.2.taken).foldl (fun m x => match m with
    | some y => if x.2.order < y.2.order then some x else m
    | none => some x) none

/-- Whether an LDSTV still has a store to the own memories to make. -/
def Pod.storesOwn (p : Pod) : Bool := p.loads.any fun l => match l.mate with
  | .localStore _ _ _ => true
  | _ => false

/-- CYCLE goes on to a count not below what it was: how many CK_POD cycles passed is a free value. (Model: DEDUCED, log 100) -/
def Pod.count (p : Pod) (free : W64) : Pod :=
  if p.started then { p with cyc := if p.cyc < free then free else p.cyc + 1 } else p
/-- CYCLE as a halted pod shows it: of a pod that a double trap halted, a free count not below what it was.
(Model: DESIGN CHOICE, log 14; DEDUCED, log 100) -/
def Pod.counted (p : Pod) : Pod :=
  if p.state = .doubleTrap then
    p.count (BitVec.ofInt 64 (Config.freeResult 201 [p.cyc.toNat, p.pc.toNat, p.stamp, p.lastCause]))
  else p

/-- Whether a handler runs (PSTAT.TRAP_ACT). -/
def Pod.inHandler (p : Pod) : Bool := p.pstat.toNat.testBit 2

/-- The scalar register write of a pod: s0 discards it (R41). -/
def Pod.sset (p : Pod) (r : Nat) (v : W64) : Pod :=
  if r = 0 then p else { p with sreg := tabPut (fun _ => 0) p.sreg r v }

/-- After an instruction: levels whose body ends here complete an iteration, innermost first (R65, R67). The level list
is given innermost first; the answer is the next pc and the levels left, innermost first. (Model: DEDUCED, log 25) -/
def loopBack (pc : BitVec 16) : List RepLevel → BitVec 16 × List RepLevel
  | [] => (pc + 4, [])
  | l :: rest =>
    if l.last = pc then
      if l.cnt ≤ 1 then loopBack pc rest else (l.first, { l with cnt := l.cnt - 1 } :: rest)
    else (pc + 4, l :: rest)
/-- The pod moves past the instruction at its pc. -/
def Pod.retire (p : Pod) : Pod :=
  let r := loopBack p.pc p.levels.reverse
  { p with pc := r.1, levels := r.2.reverse }

/-- A GET completes with a dispatched sprout: its result and the next instruction (R76). -/
def Pod.getDone (p : Pod) (rd k : Nat) (x : Slot) : Pod := (p.sset rd (sproutWord k x.sprout)).retire

/-- A pod sleeping in GET completes it with the sprout it received (R117). -/
def Pod.wake (p : Pod) : Pod := match p.waking with
  | none => p
  | some k => match p.slot k with
    | none => { p with waking := none }
    | some x => { p.getDone p.getRd k x with waking := none, state := if p.inHandler then .handler else .running }

/-- The repeat counts in the EREP layout (R53 map). -/
def repCounts (l : List RepLevel) : W64 :=
  BitVec.ofNat 64 ((l.zipIdx).foldl (fun acc x => acc + x.1.cnt * 2 ^ (16 * x.2)) 0)

/-- The vector of a cause (R68). -/
def trapVector (cause : Nat) : BitVec 16 := BitVec.ofNat 16 (cause * 0x40)

/-- Trap entry (R69): the saved registers, the closed repeat levels, TRAP_ACT, and the vector. `fields` holds
ACC_KIND and ACC_NUM in place. -/
def Pod.enterTrap (p : Pod) (cause fields : Nat) (epc : BitVec 16) (eaddr : Nat) (esp : W64) : Pod :=
  { p with
    epc := epc.zeroExtend 64
    ecause := BitVec.ofNat 64 (p.levels.length * 2 ^ 12 + fields + cause)
    eaddr := BitVec.ofNat 64 (eaddr % 2 ^ 40)
    erep := repCounts p.levels
    esprout := esp
    bounds := p.levels.map fun l => (l.first, l.last)
    levels := []
    pstat := p.pstat ||| 4#64
    pc := trapVector cause
    lastCause := cause
    state := if p.state = .halted then .halted else .handler }

/-- A synchronous trap (causes 1 to 5) at the instruction at `pc`: trap entry, or a double trap (R72), which halts the
pod without branching. (Model: DESIGN CHOICE, log 102) -/
def Pod.syncTrap (p : Pod) (cause addr : Nat) : Pod :=
  if p.inHandler then { p with state := .doubleTrap, accept := 0, lastCause := cause }
  else p.enterTrap cause 0 p.pc addr p.espDefault

/-- The tick-overrun trap (R27, R68, R73): taken at the next instruction, or held pending in a handler or a halted
pod. A pod sleeping in GET wakes for it with EPC at the GET. (Model: DEDUCED, log 31; DESIGN CHOICE, log 103; DESIGN CHOICE, log 111) -/
def Pod.overrunTrap (p : Pod) (esp : W64) : Pod :=
  match p.state with
  | .halted => { p with pendOverrun := some esp }
  | .doubleTrap => { p with pendOverrun := some esp }
  | .handler => { p with pendOverrun := some esp }
  | _ =>
    if p.inHandler then { p with pendOverrun := some esp } else let q := p.wake; q.enterTrap 6 0 q.pc 0 esp

/-- The repeat levels that ERET reopens (R70). -/
def Pod.reopened (p : Pod) : List RepLevel :=
  let depth := bitsOf p.ecause.toNat 15 12
  let n := min depth p.bounds.length
  let lv := (p.bounds.take n).zipIdx.map fun x =>
    ({ cnt := bitsOf p.erep.toNat (16 * x.2 + 15) (16 * x.2), first := x.1.1, last := x.1.2 } : RepLevel)
  lv.takeWhile fun l => l.cnt != 0

/-- Whether a pending flag trap still stands: its flag and its enable are both 1 (R73). -/
def Pod.flagTrapStands (p : Pod) (fields : W64) : Bool :=
  let f := fields.toNat
  if bitsOf f 7 0 = 8 then p.pstat.toNat.testBit 3 && p.trapen.toNat.testBit 2
  else
    let n := bitsOf f 10 8
    if f.testBit 11 then p.pstat.toNat.testBit (24 + n) && p.trapen.toNat.testBit 1
    else p.pstat.toNat.testBit (16 + n) && p.trapen.toNat.testBit 0

/-- ERET (R70, R73): the return, or a pending trap in place of it. (Model: DESIGN CHOICE, log 101) -/
def Pod.eret (p : Pod) : Pod :=
  let back := { p with
    pc := BitVec.ofNat 16 (p.epc.toNat % 2 ^ 16 / 4 * 4)
    levels := p.reopened
    pstat := p.pstat &&& ~~~ 4#64
    state := if p.state = .halted then .halted else .running }
  match p.pendOverrun with
  | some esp => ({ back with pendOverrun := none }).enterTrap 6 0 back.pc 0 esp
  | none => match p.pendFlag with
    | some f =>
      let back := { back with pendFlag := none }
      if p.flagTrapStands f then
        back.enterTrap (bitsOf f.toNat 7 0) (f.toNat / 256 * 256) back.pc 0 back.espDefault
      else back
    | none => back

end Sys2Proof.Machine
end

