-- ==== Sys2Proof/Machine/Sched.lean ====
section
/-!
DEFINITION. The hardware scheduler (R109 to R131, R501, R502): one CK_FAB cycle in its fixed order, descriptor and flow
writes, host posts, deadline processing, and the tick plan image.
-/
namespace Sys2Proof.Machine

/-! ## Registers of the block -/

def taskReg (t w : Nat) : Nat := 0x120000 + 32 * t + 4 * w
def oflowReg (f w : Nat) : Nat := 0x108000 + 16 * f + 4 * w
def oflowStat (f : Nat) : Nat := 0x108100 + 4 * f

/-- Sets a bit of SCH_STAT. -/
def Chip.schStat (c : Chip) (b : Nat) : Chip := c.setB 0x100000 b true
/-- SCH_STAT.CFG_IGN. -/
def Chip.schIgn (c : Chip) : Chip := c.schStat 3

/-- The scheduler with a change. -/
def Chip.modSched (c : Chip) (f : Sched → Sched) : Chip := { c with sched := f c.sched }

/-- A task of the loaded plan. -/
def Chip.tbTask (c : Chip) (t : Nat) : Option TbTask := match c.sched.plan with
  | some p => p.tasks.find? fun x => x.task == t
  | none => none
def Chip.isTb (c : Chip) (t : Nat) : Bool := (c.tbTask t).isSome
def TbRun.zero : TbRun := { stand := .notDue, prevOver := false }
def Chip.tbRun (c : Chip) (t : Nat) : TbRun := tabGet (fun _ => TbRun.zero) c.sched.tb t
def Chip.setTbRun (c : Chip) (t : Nat) (r : TbRun) : Chip :=
  c.modSched fun s => { s with tb := tabPut (fun _ => TbRun.zero) s.tb t r }
def Chip.setStand (c : Chip) (t : Nat) (x : TbStand) : Chip := c.setTbRun t { c.tbRun t with stand := x }

/-! ## The sprout store -/

def Sched.queue (s : Sched) (q : Nat) : List Sprout := tabGet (fun _ => []) s.queues q
def Sched.wait (s : Sched) (f : Nat) : List Sprout := tabGet (fun _ => []) s.waiting f
def Sched.setQueue (s : Sched) (q : Nat) (l : List Sprout) : Sched := { s with queues := tabPut (fun _ => []) s.queues q l }
def Sched.setWait (s : Sched) (f : Nat) (l : List Sprout) : Sched := { s with waiting := tabPut (fun _ => []) s.waiting f l }
def Sched.holder (s : Sched) (f : Nat) : Option (Nat × Nat) := tabGet (fun _ => none) s.holders f
def Sched.setHolder (s : Sched) (f : Nat) (h : Option (Nat × Nat)) : Sched :=
  { s with holders := tabPut (fun _ => none) s.holders f h }

/-- Sprouts of a table of lists that satisfy a test. -/
def countIn (t : Tab (List Sprout)) (p : Sprout → Bool) : Nat :=
  t.foldl (fun n e => n + (e.2.filter p).length) 0
/-- Sprouts held in pod slots that satisfy a test. -/
def Chip.heldCount (c : Chip) (p : Sprout → Bool) : Nat :=
  c.pods.foldl (fun n e => n + (e.2.held.filter fun x => p x.2.sprout).length) 0
/-- Sprouts in the store: queued, waiting in a flow, or held in a slot (R111). -/
def Chip.sproutCount (c : Chip) (p : Sprout → Bool) : Nat :=
  countIn c.sched.queues p + countIn c.sched.waiting p + c.heldCount p
/-- Outstanding sprouts of a task (R109). -/
def Chip.outOf (c : Chip) (t : Nat) : Nat := c.sproutCount fun s => s.task == t

/-! ## Step 1: flag settings (R113, R114, R123) -/

/-- Sets flags of a task. (Model: DEDUCED, log 28) -/
def Chip.orFlags (c : Chip) (t : Nat) (bits : W32) : Chip := c.setReg (taskReg t 3) (c.reg (taskReg t 3) ||| bits)

/-- A flag setting from outside the scheduler: one that names bit 31 of a tick-bound task is discarded (R123). -/
def Chip.applySetting (c : Chip) (t : Nat) (bits : W32) : Chip :=
  if bit bits 31 && c.isTb t then c else c.orFlags t bits

/-- The settings of a list walk, and whether it ended at its 256th entry (R113). -/
def listWalk (c : Chip) : (fuel : Nat) → (i : Nat) → List (Nat × W32) × Bool
  | 0, _ => ([], true)
  | n + 1, i =>
    let e := c.reg (0x101000 + 4 * (i % 4096))
    let x := (fld e 11 0, BitVec.ofNat 32 (2 ^ fld e 16 12))
    if bit e 31 then ([x], false) else let r := listWalk c n (i + 1); (x :: r.1, r.2)

/-- The settings one occurrence of a source makes. -/
def routeOf (c : Chip) (n : Nat) : List (Nat × W32) × Bool :=
  let r := c.reg (0x100800 + 4 * n)
  if !bit r 31 then ([], false)
  else if bit r 30 then listWalk c 256 (fld r 11 0)
  else ([(fld r 11 0, BitVec.ofNat 32 (2 ^ fld r 16 12))], false)

/-- The occurrences among the arrivals, in ascending source number. -/
def sourcesOf (l : List Arrival) : List Nat :=
  sortBy id (l.filterMap fun a => match a with | .source n => some n | .post _ _ => none)
/-- The POSTs among the arrivals, in order of arrival. -/
def postsOf (l : List Arrival) : List (Nat × W32) :=
  l.filterMap fun a => match a with | .post t m => some (t, m) | .source _ => none

/-- Whether a tick-bound task is shed at the level in force (R127). (Model: DESIGN CHOICE, log 104) -/
def Chip.isShed (c : Chip) (t : TbTask) : Bool := match c.sched.plan with
  | some p => match p.levels[c.regF 0x10002C 27 24]? with
    | some l => t.shed != 0 && decide (t.shed ≤ l.threshold)
    | none => false
  | none => false

/-- Sets the release flag of a tick-bound task that is due and not yet released (R123). -/
def Chip.releaseTb (c : Chip) (t : TbTask) : Chip :=
  if (c.tbRun t.task).stand = .due then (c.orFlags t.task 0x80000000#32).setStand t.task .released else c

/-- Releases by event source 1 or 2 (R123). -/
def Chip.releaseKind (c : Chip) (k : Nat) : Chip := match c.sched.plan with
  | some p => forL (p.tasks.filter fun t => t.release == k) (fun t c => c.releaseTb t) c
  | none => c

/-- Step 1 of a cycle. -/
def Chip.schedStep1 (c : Chip) : Chip :=
  let src := sourcesOf c.sched.arrivals
  let routed := src.map (routeOf c)
  let c := if routed.any (·.2) then c.schStat 2 else c
  let all := c.sched.carry ++ (routed.map (·.1)).flatten ++ postsOf c.sched.arrivals
  let own := c.sched.nextFlags
  let rel := c.sched.nextRel
  let c := c.modSched fun s => { s with arrivals := [], carry := all.drop 64, nextFlags := [], nextRel := [] }
  let c := forL (all.take 64 ++ own) (fun x c => c.applySetting x.1 x.2) c
  let c := forL rel (fun t c => match c.tbTask t with
    | some t => c.releaseTb t
    | none => c) c
  let c := if src.contains 1 then c.releaseKind 1 else c
  if src.contains 2 then c.releaseKind 2 else c

/-! ## Releases of flows and items -/

/-- A sprout ceases to be past its atomic flow (R120). -/
def Chip.freeFlow (c : Chip) (s : Sprout) : Chip := match s.aflow with
  | some f => match c.sched.holder f with
    | some (_, id) => if id = s.id then c.modSched fun x => x.setHolder f none else c
    | none => c
  | none => c

/-- An ordered item becomes complete (R122). -/
def Chip.completeItem (c : Chip) (s : Sprout) (outcome : W32) (cancelled : Bool) : Chip := match s.item with
  | some (f, q) => c.modSched fun x => { x with items := x.items.map fun i =>
      if i.flow == f && i.seq == q then { i with complete := true, outcome := outcome, cancelled := cancelled } else i }
  | none => c

/-- A sprout leaves the store by removal: released for its flow, its item cancelled (R117, R122). -/
def Chip.dropSprout (c : Chip) (s : Sprout) : Chip := (c.freeFlow s).completeItem s 0 true

/-- Removes every sprout of a task that is queued, waiting in a flow, or in a slot not yet taken (R115 step 2). The
Bool says whether any was removed. -/
def Chip.removeSprouts (c : Chip) (t : Nat) : Chip × Bool :=
  let gone := (c.sched.queues.map (·.2)).flatten.filter (·.task == t) ++
    (c.sched.waiting.map (·.2)).flatten.filter (·.task == t)
  let c := c.modSched fun s => { s with
    queues := (s.queues.map fun e => (e.1, e.2.filter (·.task != t))).filter fun e => !e.2.isEmpty
    waiting := (s.waiting.map fun e => (e.1, e.2.filter (·.task != t))).filter fun e => !e.2.isEmpty }
  let inSlots := (List.range 32).flatMap fun n => ((c.pod n).held.filter fun x =>
    x.2.sprout.task == t && !x.2.taken).map fun x => (n, x)
  let c := forL inSlots (fun x c => c.modPod x.1 fun p => p.setSlot x.2.1 none) c
  let all := gone ++ inSlots.map fun x => x.2.2.sprout
  (forL all (fun s c => c.dropSprout s) c, !all.isEmpty)

/-! ## Step 2: CANCELs (R115, R116, R29) -/

def Chip.applyCancel (c : Chip) (t : Nat) (mask : W32) : Chip :=
  let flags := c.reg (taskReg t 3)
  let c := c.setReg (taskReg t 3) (flags &&& ~~~ mask)
  let r := c.removeSprouts t
  let hit := r.2 || (bit flags 31 && bit mask 31)
  if c.isTb t && (c.tbRun t).stand == .released && hit then r.1.setStand t .cancelled else r.1

def Chip.schedStep2 (c : Chip) : Chip :=
  let l := c.sched.cancels
  forL l (fun x c => c.applyCancel x.1 x.2) (c.modSched fun s => { s with cancels := [] })

/-! ## Step 3: DONEs, ordered releases (R115, R122) -/

/-- The tasks that an on-time DONE of `t` releases in the next cycle (R123). -/
def Chip.chainFrom (c : Chip) (t : Nat) : List Nat := match c.sched.plan with
  | some p => (p.tasks.filter fun x => x.release == 3 && x.pred == t).map (·.task)
  | none => []

/-- One DONE: its slot, flow and outstanding count are freed and its item is complete. `late` marks the deadline
cycle, whose DONEs are not on time (R26). (Model: DEDUCED, log 92; DEDUCED, log 94; DESIGN CHOICE, log 104) -/
def Chip.applyDone (c : Chip) (late : Bool) (pod slot : Nat) (outcome : W32) : Chip :=
  match (c.pod pod).slot slot with
  | none => c
  | some x =>
    let s := x.sprout
    let c := c.modPod pod fun p => p.setSlot slot none
    let c := (c.freeFlow s).completeItem s outcome false
    if c.isTb s.task && s.tb && (c.tbRun s.task).stand == .released && !late then
      let c := (c.setStand s.task .doneOnTime).setB (taskReg s.task 4) 1 false
      c.modSched fun y => { y with nextRel := y.nextRel ++ c.chainFrom s.task }
    else c

/-- Writes one release record and advances RIDX and NEXT_REL (R122, R501). (Model: DESIGN CHOICE, log 104) -/
def Chip.writeRecord (c : Chip) (f : Nat) (i : Item) : Chip :=
  let len := c.regF (oflowReg f 1) 11 0
  let ridx := c.regF (oflowStat f) 27 16
  let a := cellBase + c.regF (oflowReg f 0) 22 0 + 8 * ridx
  let word := i.outcome.toNat * 2 ^ 32 + i.cancelled.toNat * 2 ^ 31 + i.seq
  let c := c.engineStore a (toBytes 8 word)
  let c := c.setF (oflowStat f) 27 16 (if len = 0 then 0 else (ridx + 1) % len)
  c.setReg (oflowReg f 3) (BitVec.ofNat 32 ((i.seq + 1) % 2 ^ 31))

/-- Releases the complete items of a flow in sequence; the Bool says whether a record was written. -/
def Chip.releaseFlow (c : Chip) (f : Nat) : (fuel : Nat) → (wrote : Bool) → Chip
  | 0, _ => c
  | n + 1, wrote =>
    match c.sched.items.find? fun i => i.flow == f && i.complete && i.seq == (c.reg (oflowReg f 3)).toNat with
    | some i =>
      let c := c.writeRecord f i
      (c.modSched fun s => { s with items := s.items.filter fun j => !(j.flow == f && j.seq == i.seq) }).releaseFlow f n true
    | none =>
      let w := c.reg (oflowReg f 2)
      if wrote && bit w 17 then
        c.modSched fun s => { s with nextFlags := s.nextFlags ++ [(fld w 11 0, BitVec.ofNat 32 (2 ^ fld w 16 12))] }
      else c

def Chip.schedStep3 (c : Chip) (deadline : Bool) : Chip :=
  let l := c.sched.dones
  let c := forL l (fun x c => c.applyDone deadline x.1 x.2.1 x.2.2) (c.modSched fun s => { s with dones := [] })
  forN 16 (fun f c => c.releaseFlow f 1025 false) c

/-! ## The publish deadline (R26 to R29, R124) -/

/-- The pod and slot that hold a taken sprout of a task. -/
def Chip.takenBy (c : Chip) (t : Nat) : Option (Nat × Nat × Sprout) :=
  ((List.range 32).flatMap fun n => ((c.pod n).held.filter fun x => x.2.sprout.task == t && x.2.taken).map fun x =>
    (n, x.1, x.2.sprout)).head?

/-- A task overran: a second consecutive instance is a cell-level fault (R28). -/
def Chip.overran (c : Chip) (t : TbTask) : Chip :=
  let again := (c.tbRun t.task).prevOver
  let c := (c.setTbRun t.task { stand := .overrun, prevOver := true }).setB (taskReg t.task 4) 1 true
  let c := { c with stf := true }
  if again then
    let c := ((c.setB 0x110 2 true).setF 0x110 27 16 t.task).fire 7
    { c with
      armFaults := c.armFaults ++ (List.range 16).filter (fun a => t.scope.testBit a && !c.armFaults.contains a)
      wantDegraded := true }
  else c

/-- The deadline's treatment of one tick-bound task (R124). (Model: DEDUCED, log 94) -/
def Chip.deadlineTask (c : Chip) (t : TbTask) : Chip :=
  match (c.tbRun t.task).stand with
  | .doneOnTime =>
    let c := c.setTbRun t.task { stand := .notDue, prevOver := false }
    c.modSched fun s => { s with plan := s.plan.map fun p => { p with bufs := p.bufs.map fun b =>
      if b.owner == t.task then { b with published := !b.published } else b } }
  | .due | .released =>
    match c.takenBy t.task with
    | some (n, k, s) => (c.overran t).modPod n fun p => p.overrunTrap (sproutWord k s)
    | none =>
      let c := (c.removeSprouts t.task).1
      (c.setB (taskReg t.task 3) 31 false).overran t
  | _ => c

/-- The tasks of a plan in an order that the spec leaves open: it decides OVR_TASK when several overrun again at one deadline, and the
sprout of a pod's overrun trap. (Model: DESIGN CHOICE, log 14; DEDUCED, log 31) -/
def Chip.deadlineOrder (c : Chip) (p : Plan) : List TbTask :=
  sortBy (fun t => (Config.freeResult 203 [Int.ofNat c.draws, Int.ofNat t.task]).toNat) (sortBy (·.task) p.tasks)

/-- Deadline processing, after step 3 of the deadline cycle; event 6 follows when any task overran. (Model: DESIGN CHOICE, log 13) -/
def Chip.deadline (c : Chip) : Chip := match c.sched.plan with
  | none => c
  | some p =>
    let late := p.tasks.any fun t => match (c.tbRun t.task).stand with
      | .due => true
      | .released => true
      | _ => false
    let c := forL (c.deadlineOrder p) (fun t c => c.deadlineTask t) c.draw.2
    if late then c.fire 6 else c

/-- At t₀ every tick-bound task's instance of the tick begins (R123, R127). -/
def Chip.tickTb (c : Chip) : Chip := match c.sched.plan with
  | none => c
  | some p => forL p.tasks (fun t c =>
      c.setStand t.task (if t.divisor != 0 && c.tick % t.divisor == t.phase then
        (if c.isShed t then .shed else .due) else .notDue)) c

/-- The shed level has changed at the tick boundary: the tasks due in this tick follow the new one (R127). -/
def Chip.reshed (c : Chip) : Chip := match c.sched.plan with
  | none => c
  | some p => forL p.tasks (fun t c => match (c.tbRun t.task).stand with
      | .due => if c.isShed t then c.setStand t.task .shed else c
      | .shed => if c.isShed t then c else c.setStand t.task .due
      | _ => c) c

/-! ## Step 4: creation (R110, R111, R121) -/

/-- Whether a task's flags satisfy its wait mode (R110). -/
def Chip.taskReady (c : Chip) (t : Nat) : Bool :=
  let w := c.reg (taskReg t 0)
  let f := c.reg (taskReg t 3) &&& w
  w != 0 && (if c.regB (taskReg t 2) 30 then f == w else f != 0)

/-- Entries of the reorder store a flow holds (USED). -/
def Chip.itemsUsed (c : Chip) (f : Nat) : Nat := (c.sched.items.filter fun i => i.flow == f).length

/-- Evaluates one enabled task; answers the sprout it creates. (Model: DESIGN CHOICE, log 104) -/
def Chip.evalTask (c : Chip) (t : Nat) (fresh : List Sprout) : Chip × List Sprout :=
  if !c.taskReady t then (c.setB (taskReg t 4) 0 false, fresh)
  else
    let d := c.reg (taskReg t 2)
    let kind := fld d 28 27
    let flow := fld d 26 16
    let total := c.sproutCount (fun _ => true) + fresh.length
    let full := decide (total ≥ 8192)
    let room := decide (c.outOf t + (fresh.filter (·.task == t)).length < fld d 15 12 + 1)
    let f := flow % 16
    let quota := c.regF (oflowReg f 1) 26 16
    let order := kind != 2 || (c.regB (oflowReg f 0) 31 && decide (c.itemsUsed f < quota)
      && decide (c.sched.items.length < 1024))
    if full || !room || !order then
      let c := c.setB (taskReg t 4) 0 true
      (if full then c.schStat 1 else c, fresh)
    else
      let flags := c.reg (taskReg t 3)
      let seq := tabGet (fun _ => 0) c.sched.nextSeq f
      let s : Sprout :=
        { id := c.sched.nextId, task := t, tb := c.isTb t, flags := flags,
          item := if kind = 2 then some (f, seq) else none,
          aflow := if kind = 1 then some flow else none, queue := fld d 5 0 }
      let c := c.setReg (taskReg t 3) (flags &&& ~~~ (c.reg (taskReg t 0)))
      let c := (c.setB (taskReg t 4) 0 false).modSched fun x => { x with nextId := x.nextId + 1 }
      let c := if kind = 2 then c.modSched fun x => { x with
          nextSeq := tabPut (fun _ => 0) x.nextSeq f ((seq + 1) % 2 ^ 31)
          items := x.items ++ [{ flow := f, seq := seq, complete := false, outcome := 0, cancelled := false }] }
        else c
      (c, fresh ++ [s])

/-- The enabled tasks, ascending. -/
def Chip.enabledTasks (c : Chip) : List Nat :=
  c.regs.filterMap fun e =>
    if 0x120000 ≤ e.1 ∧ e.1 < 0x140000 ∧ e.1 % 32 = 8 ∧ bit e.2 31 = true then some ((e.1 - 0x120000) / 32) else none

def Chip.schedStep4 (c : Chip) : Chip × List Sprout :=
  c.enabledTasks.foldl (fun r t => r.1.evalTask t r.2) (c, [])

/-! ## Step 5: flows (R120) -/

/-- A sprout enters its home queue. -/
def Sched.enqueue (s : Sched) (x : Sprout) : Sched := s.setQueue x.queue (s.queue x.queue ++ [x])

/-- A free flow passes its oldest waiting sprout on. (Model: DEDUCED, log 31) -/
def Sched.advanceFlow (s : Sched) (f : Nat) : Sched := match s.holder f, s.wait f with
  | none, x :: rest => ((s.setWait f rest).setHolder f (some (x.task, x.id))).enqueue x
  | _, _ => s

/-- A new sprout goes on by the rules for flows. -/
def Sched.enterFlow (s : Sched) (x : Sprout) : Sched := match x.aflow with
  | none => s.enqueue x
  | some f => match s.holder f with
    | none => if (s.wait f).isEmpty then (s.setHolder f (some (x.task, x.id))).enqueue x
      else s.setWait f (s.wait f ++ [x])
    | some _ => s.setWait f (s.wait f ++ [x])

/-- Step 5 of the scheduling cycle: the sprouts of freed flows and the new ones (R120). (Model: DESIGN CHOICE, log 104) -/
def Chip.schedStep5 (c : Chip) (fresh : List Sprout) : Chip :=
  let c := c.modSched fun s => forL (s.waiting.map (·.1)) (fun f s => s.advanceFlow f) s
  c.modSched fun s => forL fresh (fun x s => s.enterFlow x) s

/-! ## Step 6: dispatch (R117, R118) -/

/-- Whether a pod may receive a sprout; `got` lists the pods served in this cycle. -/
def Chip.podEligible (c : Chip) (got : List Nat) (n : Nat) : Bool :=
  let p := c.pod n
  !c.podHalted n && p.accept != 0 && p.oldestUntaken.isNone && decide (p.held.length < 8) && !got.contains n

/-- Whether an eligible pod may take a queue's head. -/
def Chip.podTakes (c : Chip) (got : List Nat) (q : Nat) (s : Sprout) (n : Nat) : Bool :=
  c.podEligible got n && (c.pod n).accept.toNat.testBit q && bit (c.reg (taskReg s.task 1)) n

/-- The pods that can take a queue's head, sleeping pods first, ascending within each group. -/
def Chip.takers (c : Chip) (got : List Nat) (q : Nat) : List Nat := match c.sched.queue q with
  | [] => []
  | s :: _ =>
    let l := (List.range 32).filter fun n => c.podTakes got q s n
    let asleep := fun n => (c.pod n).state == .sleeping && (c.pod n).waking.isNone
    l.filter asleep ++ l.filter fun n => !asleep n

def Chip.servable (c : Chip) (got : List Nat) (q : Nat) : Bool := !(c.takers got q).isEmpty

def Sched.creditOf (s : Sched) (q : Nat) : Nat := tabGet (fun _ => 0) s.credit q
def Chip.qWeight (c : Chip) (q : Nat) : Nat := c.regF (0x100100 + 4 * q) 7 0

/-- The weighted round robin over Q16 to Q63 (R118). -/
def Chip.wrrPick (c : Chip) (got : List Nat) : Chip × Option Nat :=
  let qs := (List.range 48).map (· + 16)
  let c := if qs.any fun q => c.servable got q && decide (c.sched.creditOf q > 0) then c
    else c.modSched fun s => { s with credit := forL qs (fun q t => tabPut (fun _ => 0) t q (c.qWeight q)) s.credit }
  let order := (List.range 48).map fun j => 16 + (c.sched.wrrPtr - 16 + j) % 48
  match order.find? fun q => c.servable got q && decide (c.sched.creditOf q > 0) with
  | some q => (c.modSched fun s => { s with wrrPtr := q }, some q)
  | none => (c, none)

/-- Places a sprout in a free slot of a pod, which one the spec leaves open; a pod sleeping in GET takes it at once (R117).
(Model: DESIGN CHOICE, log 13; DEDUCED, log 31) -/
def Chip.place (c0 : Chip) (s : Sprout) (n : Nat) : Chip :=
  let d := c0.draw
  let c := d.2
  let p := c.pod n
  let frees := (List.range 8).filter fun k => (p.slot k).isNone
  let k := frees.getD (d.1.toNat % frees.length) 0
  let wakes := p.state == .sleeping && p.waking.isNone
  let x : Slot := { sprout := s, order := p.stamp, taken := wakes, takenAt := p.stamp, doneIssued := false }
  let c := c.setPod n { p.setSlot k (some x) with
    stamp := p.stamp + 1
    waking := if wakes then some k else p.waking }
  (c.setF (taskReg s.task 4) 26 22 n).setF (taskReg s.task 4) 21 19 k

/-- One of the up to four dispatches of a cycle. -/
def Chip.dispatchOne (c : Chip) (got : List Nat) : Chip × Option Nat :=
  let critical := (List.range 16).find? fun q => c.servable got q
  let pick := match critical with
    | some q => (c, some q)
    | none => c.wrrPick got
  match pick.2 with
  | none => (pick.1, none)
  | some q => match pick.1.sched.queue q, pick.1.takers got q with
    | s :: rest, n :: _ =>
      let c := (pick.1.modSched fun x => x.setQueue q rest).place s n
      let c := if q ≥ 16 then c.modSched fun x => { x with
          credit := tabPut (fun _ => 0) x.credit q (x.creditOf q - 1) } else c
      (c, some n)
    | _, _ => (pick.1, none)

def Chip.dispatchN (c : Chip) : (fuel : Nat) → (got : List Nat) → Chip
  | 0, _ => c
  | k + 1, got => match c.dispatchOne got with
    | (c, some n) => c.dispatchN k (n :: got)
    | (c, none) => c

/-! ## One cycle (R115) -/

/-- What the pods' queues deliver in a cycle: at most one operation of each pod, in pod order (R101). A DONE waits for
the stores before it, and for the store of an LDSTV that waits for its load (R61). (Model: DESIGN CHOICE, log 26) -/
def Chip.schedArrive (c : Chip) : Chip :=
  forN 32 (fun n c => match (c.pod n).toSched with
    | [] => c
    | op :: rest =>
      let sent := c
      let c := c.modPod n fun p => { p with toSched := rest }
      match op with
      | .post t m => c.postTask t m
      | .cancel t m => c.modSched fun s => { s with cancels := s.cancels ++ [(t, m)] }
      | .evt e => c.fire (480 + e)
      | .done k o behind =>
        if behind = 0 && !(c.pod n).storesOwn then c.modSched fun s => { s with dones := s.dones ++ [(n, k, o)] } else sent) c

/-- A held sprout is released as cancelled. The instance of a tick-bound task that it was created for is cancelled: no
release flag stands that would create another (R124, R29). (Model: DEDUCED, log 94) -/
def Chip.cancelHeld (c : Chip) (s : Sprout) : Chip :=
  let c := c.dropSprout s
  if s.tb && c.isTb s.task && (c.tbRun s.task).stand == .released && !c.regB (taskReg s.task 3) 31 then
    c.setStand s.task .cancelled
  else c

/-- A pod whose RESTART waited restarts, once every operation that it issued has been applied (R77, POD_CTRL map): none is
on its way, and no flag setting is carried over. Its registers, accumulators, flags, generators and outstanding accesses
stay. (Model: DEDUCED, log 27) -/
def Chip.finishRestart (c : Chip) (n : Nat) : Chip :=
  let p := c.pod n
  let idle := p.toSched.isEmpty && c.sched.carry.isEmpty && !(c.sched.dones.any fun d => d.1 == n)
  if p.pendRestart && idle then
    let gone := p.held.map fun x => x.2.sprout
    let c := c.setPod n { p with
      slots := [], pc := 0, state := if p.run then .running else .halted, started := p.started || p.run, pendRestart := false, pendOverrun := none, pendFlag := none
      cyc := if p.run then 0 else p.counted.cyc
      pstat := p.pstat &&& ~~~ 4#64, levels := [], bounds := [], accept := 0, waking := none
      epc := 0, ecause := 0, eaddr := 0, erep := 0, esprout := 0 }
    forL gone (fun s c => c.cancelHeld s) c
  else c

/-- One CK_FAB cycle of the scheduler; `deadline` marks the cycle in which event source 3 fires. What fires or what the pods
deliver within the cycle is applied in the next one (R114, R115). -/
def Chip.schedCycle (c : Chip) (deadline : Bool) : Chip :=
  let c := ((c.schedStep1).schedStep2).schedStep3 deadline
  let c := if deadline then (c.fire 3).deadline else c
  let r := c.schedStep4
  let c := (r.1.schedStep5 r.2).dispatchN 4 []
  (forN 32 (fun n c => c.finishRestart n) c).schedArrive

/-! ## Descriptor and flow writes (R112, R121, R501) -/

/-- A task with EN 0 is not ready: HELD reads 0 (R110, R111). -/
def Chip.notHeld (c : Chip) (t : Nat) : Chip := c.setB (taskReg t 4) 0 false

/-- A write to a word of a task descriptor. (Model: DEDUCED, log 30) -/
def Chip.taskWrite (c : Chip) (t w : Nat) (v : W32) : Chip :=
  if c.isTb t && !c.inConfig then c.schIgn
  else if w > 2 then c
  else if w < 2 then c.mapWrite (taskReg t w) v
  else
    let old := c.reg (taskReg t 2)
    let moved := fld old 5 0 != fld v 5 0 || fld old 28 16 != fld v 28 16
    if fld v 28 27 = 3 then c.schIgn
    else if moved && decide (c.outOf t > 0) then c.schIgn
    else
      let c := c.mapWrite (taskReg t 2) v
      if bit v 31 then c else c.notHeld t

/-- Whether words 0 and 1 of an ordered flow describe a valid ring (R501). -/
def ringValid (w0 w1 : W32) : Bool :=
  let len := fld w1 11 0
  decide (1 ≤ len) && decide (fld w0 22 0 + 8 * len ≤ 0x800000)

/-- A write to a word of an ordered flow. (Model: DEDUCED, log 30; DESIGN CHOICE, log 104) -/
def Chip.oflowWrite (c : Chip) (f w : Nat) (v : W32) : Chip :=
  let w0 := c.reg (oflowReg f 0)
  let w1 := c.reg (oflowReg f 1)
  let n0 := if w = 0 then v else w0
  let n1 := if w = 1 then v else w1
  if w ≥ 2 then c.mapWrite (oflowReg f w) v
  else if bit n0 31 && !ringValid n0 n1 then c.schIgn
  else if w = 0 && bit w0 31 && !bit v 31 && decide (c.itemsUsed f > 0) then c.schIgn
  else
    let c := c.mapWrite (oflowReg f w) v
    if w = 0 && !bit w0 31 && bit v 31 then
      ((c.setReg (oflowReg f 3) 0).setReg (oflowStat f) 0).modSched fun s =>
        { s with nextSeq := tabPut (fun _ => 0) s.nextSeq f 0 }
    else
      let len := c.regF (oflowReg f 1) 11 0
      if bit n0 31 && len != 0 then c.setF (oflowStat f) 27 16 (c.regF (oflowStat f) 27 16 % len) else c

/-- SCH_HPOST and SCH_HCANCEL (R126). -/
def Chip.hostPost (c : Chip) (v : W32) : Chip :=
  let t := fld v 11 0
  if c.isTb t then c.schStat 4 else c.postTask t (c.reg 0x100008)
def Chip.hostCancel (c : Chip) (v : W32) : Chip :=
  let t := fld v 11 0
  if c.isTb t then c.schStat 4
  else c.modSched fun s => { s with cancels := s.cancels ++ [(t, c.reg 0x100008)] }

/-! ## Windows of the tick (R14, R130) -/

/-- The instant of a window edge of n thousandths, in ns after t₀ (R14). -/
def edgeNs (period n : Nat) : Nat := period * n / 64
def Chip.period (c : Chip) : Nat := c.regF 0x100 13 0
/-- Tick length in ns, rounded down. -/
def Chip.tickNs (c : Chip) : Nat := c.period * 1000 / 64
def Chip.ulStart (c : Chip) : Nat := edgeNs c.period (c.regF 0x104 9 0)
def Chip.ulEnd (c : Chip) : Nat := edgeNs c.period (c.regF 0x104 25 16)
def Chip.dlStart (c : Chip) : Nat := edgeNs c.period (c.regF 0x108 9 0)
def Chip.dlEnd (c : Chip) : Nat := edgeNs c.period (c.regF 0x108 25 16)
def Chip.planFrame (c : Chip) : Nat := c.regF 0x10C 28 16
def Chip.ringCycle (c : Chip) : Nat := c.regF 0x10C 6 0
/-- Length of the pod phase in ns; nothing fits a negative length. -/
def Chip.podPhase (c : Chip) : Int := ((c.dlStart : Int) - 250) - ((c.ulEnd : Int) + 400)
/-- The conditions on a tick configuration (R16, R11); times in 1/64 ns where the period is exact. -/
def Chip.tickValid (c : Chip) : Bool :=
  decide (256 ≤ c.ulStart) && decide (c.ulStart < c.ulEnd) && decide (c.ulEnd + 4550 ≤ c.dlStart)
    && decide (c.dlStart < c.dlEnd) && decide (64 * (c.dlEnd + 500) ≤ c.period * 1000)
    && c.ringCycle != 0 && c.planFrame % c.ringCycle == 0

/-! ## The plan image (R128 to R130, R502) -/

/-- The tick parameters as the plan header lists them. -/
def Chip.tickParams (c : Chip) : List Nat :=
  [c.period, c.regF 0x104 9 0, c.regF 0x104 25 16, c.regF 0x108 9 0, c.regF 0x108 25 16, c.ringCycle, c.planFrame]

/-- Whether a pair of shed level and pod clock step fits the tick, and otherwise the first failing residue (R130). -/
def Chip.fitFail (c : Chip) (p : Plan) (level step : Nat) : Option Nat := match p.levels[level]? with
  | none => some 0
  | some l => (List.range 16).find? fun r =>
      decide (((l.makespan[16 * step + r]?.getD 0 : Nat) : Int) + c.regF 0xB00014 31 16 > c.podPhase)
def Chip.fits (c : Chip) (p : Plan) (level step : Nat) : Bool := (c.fitFail p level step).isNone

/-- The pod clock step in force. -/
def Chip.podStep (c : Chip) : Nat := c.regF 0x110 11 8

/-- Half-open ranges are pairwise disjoint; empty ranges overlap nothing. -/
def disjoint : List (Nat × Nat) → Bool
  | [] => true
  | (a, n) :: l => l.all (fun x => n == 0 || x.2 == 0 || decide (a + n ≤ x.1) || decide (x.1 + x.2 ≤ a)) && disjoint l

/-- No number occurs twice. -/
def distinct : List Nat → Bool
  | [] => true
  | a :: l => !l.contains a && distinct l

def allZero (bs : List Byte) : Bool := bs.all (· == 0)

/-- Format of the header (R129 item 1) beyond its placement. -/
def planHeaderOk (h : List Byte) : Bool :=
  let len := leAt h 8 4
  let nt := leAt h 0x20 2
  let nb := leAt h 0x22 2
  let nl := leAt h 0x24 1
  let secs := [(leAt h 0x28 4, nt * 48), (leAt h 0x2C 4, nb * 16), (leAt h 0x30 4, nl * 324)]
  leAt h 0 4 == 0x4E414C50 && leAt h 4 2 == 1 && leAt h 6 2 == 64
    && len % 4 == 0 && decide (64 ≤ len) && decide (len ≤ 0x100000)
    && decide (1 ≤ nt) && decide (nt ≤ 4096) && decide (nb ≤ 256) && decide (1 ≤ nl) && decide (nl ≤ 9)
    && secs.all (fun s => s.1 % 4 == 0 && decide (64 ≤ s.1) && decide (s.1 + s.2 ≤ len))
    && disjoint secs && allZero ((h.drop 0x1E).take 2) && allZero ((h.drop 0x25).take 3) && allZero ((h.drop 0x34).take 12)

def planTask (e : List Byte) : TbTask :=
  { task := leAt e 0 2, release := leAt e 2 1, divisor := leAt e 3 1, phase := leAt e 4 1, shed := leAt e 5 1,
    pred := leAt e 6 2, scope := leAt e 8 2, wcet := (List.range 5).map fun k => leAt e (0x18 + 4 * k) 4 }
def planBuf (e : List Byte) : PubBuf :=
  { buf := leAt e 0 2, owner := leAt e 2 2, size := leAt e 4 4, half0 := leAt e 8 4, half1 := leAt e 12 4, published := true }
def planLevel (e : List Byte) : ShedLevel :=
  { threshold := leAt e 0 1, makespan := (List.range 80).map fun k => leAt e (4 + 4 * k) 4 }

/-- The entries of a section. -/
def entriesOf (img : List Byte) (off n size : Nat) : List (List Byte) :=
  (List.range n).map fun i => (img.drop (off + size * i)).take size

/-- Field ranges and reserved bytes of a task entry (R128, R129 item 4). -/
def planTaskOk (e : List Byte) : Bool :=
  let t := planTask e
  let d := t.divisor
  decide (t.task < 4096) && decide (1 ≤ t.release) && decide (t.release ≤ 3)
    && [1, 2, 4, 8, 16].contains d && decide (t.phase < d) && (t.release == 3 || t.pred == 0)
    && decide (leAt e 0x0A 1 < 16) && decide (leAt e 0x0B 1 < 3)
    && decide (leAt e 0x0C 2 < if leAt e 0x0B 1 = 2 then 16 else 2048)
    && !(leAt e 0x14 4).testBit 31 && allZero ((e.drop 0x0E).take 2) && allZero ((e.drop 0x2C).take 4)

/-- The chain of predecessors of a task ends: no cycle (R129). -/
def predEnds (ts : List TbTask) : (fuel : Nat) → TbTask → Bool
  | 0, _ => false
  | n + 1, t => if t.release != 3 then true else match ts.find? fun x => x.task == t.pred with
    | some p => p.divisor == t.divisor && p.phase == t.phase && predEnds ts n p
    | none => false

def planBufOk (ts : List TbTask) (b : PubBuf) : Bool :=
  decide (b.buf < 256) && ts.any (·.task == b.owner) && decide (64 ≤ b.size) && decide (b.size ≤ 65536) && b.size % 64 == 0
    && b.half0 % 64 == 0 && b.half1 % 64 == 0 && decide (b.half0 + b.size ≤ 0x800000)
    && decide (b.half1 + b.size ≤ 0x800000)

def rising : List Nat → Bool
  | a :: b :: l => decide (a < b) && rising (b :: l)
  | _ => true

/-- The check of every entry (R129 item 4). -/
def planEntriesOk (img : List Byte) : Bool :=
  let te := entriesOf img (leAt img 0x28 4) (leAt img 0x20 2) 48
  let ts := te.map planTask
  let bs := (entriesOf img (leAt img 0x2C 4) (leAt img 0x22 2) 16).map planBuf
  let le := entriesOf img (leAt img 0x30 4) (leAt img 0x24 1) 324
  let ls := le.map planLevel
  te.all planTaskOk && distinct (ts.map (·.task)) && distinct (bs.map (·.buf)) && ts.all (predEnds ts (ts.length + 1))
    && bs.all (planBufOk ts) && disjoint (bs.flatMap fun b => [(b.half0, b.size), (b.half1, b.size)])
    && le.all (fun e => allZero ((e.drop 1).take 3)) && rising (ls.map (·.threshold))
    && (match ls with | l :: _ => l.threshold == 0 | [] => false)

def planOf (img : List Byte) : Plan :=
  { crc := leAt img 0x0C 4
    tick := (List.range 7).map fun k => leAt img (0x10 + 2 * k) 2
    tasks := (entriesOf img (leAt img 0x28 4) (leAt img 0x20 2) 48).map planTask
    bufs := (entriesOf img (leAt img 0x2C 4) (leAt img 0x22 2) 16).map planBuf
    levels := (entriesOf img (leAt img 0x30 4) (leAt img 0x24 1) 324).map planLevel }

/-- The kind of a refused plan. (Model: DEDUCED, log 32) -/
def Chip.setFailKind (c : Chip) (k : Nat) : Chip := c.setF 0x10002C 7 0 k

/-- The checks of R129 on the image at an address, in order; 0 when all pass. `fit` includes the fit check. (Model: DEDUCED, log 32) -/
def Chip.planCheck (c : Chip) (a : Nat) (fit : Bool) : Nat :=
  let h := c.engineBytes a 64
  let len := leAt h 8 4
  let placed := fun n => inCell a n || (inUsableDram a n && decide (dramBase ≤ a))
  if a % 4 != 0 || !placed 64 || !planHeaderOk h || !placed len then 1
  else
    let img := c.engineBytes a len
    if !c.linesGood a len || crc32c (splice img 12 [0, 0, 0, 0]) != leAt img 12 4 then 2
    else
      let p := planOf img
      if p.tick != c.tickParams then 3
      else if !planEntriesOk img then 4
      else if fit && !c.fits p 0 c.podStep then 5
      else 0

/-- Loads the descriptor of one tick-bound task (R123 and the text above it). -/
def Chip.loadTbTask (c : Chip) (e : List Byte) : Chip :=
  let t := leAt e 0 2
  let w2 := 2 ^ 31 + 2 ^ 30 + 2 ^ 29 + leAt e 0x0B 1 * 2 ^ 27 + leAt e 0x0C 2 * 2 ^ 16 + leAt e 0x0A 1
  ((c.setReg (taskReg t 0) (BitVec.ofNat 32 (leAt e 0x14 4 + 2 ^ 31))).setReg (taskReg t 1)
    (BitVec.ofNat 32 (leAt e 0x10 4))).setReg (taskReg t 2) (BitVec.ofNat 32 w2)

/-- Puts a checked image in force (R129). (Model: DEDUCED, log 94; DESIGN CHOICE, log 104) -/
def Chip.planApply (c : Chip) (a : Nat) : Chip :=
  let img := c.engineBytes a (c.engineNum (a + 8) 4)
  let old := match c.sched.plan with | some p => p.tasks.map (·.task) | none => []
  let c := forL old (fun t c => ((c.setB (taskReg t 2) 31 false).setB (taskReg t 2) 29 false).notHeld t) c
  let c := forL (entriesOf img (leAt img 0x28 4) (leAt img 0x20 2) 48) (fun e c => c.loadTbTask e) c
  let c := c.modSched fun s => { s with plan := some (planOf img), tb := [] }
  (c.setB 0x10002C 31 true).setFailKind 0

/-- A load of the image at an address (R129); `fit` is false at boot (R454 step 8). The Bool says whether it loaded. -/
def Chip.planLoad (c : Chip) (a : Nat) (fit : Bool) : Chip × Bool :=
  let k := c.planCheck a fit
  if k = 0 then (c.planApply a, true)
  else
    let c := if k = 1 then c else c.engineMeets a (c.engineNum (a + 8) 4)
    let c := c.setFailKind k
    let c := if k = 5 then
        let r := (c.fitFail (planOf (c.engineBytes a (c.engineNum (a + 8) 4))) 0 c.podStep).getD 0
        (c.setF 0x10002C 23 20 c.podStep).setF 0x10002C 19 16 r
      else c
    (c, false)

/-- A write to SCH_PLAN_CTRL (R129, R131). -/
def Chip.planCtrl (c : Chip) (v : W32) : Chip :=
  if !bit v 0 then c
  else if !c.inConfig then c.setFailKind 6
  else (c.planLoad (c.pair 0x100020 % 2 ^ 40) true).1

/-- The scheduler's check on leaving CONFIG (R25, R437, R502). The starting step is already chosen. (Model: DEDUCED, log 32) -/
def Chip.planLeave (c : Chip) : Chip × Bool := match c.sched.plan with
  | none => (c, true)
  | some p =>
    if p.tick != c.tickParams then (c.setFailKind 3, false)
    else match c.fitFail p 0 c.podStep with
      | some r => (((c.setFailKind 5).setF 0x10002C 23 20 c.podStep).setF 0x10002C 19 16 r, false)
      | none => match c.fitFail p (p.levels.length - 1) 4 with
        | some r => (((c.setFailKind 5).setF 0x10002C 23 20 4).setF 0x10002C 19 16 r, false)
        | none => (c.setFailKind 0, true)

/-- A write to a word of the SCH block. -/
def Chip.schWrite (c : Chip) (x : Nat) (v : W32) : Chip :=
  if x = 0x0C then c.hostPost v
  else if x = 0x10 then c.hostCancel v
  else if x = 0x28 then c.planCtrl v
  else if 0x8000 ≤ x ∧ x < 0x8100 then c.oflowWrite ((x - 0x8000) / 16) ((x - 0x8000) % 16 / 4) v
  else if 0x20000 ≤ x then c.taskWrite ((x - 0x20000) / 32) ((x - 0x20000) % 32 / 4) v
  else c.mapWrite (0x100000 + x) v

/-- The words of the SCH block that show the scheduler's stores. -/
def Chip.schView (c : Chip) (x : Nat) (w : W32) : W32 :=
  if x = 0 then setFld w 29 16 (c.sproutCount fun _ => true)
  else if 0x100 ≤ x ∧ x < 0x200 then setFld w 29 16 (c.sched.queue ((x - 0x100) / 4)).length
  else if 0x8100 ≤ x ∧ x < 0x8140 then setFld w 10 0 (c.itemsUsed ((x - 0x8100) / 4))
  else if 0x10000 ≤ x ∧ x < 0x12000 then
    let f := (x - 0x10000) / 4
    let n := (c.sched.wait f).length
    match c.sched.holder f with
    | some (t, _) => BitVec.ofNat 32 (2 ^ 31 + t * 2 ^ 16 + n)
    | none => BitVec.ofNat 32 n
  else if 0x20000 ≤ x ∧ x % 32 = 16 then setFld w 31 27 (c.outOf ((x - 0x20000) / 32))
  else w

end Sys2Proof.Machine
end

