-- ==== Sys2Proof/Machine/Feedback.lean ====
section
/-!
DEFINITION. The feedback unit (R132 to R160, R503, R504): local channels, observers, index handling, loss and freeze,
divided outputs, and the feedback phase.
-/
namespace Sys2Proof.Machine

/-! ## Registers -/

def obsReg (k w : Nat) : Nat := 0x401000 + 64 * k + 4 * w
def recReg (k w : Nat) : Nat := 0x410000 + 32 * k + 4 * w
def lchReg (n w : Nat) : Nat := 0x408000 + 16 * n + 4 * w
def divReg (d w : Nat) : Nat := 0x408200 + 16 * d + 4 * w

/-- FBK_STAT.CFG_IGN and CFG_ERR. -/
def Chip.fbkIgn (c : Chip) : Chip := c.setB 0x400000 1 true
def Chip.fbkErr (c : Chip) : Chip := c.setB 0x400000 0 true

def Chip.modFbk (c : Chip) (f : Fbk → Fbk) : Chip := { c with fbk := f c.fbk }
def Obs.zero : Obs :=
  { raw := none, seq := none, lastRaw := none, same := 0, frozen := false, aligned := false, effOff := 0, prevPos := 0, fresh := true,
    fact := false }
def Chip.obs (c : Chip) (k : Nat) : Obs := tabGet (fun _ => Obs.zero) c.fbk.obs k
def Chip.setObs (c : Chip) (k : Nat) (o : Obs) : Chip :=
  c.modFbk fun f => { f with obs := tabPut (fun _ => Obs.zero) f.obs k o }
def Lch.zero : Lch :=
  { a := false, b := false, count := 0, pin := 0, sector := 0, errNow := false, zNow := [], hallNow := [], countTick := 0,
    sectorTick := 0, errTick := false, zTick := [], hallTick := [], zNowAt := 0, zRaw := 0, zAt := 0, hallRaw := 0, hallAt := 0 }
def Chip.lch (c : Chip) (n : Nat) : Lch := tabGet (fun _ => Lch.zero) c.fbk.lch n
def Chip.setLch (c : Chip) (n : Nat) (l : Lch) : Chip :=
  c.modFbk fun f => { f with lch := tabPut (fun _ => Lch.zero) f.lch n l }
def Chip.divOut (c : Chip) (d : Nat) : DivOut := tabGet (fun _ => { r := 0, outc := 0 }) c.fbk.divs d
def Chip.setDivOut (c : Chip) (d : Nat) (x : DivOut) : Chip :=
  c.modFbk fun f => { f with divs := tabPut (fun _ => { r := 0, outc := 0 }) f.divs d x }

/-- Descriptor fields. -/
def Chip.obsSrc (c : Chip) (k : Nat) : Nat := c.regF (obsReg k 0) 30 28
/-- An observer that runs: EN 1 and a source (R503). -/
def Chip.obsActive (c : Chip) (k : Nat) : Bool := c.regB (obsReg k 0) 31 && c.obsSrc k != 0
def Chip.obsLch (c : Chip) (k : Nat) : Nat := c.regF (obsReg k 0) 19 16
def Chip.lchMode (c : Chip) (n : Nat) : Nat := c.regF (lchReg n 0) 30 29
/-- An observer on a Hall channel, and one in combined mode. -/
def Chip.obsHall (c : Chip) (k : Nat) : Bool := c.obsSrc k == 3 && c.lchMode (c.obsLch k) == 1
def Chip.obsComb (c : Chip) (k : Nat) : Bool := c.obsSrc k == 3 && c.lchMode (c.obsLch k) == 2
/-- The record's POS, VEL, ACC, and its status bits. -/
def Chip.obsPos (c : Chip) (k : Nat) : Int := c.pairI (recReg k 0)
def Chip.obsVel (c : Chip) (k : Nat) : W32 := c.reg (recReg k 2)
def Chip.obsAcc (c : Chip) (k : Nat) : W32 := c.reg (recReg k 3)
/-- INIT of an observer. (Model: DEDUCED, log 40) -/
def Chip.obsInit (c : Chip) (k : Nat) : Bool := c.regB (recReg k 7) 17
/-- The observer's fault action is held (R153). -/
def Chip.obsFault (c : Chip) (k : Nat) : Bool := c.regB (recReg k 7) 9
def Chip.obsFact (c : Chip) (k : Nat) : Nat := c.regF (obsReg k 0) 7 7

/-- The arm and axis of a joint, when it belongs to an arm (R134). (Model: DEDUCED, log 95) -/
def Chip.jointArm (c : Chip) (j : Nat) : Option (Nat × Nat) :=
  let w := c.reg (obsReg j 0)
  if j < 128 ∧ bit w 31 = true ∧ bit w 15 = true then some (fld w 14 11, fld w 10 8) else none

/-- Observers with any stored word but the gains, ascending. -/
def Chip.obsKeys (c : Chip) : List Nat :=
  sortBy id ((c.regs.filterMap fun e =>
    if 0x401000 ≤ e.1 ∧ e.1 < 0x405000 ∧ ¬ (44 ≤ e.1 % 64 ∧ e.1 % 64 < 56) then some ((e.1 - 0x401000) / 64)
    else if 0x410000 ≤ e.1 ∧ e.1 < 0x412000 then some ((e.1 - 0x410000) / 32) else none).eraseDups)

/-! ## Gains (R142) -/

/-- The tick period in seconds. -/
def Chip.tS (c : Chip) : W32 := ed (intToF32 c.period) (intToF32 64000000)
/-- x of R142 for a bandwidth. -/
def Chip.bwX (c : Chip) (bw : W32) : W32 := em (em 0x40C90FDA#32 bw) c.tS
/-- A valid BW: finite, at least 1.0, and x at most 0.5. -/
def Chip.bwValid (c : Chip) (bw : W32) : Bool :=
  f32Exp bw != 255 && f32Le f32One bw && f32Le (c.bwX bw) f32Half
/-- l_p, l_v, l_a. -/
def Chip.gains (c : Chip) (bw : W32) : W32 × W32 × W32 :=
  let t := c.tS
  let x := c.bwX bw
  let ex := ea f32One (em x (ea f32One (em x (ea f32Half (em x 0x3E2AAAAA#32)))))
  let lam := ed f32One ex
  let d := es f32One lam
  (es f32One (em (em lam lam) lam), ed (em (em (em 0x3FC00000#32 d) d) (ea f32One lam)) t,
    ed (em (em d d) d) (em t t))
def Chip.setGains (c : Chip) (k : Nat) : Chip :=
  let g := c.gains (c.reg (obsReg k 5))
  ((c.setReg (obsReg k 11) g.1).setReg (obsReg k 12) g.2.1).setReg (obsReg k 13) g.2.2

/-! ## Positions (R137) -/

/-- HSHIFT of channel `k` (R229), and the word of PRF_HOME that holds HMODE and HSTATE. -/
def Chip.hshift (c : Chip) (k : Nat) : Int := c.pairI (0x334000 + 128 * k + 48)
/-- A raw count as a measured position, with the home shift; none when R137 leaves the signed 64-bit range. -/
def Chip.rawPos (c : Chip) (k : Nat) (raw : Int) : Option Int :=
  let m := c.pairI (obsReg k 3) + shrI (raw * (c.reg (obsReg k 2)).toInt) (c.regF (obsReg k 1) 15 8)
  if -(2 ^ 63 : Int) ≤ m ∧ m < 2 ^ 63 then some (wrapQ (m + c.hshift k)) else none
/-- The same, wrapped, for boundary and shift positions. -/
def Chip.rawPosW (c : Chip) (k : Nat) (raw : Int) : Int :=
  wrapQ (c.pairI (obsReg k 3) + shrI (raw * (c.reg (obsReg k 2)).toInt) (c.regF (obsReg k 1) 15 8) + c.hshift k)

/-! ## Writes (R134, R137, R138, R142, R158, R160) -/

/-- Zeros the record of an inactive observer, keeping FAULT, SUSPECT and MIS_CNT (R503). -/
def Chip.obsInactive (c : Chip) (k : Nat) : Chip :=
  let w := c.reg (recReg k 7) &&& 0x000C0300#32
  let c := forN 7 (fun i c => c.setReg (recReg k i) 0) c
  c.setReg (recReg k 7) w

/-- Enabling makes an observer uninitialised with its coast counter at 0: POS 0, VEL, ACC and ELEC +0, COASTING set (R146,
R158). (Model: DEDUCED, log 39) -/
def Chip.obsEnable (c : Chip) (k : Nat) : Chip :=
  let c := c.setObs k { c.obs k with raw := none, seq := none, lastRaw := none, same := 0, frozen := false, aligned := false }
  let c := forN 5 (fun i c => c.setReg (recReg k i) 0) c
  let w := c.reg (recReg k 7)
  c.setReg (recReg k 7) (setBit (setBit (setFld (setBit w 17 false) 23 20 0) 7 true) 6 false)

/-- Whether a descriptor's configuration admits EN 1 (R137). (Model: DESIGN CHOICE, log 105) -/
def Chip.obsCfgOk (c : Chip) (k : Nat) (w0 : W32) : Bool :=
  let w1 := c.reg (obsReg k 1)
  decide (fld w1 15 8 ≤ 63) && (fld w0 30 28 != 1 || decide (1 ≤ fld w1 23 16 ∧ fld w1 23 16 ≤ 32))

/-- Word 0 of a descriptor with the fields that keep their value for a value written that is none (R160): the word, and
whether there was such a field. -/
def obsWord0 (old v : W32) : W32 × Bool :=
  let badSrc := decide (fld v 30 28 > 3)
  let badCoast := decide (fld v 6 3 > 8)
  let v := if badSrc then setFld v 30 28 (fld old 30 28) else v
  (if badCoast then setFld v 6 3 (fld old 6 3) else v, badSrc || badCoast)
/-- Whether two words 0 differ in a field that is locked while the observer is enabled (R158). -/
def obsMoved (old v : W32) : Bool := fld old 30 16 != fld v 30 16 || fld old 15 8 != fld v 15 8

/-- Word 0 of a descriptor is stored: an observer that it enables is uninitialised, one that it leaves inactive has the record
of R503. -/
def Chip.obsPut0 (c : Chip) (k : Nat) (v : W32) : Chip :=
  let old := c.reg (obsReg k 0)
  let enables := bit v 31 && (!bit old 31 || (c.inConfig && fld old 30 28 == 0 && fld v 30 28 != 0))
  let c := c.mapWrite (obsReg k 0) v
  if !c.obsActive k then c.obsInactive k else if enables then c.obsEnable k else c

/-- A word-0 write of a descriptor, as it takes effect. -/
def Chip.obsWrite0 (c : Chip) (k : Nat) (v0 : W32) : Chip :=
  let old := c.reg (obsReg k 0)
  let x := obsWord0 old v0
  let c := if x.2 then c.fbkIgn else c
  if !c.inConfig && bit old 31 && bit x.1 31 && obsMoved old x.1 then c.fbkIgn
  else if !c.inConfig && !bit old 31 && bit x.1 31 && !c.obsCfgOk k x.1 then c.fbkIgn
  else c.obsPut0 k x.1

/-- BW is stored; a valid one gives the gains (R142). -/
def Chip.obsPutBw (c : Chip) (k : Nat) (v : W32) : Chip :=
  let c := c.setReg (obsReg k 5) v
  if c.bwValid v then c.setGains k else c

/-- A write to a descriptor word, as it takes effect at a feedback phase (R158). -/
def Chip.obsApply (c : Chip) (k w : Nat) (v : W32) : Chip :=
  let old := c.reg (obsReg k w)
  let live := !c.inConfig && c.regB (obsReg k 0) 31
  if w = 0 then c.obsWrite0 k v
  else if w = 1 ∧ live = true ∧ fld old 23 8 ≠ fld v 23 8 then c.fbkIgn
  else if (w = 2 ∨ w = 3 ∨ w = 4) ∧ live = true ∧ old ≠ v then c.fbkIgn
  else if w = 5 then if c.bwValid v || c.inConfig then c.obsPutBw k v else c.fbkIgn
  else c.mapWrite (obsReg k w) v

/-- A descriptor written as a whole, as it takes effect: it is judged by its own words, and taken or ignored in full (R158).
(Model: DEDUCED, log 106) -/
def Chip.obsApplyAll (c : Chip) (k : Nat) (ws : List W32) : Chip :=
  let word := fun i => ws.getD i 0
  let old := c.reg (obsReg k 0)
  let on := bit old 31
  let x := obsWord0 old (word 0)
  let c := if x.2 then c.fbkIgn else c
  let moved := obsMoved old x.1 || fld (c.reg (obsReg k 1)) 23 8 != fld (word 1) 23 8 ||
    [2, 3, 4].any fun i => c.reg (obsReg k i) != word i
  let d := forL [1, 2, 3, 4, 6, 7, 8, 9, 10] (fun i c => c.mapWrite (obsReg k i) (word i)) c
  if !c.inConfig && ((on && bit x.1 31 && moved) || (!on && bit x.1 31 && !d.obsCfgOk k x.1) || !c.bwValid (word 5)) then c.fbkIgn
  else (d.obsPutBw k (word 5)).obsPut0 k x.1

/-- The words written from an offset of the descriptors on take effect: a whole descriptor, or one word. -/
def Chip.obsTake (c : Chip) (x : Nat × List W32) : Chip :=
  let k := (x.1 - 0x401000) / 64
  match x.2 with
  | [v] => c.obsApply k ((x.1 - 0x401000) % 64 / 4) v
  | ws => c.obsApplyAll k ws

/-- A descriptor write arrives: it waits for the next feedback phase; while no ticks run it takes effect at once. -/
def Chip.obsWrites (c : Chip) (off : Nat) (ws : List W32) : Chip :=
  if c.ticking then c.modFbk fun f => { f with writes := f.writes ++ [(off, ws)] } else c.obsTake (off, ws)
/-- A single word of a descriptor. (Model: DEDUCED, log 36) -/
def Chip.obsWrite (c : Chip) (off : Nat) (v : W32) : Chip := c.obsWrites off [v]

/-- Whether an enabled observer uses a local channel. -/
def Chip.lchUsed (c : Chip) (n : Nat) : Bool :=
  c.obsKeys.any fun k => c.obsActive k && c.obsSrc k == 3 && c.obsLch k == n

/-- A write of word 0 of a local channel (R138, R158). At enable a Hall count takes the sector of the pins (R141), and the
commutation of combined mode that of the pins of channel n + 8 (R148). (Model: DESIGN CHOICE, log 105) -/
def Chip.lchWrite (c : Chip) (n : Nat) (v0 : W32) : Chip :=
  let old := c.reg (lchReg n 0)
  let bad := fld v0 30 29 == 3
  let v := if bad then setFld v0 30 29 (fld old 30 29) else v0
  let c := if bad then c.fbkIgn else c
  if !c.inConfig && c.lchUsed n && fld old 30 29 != fld v 30 29 then c.fbkIgn
  else
    let c := c.mapWrite (lchReg n 0) v
    let l := c.lch n
    if !bit v 31 || (bit old 31 && fld old 30 29 == fld v 30 29) then c
    else if fld v 30 29 = 1 then c.setLch n { l with count := l.pin, countTick := l.pin, sector := l.pin, sectorTick := l.pin }
    else if fld v 30 29 = 2 then
      let s := (c.lch (n + 8)).pin
      c.setLch n { l with sector := s, sectorTick := s }
    else c

/-- A write to a divided output (R156 and the text after the map): while it is enabled N, M, SH and SRC keep their values.
(Model: DESIGN CHOICE, log 105) -/
def Chip.divWrite (c : Chip) (d w : Nat) (v : W32) : Chip :=
  let old := c.reg (divReg d w)
  let on := c.regB (divReg d 0) 31
  if w = 0 then
    if on then
      let c := if fld old 23 8 = fld v 23 8 then c else c.fbkIgn
      (c.setB (divReg d 0) 31 (bit v 31)).setB (divReg d 0) 30 (bit v 30)
    else
      let c := c.mapWrite (divReg d 0) v
      if bit v 31 then (c.setDivOut d { r := 0, outc := 0 }).setF (divReg d 3) 31 8 0 else c
  else if w = 1 then
    if on then (if old = v then c else c.fbkIgn)
    else
      let c := if fld v 31 16 = 0 then c.fbkIgn else c.setF (divReg d 1) 31 16 (fld v 31 16)
      if fld v 15 0 = 0 then c.fbkIgn else c.setF (divReg d 1) 15 0 (fld v 15 0)
  else c.mapWrite (divReg d w) v

/-- A write of FBK_MIRROR (R160). (Model: DESIGN CHOICE, log 110) -/
def Chip.mirrorWrite (c : Chip) (v : W32) : Chip :=
  if !c.inConfig && bit v 31 && decide (fld v 22 0 > 0x7FE000) then c.fbkIgn else c.mapWrite 0x400004 v

/-- A write of FBK_CLR (R155). -/
def Chip.clrWrite (c : Chip) (v : W32) : Chip := c.modFbk fun f => { f with clears := f.clears ++ [fld v 7 0] }

/-- A write to a word of the FBK block. (Model: DEDUCED, log 15; DEDUCED, log 36) -/
def Chip.fbkWrite (c : Chip) (x : Nat) (v : W32) : Chip :=
  if x = 4 then c.mirrorWrite v
  else if x = 8 then c.clrWrite v
  else if 0x1000 ≤ x ∧ x < 0x5000 then c.obsWrite (0x400000 + x) v
  else if 0x8000 ≤ x ∧ x < 0x8100 ∧ x % 16 = 0 then c.lchWrite ((x - 0x8000) / 16) v
  else if 0x8200 ≤ x ∧ x < 0x8240 then c.divWrite ((x - 0x8200) / 16) ((x - 0x8200) % 16 / 4) v
  else c.mapWrite (0x400000 + x) v

/-- The block with the waiting descriptor writes taken: what its RW fields read back (R160). (Model: DEDUCED, log 36) -/
def Chip.fbkAhead (c : Chip) : Chip := forL c.fbk.writes (fun x c => c.obsTake x) c

/-- RW fields read back the value written; FBK_LCH shows the live counts. -/
def Chip.fbkView (c : Chip) (x : Nat) (w : W32) : W32 :=
  let w := if 0x1000 ≤ x ∧ x < 0x5000 ∧ c.fbk.writes ≠ [] then rwOver (0x400000 + x) w (c.fbkAhead.reg (0x400000 + x)) else w
  if 0x8000 ≤ x ∧ x < 0x8100 ∧ x % 16 = 4 then BitVec.ofInt 32 (c.lch ((x - 0x8000) / 16)).count else w

/-! ## Divided outputs (R156, R157) -/

/-- Input counts reach a divided output. -/
def Chip.divInput (c : Chip) (d : Nat) (delta : Int) : Chip :=
  let n := c.regF (divReg d 1) 31 16
  let m := c.regF (divReg d 1) 15 0
  let x := c.divOut d
  let s := (x.r : Int) + delta * n
  let out := s / (m : Int)
  let owed := signed 24 (c.regF (divReg d 3) 31 8) + out
  let top : Int := 2 ^ 23 - 1
  let kept := clampI (-top) top owed
  let c := (c.setDivOut d { x with r := (s - out * m).toNat }).setF (divReg d 3) 31 8 (wrapN 24 kept)
  if kept = owed then c else c.setB (divReg d 3) 1 true

/-- The divided outputs fed by a local channel take each count as it occurs. -/
def Chip.divFromLch (c : Chip) (n : Nat) (delta : Int) : Chip :=
  forN 4 (fun d c =>
    let w := c.reg (divReg d 0)
    if bit w 31 && !bit w 30 && fld w 23 16 == n then c.divInput d delta else c) c

/-- Emission of owed counts: at most `due` counts leave, and counts that the rate limit holds back set OVR (R157). -/
def Chip.divEmit (c : Chip) (d due : Nat) (limited : Bool) : Chip :=
  if !c.regB (divReg d 0) 31 then c
  else
    let owed := signed 24 (c.regF (divReg d 3) 31 8)
    let k := clampI (-(due : Int)) due owed
    let x := c.divOut d
    let c := (c.setDivOut d { x with outc := x.outc + k }).setF (divReg d 3) 31 8 (wrapN 24 (owed - k))
    if limited && owed != k then (c.setB (divReg d 3) 0 true).fire 358 else c

/-- The level of pin DVn_Z: high while the output count of an enabled output is 0 modulo ZPER (R156), low in RESET and BOOT (R492). -/
def Chip.divZ (c : Chip) (d : Nat) : Bool :=
  let z := (c.reg (divReg d 2)).toNat
  !c.pinsLow && c.regB (divReg d 0) 31 && z != 0 && (c.divOut d).outc % (z : Int) == 0

/-- The observer-sourced outputs take their Δ at the end of the feedback phase, since the end of the last one (R157). -/
def Chip.divFromObs (c : Chip) : Chip :=
  let c := forN 4 (fun d c =>
    let w := c.reg (divReg d 0)
    if bit w 31 && bit w 30 then
      let k := fld w 23 16
      let sh := fld w 15 8
      let o := c.obs k
      c.divInput d (shrI (c.obsPos k) sh - shrI o.prevPos sh)
    else c) c
  forL (c.obsKeys ++ c.fbk.obs.map (·.1)) (fun k c => c.setObs k { c.obs k with prevPos := c.obsPos k }) c

/-! ## Local channels (R138 to R141, R149) -/

/-- TB0 in ns, less a channel's filter delay (R139). -/
def Chip.pinTime (c : Chip) (n : Nat) : Nat := (c.tb0 - c.regF (lchReg n 0) 7 0 * 409600) / 2 ^ 16

/-- Whether an edge that the filter of a channel accepts now was at the pin before the last t₀: the latch, taken the filter
delay after t₀, still holds it (R139). (Model: DEDUCED, log 38) -/
def Chip.lchLate (c : Chip) (n : Nat) : Bool := c.ticking && decide (c.pinTime n < c.fbk.t0)

/-- An error of R140: the sample is corrupted and QERR counts. -/
def Chip.lchError (c : Chip) (n : Nat) : Chip :=
  let l := c.lch n
  (c.setLch n (if c.lchLate n then { l with errTick := true } else { l with errNow := true })).addSat (lchReg n 3) 31 16 1

/-- The count moves, and with it the latched one if the edge belongs to the last tick. -/
def Lch.step (l : Lch) (d : Int) (late : Bool) : Lch :=
  { l with count := wrapQ (l.count + d), countTick := if late then wrapQ (l.countTick + d) else l.countTick }

/-- The quadrature phase of levels A and B, 0 to 3 in the forward direction, which the spec does not state
(DESIGN CHOICE, log 37: an opaque constant of the part). (Model: DESIGN CHOICE, log 37) -/
def quadPhase (a b : Bool) : Nat := match (if Config.aLeads then a else b), (if Config.aLeads then b else a) with
  | false, false => 0
  | true, false => 1
  | true, true => 2
  | false, true => 3

/-- New filtered levels of A and B (R139, R140): one count, or a quadrature error. (Model: DESIGN CHOICE, log 37) -/
def Chip.lchCountEdge (c : Chip) (n : Nat) (a b : Bool) : Chip :=
  let l := c.lch n
  let move := (quadPhase a b + 4 - quadPhase l.a l.b) % 4
  let c := c.setLch n { l with a := a, b := b }
  if !c.regB (lchReg n 0) 31 || c.lchMode n == 1 || move == 0 then c
  else if move = 2 then c.lchError n
  else
    let d : Int := if (move == 1) != c.regB (lchReg n 0) 28 then 1 else -1
    (c.setLch n ((c.lch n).step d (c.lchLate n))).divFromLch n d

/-- A qualified rising edge of Z (R149, R159): the count is latched, Z_CNT counts, event 360 + n fires. -/
def Chip.lchZEdge (c : Chip) (n : Nat) : Chip :=
  if !c.regB (lchReg n 0) 31 || c.lchMode n == 1 then c
  else
    let l := c.lch n
    let z := c.regF (lchReg n 3) 15 0
    let l := if c.lchLate n then { l with zTick := l.zTick ++ [l.count], zRaw := l.count, zAt := c.pinTime n }
      else { l with zNow := l.zNow ++ [l.count] }
    ((c.setLch n { l with zNowAt := c.pinTime n }).setF (lchReg n 3) 15 0 ((z + 1) % 65536)).fire (360 + n)

/-- The sector of a Hall state U + 2V + 4W (R141); none for 0 and 7. -/
def hallSector (st : Nat) : Option Nat := match st with
  | 1 => some 0
  | 3 => some 1
  | 2 => some 2
  | 6 => some 3
  | 4 => some 4
  | 5 => some 5
  | _ => none

/-- The channel whose commutation the Hall pins of channel `n` serve: itself in mode 1, channel n − 8 in mode 2. -/
def Chip.hallOwner (c : Chip) (n : Nat) : Option Nat :=
  if c.regB (lchReg n 0) 31 && c.lchMode n == 1 then some n
  else if 8 ≤ n ∧ c.regB (lchReg (n - 8) 0) 31 = true ∧ c.lchMode (n - 8) = 2 then some (n - 8) else none

/-- A Hall edge of a channel into sector `s`, one sector on or back (R141, R148). (Model: DESIGN CHOICE, log 105) -/
def Chip.hallMove (c : Chip) (m s : Nat) (fwd : Bool) : Chip :=
  let hallMode := c.lchMode m == 1
  let late := c.lchLate m
  let l := c.lch m
  let d : Int := if !hallMode then 0 else if fwd then 1 else -1
  let q := l.step d late
  let e : HallEdge :=
    { time := c.pinTime m, bound := if fwd then q.count else q.count + 1, inc := l.count, sixth := if fwd then s else (s + 1) % 6 }
  let q := if late then { q with hallTick := q.hallTick ++ [e], sectorTick := s, hallRaw := e.inc, hallAt := e.time }
    else { q with hallNow := q.hallNow ++ [e] }
  let c := c.setLch m { q with sector := s }
  if hallMode then c.divFromLch m d else c

/-- New levels on the Hall pins of channel `n` (R140, R141, R148). -/
def Chip.hallEdge (c : Chip) (n : Nat) (u v w : Bool) : Chip :=
  match hallSector (u.toNat + 2 * v.toNat + 4 * w.toNat) with
  | none => match c.hallOwner n with
    | some m => c.lchError m
    | none => c
  | some s =>
    let c := c.setLch n { c.lch n with pin := s }
    match c.hallOwner n with
    | none => c
    | some m =>
      let l := c.lch m
      let move := (s + 6 - l.sector) % 6
      if move = 0 then c
      else if move = 1 ∨ move = 5 then c.hallMove m s (move == 1)
      else (c.setLch m { l with sector := s, sectorTick := if c.lchLate m then s else l.sectorTick }).lchError m

/-- The latch of every channel at t₀ (R139). (Model: DEDUCED, log 38) -/
def Chip.lchTick (c : Chip) : Chip :=
  forL (c.fbk.lch.map (·.1)) (fun n c =>
    let l := c.lch n
    let l := match l.zNow.getLast? with | some z => { l with zRaw := z, zAt := l.zNowAt } | none => l
    let l := match l.hallNow.getLast? with | some e => { l with hallRaw := e.inc, hallAt := e.time } | none => l
    c.setLch n { l with
      countTick := l.count, sectorTick := l.sector, errTick := l.errNow, zTick := l.zNow, hallTick := l.hallNow
      errNow := false, zNow := [], hallNow := [] }) c

/-! ## One observer in one tick -/

/-- What a tick's sample of an observer is (R136, R137, R151, R152, R504). -/
structure Sample where
  lost   : Bool
  /-- A record was released: its NSTAT. -/
  nstat  : Option Nat
  /-- Currents and SEQ of a record that is neither invalid nor corrupted. -/
  taken  : Option (W32 × W32 × Nat)
  raw    : Int
  posLo  : Nat
  m      : Int
  deriving DecidableEq, Repr

def Sample.none : Sample := { lost := true, nstat := Option.none, taken := Option.none, raw := 0, posLo := 0, m := 0 }

/-- The sample of a remote source. -/
def Chip.remoteSample (c : Chip) (k : Nat) : Sample :=
  let w := c.reg (obsReg k 0)
  match (tabGet (fun _ => []) c.fbk.released (fld w 27 23))[fld w 22 20]? with
  | Option.none => Sample.none
  | some r =>
    let lo := leAt r 0 4
    let ia := BitVec.ofNat 32 (leAt r 8 4)
    let ib := BitVec.ofNat 32 (leAt r 12 4)
    let st := leAt r 0x12 1
    let bits := c.regF (obsReg k 1) 23 16
    let absolute := fld w 30 28 == 1
    let raw : Int := if absolute then signed 32 (leAt r 4 4) * 2 ^ bits + lo
      else match (c.obs k).raw with
        | some (q, p) => q + signed 32 (lo + 2 ^ 32 - p)
        | Option.none => signed 32 lo
    let pos := c.rawPos k raw
    let corrupt := (absolute && decide (lo ≥ 2 ^ bits)) || f32Exp ia == 255 || f32Exp ib == 255 || pos.isNone
    let lost := !st.testBit 7 || corrupt
    { lost := lost, nstat := some st, taken := if lost then Option.none else some (ia, ib, leAt r 0x10 2),
      raw := raw, posLo := lo, m := pos.getD 0 }

/-- The sample of a local source. -/
def Chip.localSample (c : Chip) (k : Nat) : Sample :=
  let l := c.lch (c.obsLch k)
  let pos := c.rawPos k l.countTick
  { lost := l.errTick || pos.isNone, nstat := Option.none, taken := Option.none, raw := l.countTick, posLo := 0,
    m := pos.getD 0 }

/-- What the phase gathers for its events (R159). -/
structure FbEvents where
  fault    : Bool
  mismatch : Bool
  corr     : Bool
  loss     : Bool
  freeze   : Bool
  deriving DecidableEq, Repr

def FbEvents.zero : FbEvents := { fault := false, mismatch := false, corr := false, loss := false, freeze := false }

/-- A mismatch of the index or of the Hall check (R148, R149): the record's bits and count. -/
def mismatchWord (w : W32) : W32 :=
  setFld (setBit (setBit w 4 true) 8 true) 19 18 (satN 3 (fld w 19 18 + 1))

/-- The fault action that FACT then names is entered, and held until it is cleared (R153). -/
def Chip.obsTakeFact (c : Chip) (k : Nat) : Chip := (c.setObs k { c.obs k with fact := c.obsFact k == 1 }).setB 0x400000 2 true

/-- Enters the fault action once (R150, R153, R154). -/
def Chip.obsEnterFault (c : Chip) (k : Nat) (w : W32) (ev : FbEvents) : Chip × W32 × FbEvents :=
  if bit w 9 then (c, w, ev) else (c.obsTakeFact k, setBit w 9 true, { ev with fault := true })

/-- A mismatch; the third raises the feedback fault as it is counted (R150). -/
def Chip.obsMismatch (c : Chip) (k : Nat) (w : W32) (ev : FbEvents) : Chip × W32 × FbEvents :=
  let w := mismatchWord w
  let ev := { ev with mismatch := true }
  if fld w 19 18 = 3 then c.obsEnterFault k w ev else (c, w, ev)

/-- Index evaluation of one Z edge (R149). The word is word 7 of the record. (Model: DESIGN CHOICE, log 105) -/
def Chip.indexEdge (c : Chip) (k n : Nat) (cnt : Int) (w : W32) (ev : FbEvents) : Chip × W32 × FbEvents :=
  let per : Int := (c.reg (obsReg k 7)).toNat
  let tol : Int := c.regF (obsReg k 8) 15 0
  let raw := (cnt - (c.reg (obsReg k 9)).toInt) % per
  let dev := if 2 * raw ≥ per then raw - per else raw
  if dev ≤ tol ∧ -tol ≤ dev then
    let l := c.lch n
    let c := c.setLch n { l with count := wrapQ (l.count - dev), countTick := wrapQ (l.countTick - dev)
                                 zTick := l.zTick.map (· - dev), zNow := l.zNow.map (· - dev) }
    let shift := shrI (-dev * (c.reg (obsReg k 2)).toInt) (c.regF (obsReg k 1) 15 8)
    let c := c.setPairI (recReg k 0) (wrapQ (c.obsPos k + shift))
    let log := c.reg (lchReg n 2)
    let c := c.setReg (lchReg n 2)
      (setFld (setFld log 31 16 (wrapN 16 (-dev))) 15 0 ((fld log 15 0 + 1) % 65536))
    (c, setFld (setBit (setBit w 5 true) 8 false) 19 18 0, { ev with corr := true })
  else c.obsMismatch k w ev

/-- The Z edges of the tick, in time order. (Model: DESIGN CHOICE, log 105) -/
def Chip.indexEdges (c : Chip) (k n : Nat) : (fuel : Nat) → (i : Nat) → W32 → FbEvents → Chip × W32 × FbEvents
  | 0, _, w, ev => (c, w, ev)
  | f + 1, i, w, ev => match (c.lch n).zTick[i]? with
    | some z => let r := c.indexEdge k n z w ev; r.1.indexEdges k n f (i + 1) r.2.1 r.2.2
    | none => (c, w, ev)

/-- Electrical turns of a position: pole_pairs × p modulo one turn, in 2^-40 turns (R147). -/
def Chip.elecQ (c : Chip) (k : Nat) (p : Int) : Int := (c.regF (obsReg k 1) 7 0 * p) % 2 ^ 40

/-- The angle of a position with an offset (R147). -/
def Chip.elecAngle (c : Chip) (k : Nat) (p : Int) (off : W32) : W32 :=
  let th := ea (toF (c.elecQ k p)) off
  let th := if f32Le f32One th then es th f32One else th
  if f32Lt th 0 then ea th f32One else th

/-- One Hall edge in combined mode: the first aligns the angle, later ones are checked (R148). -/
def Chip.combEdge (c : Chip) (k : Nat) (e : HallEdge) (w : W32) (ev : FbEvents) : Chip × W32 × FbEvents :=
  let o := c.obs k
  let pos := c.rawPosW k e.inc
  let b := ratToF32 e.sixth 6
  if !o.aligned then
    (c.setObs k { o with aligned := true, effOff := es b (toF (c.elecQ k pos)) }, w, ev)
  else
    let d := es (c.elecAngle k pos o.effOff) b
    let d := fabs d
    let d := if f32Lt f32Half d then es f32One d else d
    if f32Lt (ratToF32 1 12) d then c.obsMismatch k w ev else (c, w, ev)

/-- The prediction of R143: position and velocity one tick on. -/
def Chip.obsPredict (c : Chip) (k : Nat) : Int × W32 :=
  let v := c.obsVel k
  let a := c.obsAcc k
  let t := c.tS
  (wrapQ (c.obsPos k + toQ (ea (em v t) (em a (em (em t t) f32Half)))), ea v (em a t))

/-- Prediction and correction by a residual `e` (R143). -/
def Chip.obsCorrect (c : Chip) (k : Nat) (pp : Int) (vp e : W32) : Chip :=
  let a := c.obsAcc k
  ((c.setPairI (recReg k 0) (wrapQ (pp + toQ (em (c.reg (obsReg k 11)) e)))).setReg (recReg k 2)
    (ea vp (em (c.reg (obsReg k 12)) e))).setReg (recReg k 3) (ea a (em (c.reg (obsReg k 13)) e))

/-- The residual of a Hall edge (R144 steps 1 to 3), from the state before this tick's prediction. (Model: DEDUCED, log 39) -/
def Chip.hallResidual (c : Chip) (k : Nat) (e : HallEdge) : W32 :=
  let tau := ratToF32 ((e.time : Int) - c.fbk.prevT0) 1000000000
  let pe := c.obsPos k + toQ (ea (em (c.obsVel k) tau) (em (c.obsAcc k) (em (em tau tau) f32Half)))
  toF (wrapQ (c.rawPosW k e.bound - pe))

/-- The sector clamp of R144; the word is word 7 of the record. -/
def Chip.sectorClamp (c : Chip) (k : Nat) (w : W32) : Chip × W32 :=
  let cnt := (c.lch (c.obsLch k)).countTick
  let x := c.rawPosW k cnt
  let y := c.rawPosW k (cnt + 1)
  let lo := min x y
  let hi := max x y
  let p := c.obsPos k
  if lo ≤ p ∧ p < hi then (c, w)
  else
    let q := if p < lo then lo else hi - 1
    (((c.setPairI (recReg k 0) q).setReg (recReg k 2) 0).setReg (recReg k 3) 0, setBit w 1 true)

/-- A lost or frozen tick: the coast counter, the events of a run's first tick, and the fault action (R153). (Model: DEDUCED, log 95) -/
def Chip.obsCoast (c : Chip) (k : Nat) (was w : W32) (lost : Bool) (ev : FbEvents) : Chip × W32 × FbEvents :=
  let n := satN 15 (fld w 23 20 + 1)
  let w := setFld (setBit (setBit w 7 true) (if lost then 2 else 3) true) 23 20 n
  let ev := if lost && !bit was 2 then { ev with loss := true } else ev
  let ev := if !lost && !bit was 3 then { ev with freeze := true } else ev
  if n > c.regF (obsReg k 0) 6 3 then c.obsEnterFault k w ev else (c, w, ev)

/-- The published electrical angle and ELEC_VALID (R147, R148). -/
def Chip.obsElec (c : Chip) (k : Nat) (w : W32) : Chip × W32 :=
  if c.regF (obsReg k 1) 7 0 = 0 then (c.setReg (recReg k 4) 0, setBit w 6 false)
  else
    let o := c.obs k
    if c.obsComb k && !o.aligned then
      (c.setReg (recReg k 4) (ratToF32 (2 * (c.lch (c.obsLch k)).sectorTick + 1) 12), setBit w 6 false)
    else
      let off := if c.obsComb k then o.effOff else c.reg (obsReg k 10)
      let valid := if c.obsHall k then o.aligned else true
      (c.setReg (recReg k 4) (c.elecAngle k (c.obsPos k) off), setBit w 6 valid)

/-- An initialised observer's update with a measurement (R143, R152, R153). -/
def Chip.obsMeasured (c : Chip) (k : Nat) (s : Sample) (seqFrozen : Bool) (was w : W32) (ev : FbEvents) :
    Chip × W32 × FbEvents :=
  let pr := c.obsPredict k
  let o := c.obs k
  let e := toF (wrapQ (s.m - pr.1))
  let count := !s.lost && !seqFrozen
  let again := o.lastRaw == some s.raw
  let same := if again then o.same + 1 else 0
  let frz := c.regF (obsReg k 1) 31 24
  let rawFrozen := count && frz != 0 && again && (o.frozen || (decide (same ≥ frz) && f32Lt (c.reg (obsReg k 6)) (fabs e)))
  let c := if count then c.setObs k { o with lastRaw := some s.raw, same := same, frozen := rawFrozen } else c
  if s.lost || seqFrozen || rawFrozen then
    let c := (c.setPairI (recReg k 0) pr.1).setReg (recReg k 2) pr.2
    c.obsCoast k was w s.lost ev
  else (c.obsCorrect k pr.1 pr.2 e, setFld w 23 20 0, ev)

/-- An initialised observer on a Hall channel (R144). (Model: DEDUCED, log 39; DESIGN CHOICE, log 105) -/
def Chip.obsHallTick (c : Chip) (k : Nat) (s : Sample) (was w : W32) (ev : FbEvents) : Chip × W32 × FbEvents :=
  let pr := c.obsPredict k
  let l := c.lch (c.obsLch k)
  if s.lost then
    let c := (c.setPairI (recReg k 0) pr.1).setReg (recReg k 2) pr.2
    c.obsCoast k was w true ev
  else
    let w := setFld w 23 20 0
    let done := match l.hallTick.getLast? with
      | some e =>
        let r := c.hallResidual k e
        ((c.obsCorrect k pr.1 pr.2 r).setObs k { c.obs k with aligned := true }, w)
      | none => ((c.setPairI (recReg k 0) pr.1).setReg (recReg k 2) pr.2, setBit w 7 true)
    let x := done.1.sectorClamp k done.2
    (x.1, x.2, ev)

/-- An uninitialised observer (R145, R146). (Model: DESIGN CHOICE, log 105) -/
def Chip.obsUninit (c : Chip) (k : Nat) (s : Sample) (was w : W32) (ev : FbEvents) : Chip × W32 × FbEvents :=
  if s.lost then c.obsCoast k was w true ev
  else if c.obsHall k then
    let cnt := (c.lch (c.obsLch k)).countTick
    let c := c.setPairI (recReg k 0) (shrI (c.rawPosW k cnt + c.rawPosW k (cnt + 1)) 1)
    (c, setFld (setBit w 17 true) 23 20 0, ev)
  else
    let c := c.setObs k { c.obs k with lastRaw := some s.raw, same := 0, frozen := false }
    (c.setPairI (recReg k 0) s.m, setFld (setBit w 17 true) 23 20 0, ev)

/-- Whether index evaluation is suspended: homing on the index runs on channel `k` (R226). (Model: DEDUCED, log 38) -/
def Chip.indexSuspended (c : Chip) (k : Nat) : Bool :=
  let m := c.regF (0x334000 + 128 * k) 31 29
  c.regF (0x334000 + 128 * k + 64) 31 28 != 0 && (m == 2 || m == 3)

/-- One active observer in one tick (R143 to R154). -/
def Chip.obsTick (c : Chip) (k : Nat) (ev : FbEvents) : Chip × FbEvents :=
  let was := c.reg (recReg k 7)
  let w := was &&& 0xFFFE0340#32
  let isLocal := c.obsSrc k == 3
  let n := c.obsLch k
  let c := c.setObs k { c.obs k with fresh := !c.obsInit k }
  -- index and Hall edges first, unless the local sample is lost (R154)
  let edges := isLocal && !(c.localSample k).lost
  let x := if edges && c.lchMode n != 1 && c.reg (obsReg k 7) != 0 && !c.indexSuspended k then
      c.indexEdges k n (c.lch n).zTick.length 0 w ev else (c, w, ev)
  let x := if edges && c.obsComb k && c.regF (obsReg k 1) 7 0 != 0 then
      (c.lch n).hallTick.foldl (fun y e => y.1.combEdge k e y.2.1 y.2.2) x else x
  let c := x.1
  let s := if isLocal then c.localSample k else c.remoteSample k
  let w := match s.nstat with | some v => setFld x.2.1 31 24 v | none => x.2.1
  let old := (c.obs k).seq
  let seqFrozen := match s.taken, old with | some (_, _, q), some p => q == p | _, _ => false
  let skip := match s.taken, old with
    | some (_, _, q), some p => q != p && q != (p + 1) % 65536
    | _, _ => false
  let w := setBit w 10 skip
  let c := match s.taken with
    | some (ia, ib, q) =>
      ((c.setReg (recReg k 5) ia).setReg (recReg k 6) ib).setObs k
        { c.obs k with seq := some q, raw := some (s.raw, s.posLo) }
    | none => c
  let y := if !c.obsInit k then c.obsUninit k s was w x.2.2
    else if c.obsHall k then c.obsHallTick k s was w x.2.2
    else c.obsMeasured k s seqFrozen was w x.2.2
  let z := if bit y.2.1 17 then y.1.obsElec k y.2.1
    else (y.1.setReg (recReg k 4) 0, setBit (setBit y.2.1 6 false) 7 true)
  (z.1.setReg (recReg k 7) z.2, y.2.2)

/-! ## The feedback phase -/

/-- A clear of an observer's fault state (R155). -/
def Chip.obsClear (c : Chip) (k : Nat) : Chip :=
  let w := c.reg (recReg k 7)
  c.setReg (recReg k 7) (setFld (setFld (setBit (setBit w 9 false) 8 false) 19 18 0) 23 20 0)

/-- Fault actions asked for by other units, at the tick that follows (R28, R438, R459, R463): FAULT is held on every
joint of the named arms, or on every joint. The Bool says whether a joint enters its fault action by it. -/
def Chip.outsideFaults (c : Chip) : Chip × Bool :=
  let hit := fun j => c.allFault || (match c.jointArm j with | some (a, _) => c.armFaults.contains a | none => false)
  let js := c.obsKeys.filter fun j => decide (j < 128) && c.regB (obsReg j 0) 31 && !c.obsFault j && hit j
  let c := forL js (fun j c => (c.obsTakeFact j).setB (recReg j 7) 9 true) c
  ({ c with armFaults := [], allFault := false }, !js.isEmpty)

/-- The feedback part of a completed homing (R229): HSHIFT, p and the p_previous of divided outputs move by Δ, and for modes 2 and 3 the index reference
becomes the captured count. (Model: DEDUCED, log 45) -/
def Chip.homeShift (c : Chip) (k : Nat) (x : Chan) : Chip := match x.home.delta with
  | none => c
  | some d =>
    let c := c.setPairI (0x334000 + 128 * k + 48) (wrapQ (c.hshift k + d))
    let c := c.setPairI (recReg k 0) (wrapQ (c.obsPos k + d))
    let c := c.setObs k { c.obs k with prevPos := wrapQ ((c.obs k).prevPos + d) }
    match x.home.zRaw with
    | some z => ((c.setReg (obsReg k 9) (BitVec.ofInt 32 z)).setF (recReg k 7) 19 18 0).setB (recReg k 7) 8 false
    | none => c

/-- The copy of all records to cell memory (R160). -/
def Chip.mirrorCopy (c : Chip) : Chip :=
  if c.regB 0x400004 31 then
    let o := cellBase + c.regF 0x400004 22 0
    c.engineStore o ((List.range 2048).flatMap fun i => toBytes 4 (c.reg (0x410000 + 4 * i)).toNat)
  else c

/-- The feedback phase of a tick (R143, R155, R158, R159). -/
def Chip.feedbackPhase (c : Chip) : Chip :=
  let ws := c.fbk.writes
  let cl := c.fbk.clears
  let c := c.modFbk fun f => { f with writes := [], clears := [] }
  let c := forL ws (fun x c => c.obsTake x) c
  let c := forL cl (fun k c => c.obsClear k) c
  let o := c.outsideFaults
  let c := forL o.1.prf.chans (fun e c => c.homeShift e.1 e.2) o.1
  let r := c.obsKeys.foldl (fun (r : Chip × FbEvents) k =>
    if r.1.obsActive k then r.1.obsTick k r.2 else (r.1.obsInactive k, r.2)) (c, { FbEvents.zero with fault := o.2 })
  let c := r.1.divFromObs.mirrorCopy
  let ev := r.2
  let c := c.fire 1
  let c := if ev.fault then c.fire 352 else c
  let c := if ev.mismatch then c.fire 353 else c
  let c := if ev.corr then c.fire 354 else c
  let c := if ev.loss then c.fire 355 else c
  if ev.freeze then c.fire 356 else c

/-! ## The checks on leaving CONFIG -/

/-- Whether the enabled observers' configuration holds (R134, R137, R138, R142, R160). (Model: DEDUCED, log 40) -/
def Chip.fbkOk (c : Chip) : Bool :=
  let on := c.obsKeys.filter fun k => c.regB (obsReg k 0) 31
  let arms := on.filterMap c.jointArm
  on.all (fun k => c.bwValid (c.reg (obsReg k 5)) && c.obsCfgOk k (c.reg (obsReg k 0)))
    && distinct (arms.map fun a => a.1 * 8 + a.2)
    && (List.range 16).all (fun n => !(c.regB (lchReg n 0) 31 && c.lchMode n == 2)
        || (decide (n < 8) && !c.regB (lchReg (n + 8) 0) 31))
    && !(c.regB 0x400004 31 && decide (c.regF 0x400004 22 0 > 0x7FE000))

/-- The FBK block's check on leaving CONFIG; the gains of every observer with a valid BW are computed when it passes (R142).
(Model: DEDUCED, log 40) -/
def Chip.fbkLeave (c : Chip) : Chip × Bool :=
  if c.fbkOk then (forN 256 (fun k c => if c.bwValid (c.reg (obsReg k 5)) then c.setGains k else c) c, true) else (c.fbkErr, false)

end Sys2Proof.Machine
end

