-- ==== Sys2Proof/Machine/Loop.lean ====
section
/-!
DEFINITION. The loop engine (R161 to R187): loop slots, links and effective outputs, transform units, coefficient banks,
mode sets with their hand-over, command records, and the loop phase.
-/
namespace Sys2Proof.Machine

/-! ## Registers -/

def slotReg (s w : Nat) : Nat := 0x210000 + 64 * s + 4 * w
def stateReg (s w : Nat) : Nat := 0x220000 + 64 * s + 4 * w
def xfReg (j w : Nat) : Nat := 0x230000 + 32 * j + 4 * w
def msetReg (n w : Nat) : Nat := 0x231000 + 32 * n + 4 * w
def slotGrpReg (g w : Nat) : Nat := 0x232000 + 8 * g + 4 * w
def cmdReg (j w : Nat) : Nat := 0x234000 + 16 * j + 4 * w
def bankReg (s b w : Nat) : Nat := 0x280000 + 512 * s + 256 * b + 4 * w
/-- PRF_SP: the set-point records the loop engine reads (R163). -/
def spReg (k w : Nat) : Nat := 0x330000 + 16 * k + 4 * w

def Chip.lpeStat (c : Chip) (b : Nat) : Chip := c.setB 0x200000 b true
/-- LPE_STAT.CFG_IGN and CFG_ERR. -/
def Chip.lpeIgn (c : Chip) : Chip := c.lpeStat 1
def Chip.lpeErr (c : Chip) : Chip := c.lpeStat 0
def Chip.modLpe (c : Chip) (f : Lpe → Lpe) : Chip := { c with lpe := f c.lpe }

def LoopSlot.zero : LoopSlot := { last := none, atLimit := false, swapAt := none }
def Chip.lslot (c : Chip) (s : Nat) : LoopSlot := tabGet (fun _ => LoopSlot.zero) c.lpe.slots s
def Chip.setLslot (c : Chip) (s : Nat) (x : LoopSlot) : Chip :=
  c.modLpe fun l => { l with slots := tabPut (fun _ => LoopSlot.zero) l.slots s x }
def ModeRun.zero : ModeRun := { out := 0, n1 := 0, f := 0 }
def Chip.modeRun (c : Chip) (n : Nat) : ModeRun := tabGet (fun _ => ModeRun.zero) c.lpe.modes n
def Chip.setModeRun (c : Chip) (n : Nat) (x : ModeRun) : Chip :=
  c.modLpe fun l => { l with modes := tabPut (fun _ => ModeRun.zero) l.modes n x }

def Chip.slotEn (c : Chip) (s : Nat) : Bool := c.regB (slotReg s 0) 31
def Chip.slotNsec (c : Chip) (s : Nat) : Nat := min 8 (c.regF (slotReg s 0) 29 26)
def Chip.slotDiv (c : Chip) (s : Nat) : Nat := c.regF (slotReg s 0) 25 22 + 1
def Chip.slotPhase (c : Chip) (s : Nat) : Nat := c.regF (slotReg s 0) 21 18
def Chip.slotBank (c : Chip) (s : Nat) : Nat := c.regF (slotReg s 8) 31 31
def Chip.slotSwp (c : Chip) (s : Nat) : Bool := c.regB (slotReg s 8) 30
def Chip.slotOut (c : Chip) (s : Nat) : W32 := c.reg (slotReg s 9)
def Chip.slotDue (c : Chip) (s m : Nat) : Bool := m % c.slotDiv s == c.slotPhase s
def Chip.xfEn (c : Chip) (j : Nat) : Bool := c.regB (xfReg j 0) 31
def Chip.msetEn (c : Chip) (n : Nat) : Bool := c.regB (msetReg n 0) 31
def Chip.msetXf (c : Chip) (n : Nat) : Nat := c.regF (msetReg n 0) 7 0
def Chip.msetAct (c : Chip) (n : Nat) : Nat := c.regF (msetReg n 6) 31 30
def Chip.msetState (c : Chip) (n : Nat) : Nat := c.regF (msetReg n 6) 29 28
/-- TO of a mode set. (Model: DEDUCED, log 43) -/
def Chip.msetTo (c : Chip) (n : Nat) : Nat := c.regF (msetReg n 6) 27 26
def Chip.msetValid (c : Chip) (n a : Nat) : Bool := c.regB (msetReg n (2 + a)) 31
def Chip.msetFinal (c : Chip) (n a : Nat) : Nat := c.regF (msetReg n (2 + a)) 9 0

/-- Slots, transform units and mode sets that hold any stored word. -/
def Chip.slotKeys (c : Chip) : List Nat := c.unitsIn 0x210000 0x220000 64
def Chip.xfKeys (c : Chip) : List Nat := c.unitsIn 0x230000 0x231000 32
def Chip.msetKeys (c : Chip) : List Nat := c.unitsIn 0x231000 0x232000 32

/-- Raises a cause of the slot's group (R186). -/
def Chip.slotCause (c : Chip) (s b : Nat) : Chip :=
  let w := c.reg (slotReg s 7)
  if bit w 23 then
    let g := fld w 21 16
    (c.setB (slotGrpReg g 1) b true).modLpe fun l =>
      { l with now := tabPut (fun _ => 0) l.now g (tabGet (fun _ => 0) l.now g ||| 2 ^ b) }
  else c

/-! ## Which slots run, and effective outputs (R168 to R170, R179) -/

/-- Whether an alternative of an enabled mode set runs: the active one, and in a hand-over both. -/
def Chip.altRuns (c : Chip) (n a : Nat) : Bool :=
  c.msetEn n && (c.msetAct n == a || (c.msetState n != 0 && (c.msetTo n == a || (c.modeRun n).out == a)))

/-- Whether a slot runs: it is evaluated whenever it is due (R168). (Model: DEDUCED, log 49) -/
def Chip.slotRuns (c : Chip) (s : Nat) : Bool :=
  let w := c.reg (slotReg s 7)
  c.slotEn s && (!bit w 15 || c.altRuns (fld w 6 0) (fld w 8 7))

/-- Whether the effective output at tick `m` is OUT, not PREV (R169). -/
def Chip.effIsOut (c : Chip) (s m : Nat) : Bool :=
  !c.slotRuns s || (match (c.lslot s).last with | none => true | some n => decide (n + c.slotDiv s ≤ m))

/-- The effective output E_s(m). -/
def Chip.effOut (c : Chip) (s m : Nat) : W32 := if c.effIsOut s m then c.slotOut s else c.reg (slotReg s 10)

/-- f32 of a small number. -/
def natF (n : Nat) : W32 := intToF32 (n : Int)

/-- The interpolated value of a link from slot `o` to slot `s` at tick `m` (R170). -/
def Chip.linkOut (c : Chip) (o s m : Nat) : W32 :=
  match (c.lslot o).last, c.slotRuns o with
  | some last, true =>
    let isOut := c.effIsOut o m
    let cur := c.effOut o m
    let prev := if isOut then c.reg (slotReg o 10) else c.reg (slotReg o 11)
    let nc : Int := if isOut then last else (last : Int) - c.slotDiv o
    let k := c.slotDiv o / c.slotDiv s
    let i : Int := ((m : Int) - nc - c.slotDiv o) / (c.slotDiv s : Int)
    if i + 1 ≥ k then cur else ea prev (em (es cur prev) (ed (intToF32 (i + 1)) (natF k)))
  | _, _ => c.slotOut o

/-- M(m), the output of a mode set (R179, R180). -/
def Chip.msetOut (c : Chip) (n m : Nat) : W32 :=
  if c.msetState n = 0 then c.effOut (c.msetFinal n (c.msetAct n)) m
  else
    let r := c.modeRun n
    let xf := c.msetXf n
    let eo := c.effOut (c.msetFinal n r.out) m
    let en := c.effOut (c.msetFinal n (c.msetTo n)) m
    if m < r.f then eo
    else if m < r.f + xf then ea eo (em (es en eo) (ed (natF (m - r.f)) (natF xf)))
    else en

/-! ## Sine table and transforms (R173, R174) -/

/-- sin(2πk / 65536) truncated toward zero to f32 (R173). -/
def sinTab (k0 : Nat) : W32 :=
  let k := k0 % 65536
  let h := k % 32768
  let r := if h ≤ 16384 then h else 32768 - h
  if r = 0 then 0
  else
    let mag := if r = 16384 then f32One else
      truncMag false (sinScaled (piScaled * r / 32768)) (-160)
    withSign (decide (k ≥ 32768)) mag

/-- sn and cs of an angle in turns. -/
def sinCos (th : W32) : W32 × W32 :=
  let k := wrapN 16 (f32Fix 0 (em th 0x47800000#32))
  (sinTab k, sinTab (k + 16384))

/-- Measured currents id and iq of transform unit `j` (R173). -/
def Chip.measured (c : Chip) (j : Nat) : W32 × W32 :=
  let ia := c.reg (recReg j 5)
  let ib := c.reg (recReg j 6)
  let t := sinCos (c.reg (recReg j 4))
  let ibe := em (ea ia (ea ib ib)) 0x3F13CD3A#32
  ((fma true (em ia t.2) ibe t.1).1, (fms true (em ibe t.2) ia t.1).1)

/-- The outputs va and vb of a transform unit for vd and vq (R174). -/
def Chip.rotated (c : Chip) (j : Nat) (vd vq : W32) : W32 × W32 :=
  let pp := natF (c.regF (obsReg j 1) 7 0)
  let th := ea (c.reg (recReg j 4)) (em (em pp (c.obsVel j)) (em (c.reg (xfReg j 1)) c.tS))
  let th := es th (intToF32 (f32Fix 0 th))
  let t := sinCos th
  ((fms true (em vd t.2) vq t.1).1, (fma true (em vd t.1) vq t.2).1)

/-! ## Sources (R163, R164) -/

/-- The published half of a publish buffer: its offset in cell memory and its size; none when no plan names it. -/
def Chip.publishedHalf (c : Chip) (b : Nat) : Option (Nat × Nat) := match c.sched.plan with
  | some p => (p.bufs.find? fun x => x.buf == b).map fun x => (if x.published then x.half1 else x.half0, x.size)
  | none => none

/-- The f32 word of a source, as it stands; `sp` marks the set-point of slot `s`. -/
def Chip.srcWord (c : Chip) (s m : Nat) (w : W32) (sp : Bool) : W32 :=
  let i := fld w 23 0
  match fld w 31 28 with
  | 1 => c.reg (slotReg s 4)
  | 3 => c.reg (spReg i 2)
  | 4 => c.reg (spReg i 3)
  | 6 => c.obsVel i
  | 7 => c.obsAcc i
  | 8 => (c.measured i).1
  | 9 => (c.measured i).2
  | 10 => if sp && c.regB (slotReg s 0) 17 then c.linkOut i s m else c.effOut i m
  | 11 => match c.publishedHalf (i / 65536) with
    | some (o, _) => BitVec.ofNat 32 (c.engineNum (cellBase + o + 4 * (i % 65536)) 4)
    | none => 0
  | 12 => c.msetOut i m
  | _ => 0

/-- The words of buffers that an update of slot `s` reads. -/
def Chip.slotReads (c : Chip) (s : Nat) : List Nat := [1, 2, 3].filterMap fun w =>
  let v := c.reg (slotReg s w)
  if fld v 31 28 = 11 ∧ (w = 3 ∨ c.regB (slotReg s 0) 30 = false) then
    (c.publishedHalf (fld v 23 0 / 65536)).map fun h => cellBase + h.1 + 4 * (fld v 23 0 % 65536)
  else none

/-- A source word that holds a NaN enters as +0 and raises INV (R164). (Model: DEDUCED, log 42) -/
def denan (w : W32) : W32 × Bool := if isNaN32 w then (0, true) else (w, false)

/-- The error e of a slot, and whether a source held a NaN (R164). -/
def Chip.slotErr (c : Chip) (s m : Nat) : W32 × Bool :=
  let wsp := c.reg (slotReg s 1)
  let wfb := c.reg (slotReg s 2)
  if c.regB (slotReg s 0) 30 then
    let sp := if fld wsp 31 28 = 2 then c.pairI (spReg (fld wsp 23 0) 0) else c.pairI (slotReg s 4)
    (toF (wrapQ (sp - c.obsPos (fld wfb 23 0))), false)
  else
    let sp := denan (c.srcWord s m wsp true)
    let fb := denan (c.srcWord s m wfb false)
    (es sp.1 fb.1, sp.2 || fb.2)

/-! ## One update of a slot (R165, R166, R172, R181, R182) -/

/-- Coefficient `w` of section `i` of a bank: B0, B1, B2, A1, A2. -/
def Chip.coef (c : Chip) (s b i w : Nat) : W32 := c.reg (bankReg s b (5 * i + w))

/-- n1 and n2 of a section for its input and output. -/
def Chip.secNext (c : Chip) (s b i : Nat) (x y : W32) : W32 × W32 :=
  ((fms true (fma true (c.reg (stateReg s (2 * i + 1))) (c.coef s b i 1) x).1 (c.coef s b i 3) y).1,
   (fms true (em (c.coef s b i 2) x) (c.coef s b i 4) y).1)

/-- `n` sections from section `i` on: the chain's output and the new states. -/
def Chip.sections (c : Chip) (s b : Nat) : (n i : Nat) → (x : W32) → W32 × List (W32 × W32)
  | 0, _, x => (x, [])
  | n + 1, i, x =>
    let y := (fma true (c.reg (stateReg s (2 * i))) (c.coef s b i 0) x).1
    let r := c.sections s b n (i + 1) y
    (r.1, c.secNext s b i x y :: r.2)

/-- Commits section states from section `i` on; integrating sections keep theirs when `hold` (R166). -/
def Chip.commitStates (c : Chip) (s : Nat) (hold : Bool) : (i : Nat) → List (W32 × W32) → Chip
  | _, [] => c
  | i, n :: l =>
    (if hold && c.regB (slotReg s 0) (8 + i) then c
     else (c.setReg (stateReg s (2 * i)) n.1).setReg (stateReg s (2 * i + 1)) n.2).commitStates s hold (i + 1) l

/-- Whether joint `j` holds zero torque: FACT 1 held, or its observer is active and initialised in no earlier tick (R146, R172). -/
def Chip.zeroTorque (c : Chip) (j : Nat) : Bool :=
  (c.obsFault j && (c.obs j).fact) || (c.obsActive j && (!c.obsInit j || (c.obs j).fresh))
def Chip.slotFrozen (c : Chip) (s : Nat) : Bool :=
  let w := c.reg (slotReg s 7)
  bit w 31 && c.zeroTorque (fld w 30 24)

/-- What one update computes. -/
structure SlotUpd where
  bank   : Nat
  err    : W32
  u      : W32
  out    : W32
  nexts  : List (W32 × W32)
  /-- s1 of an integrating last section of a back-calculation whose update is at a limit or frozen (R181). -/
  s1b    : Option W32
  inv    : Bool
  deriving DecidableEq, Repr

/-- Clamping to limits: HI first (R166). (Model: DEDUCED, log 42; DEDUCED, log 43) -/
def limitF (lo hi u : W32) : W32 := if f32CmpLe hi u then hi else if f32CmpLe u lo then lo else u

/-- The mode set whose incoming final slot is `s` with n1 = m, if any: then the update is a back-calculation. -/
def Chip.backCalc (c : Chip) (s m : Nat) : Option Nat :=
  let w := c.reg (slotReg s 7)
  let n := fld w 6 0
  if bit w 15 && c.msetEn n && c.msetState n == 1 && c.msetFinal n (c.msetTo n) == s
      && fld w 8 7 == c.msetTo n && (c.modeRun n).n1 == m then some n else none

/-- An update of slot `s` in tick `m` with bank `b`, from the state at the start of the phase. -/
def Chip.slotUpdate (c : Chip) (s m b : Nat) : SlotUpd :=
  let e := c.slotErr s m
  let ff := denan (c.srcWord s m (c.reg (slotReg s 3)) false)
  let gain := c.reg (bankReg s b 40)
  let kff := c.reg (bankReg s b 41)
  let lo := c.reg (bankReg s b 42)
  let hi := c.reg (bankReg s b 43)
  match c.backCalc s m with
  | some n =>
    let i := c.slotNsec s - 1
    let r := c.sections s b i 0 e.1
    let ut := c.msetOut n m
    let uc := (fmin true (fmax true ut lo).1 hi).1
    let y := ed (es uc (em kff ff.1)) gain
    { bank := b, err := e.1, u := ut, out := uc, nexts := r.2 ++ [c.secNext s b i r.1 y]
      s1b := some (fms true y (c.coef s b i 0) r.1).1, inv := e.2 || ff.2 }
  | none =>
    let r := c.sections s b (c.slotNsec s) 0 e.1
    let u := (fma true (em gain r.1) kff ff.1).1
    { bank := b, err := e.1, u := u, out := limitF lo hi u, nexts := r.2, s1b := none, inv := e.2 || ff.2 }

/-- MODE_CLAMP of a back-calculation (R182). (Model: DEDUCED, log 42; DEDUCED, log 43) -/
def Chip.modeClamp (c : Chip) (s n : Nat) : Chip :=
  (((c.setB (slotReg s 8) 25 true).setB (msetReg n 6) 25 true).lpeStat 2).slotCause s 2

/-- One update of a slot: `c0` is the state at the start of the phase (R161), `c` takes the results. (Model: DEDUCED, log 49) -/
def Chip.evalSlot (c0 c : Chip) (s m : Nat) : Chip :=
  let swap := match (c0.lslot s).swapAt with | some t => decide (t ≤ m) | none => false
  let b := if swap then 1 - c0.slotBank s else c0.slotBank s
  let c := if swap then
      (((c.setF (slotReg s 8) 31 31 b).setB (slotReg s 8) 30 false).setLslot s { c.lslot s with swapAt := none }).slotCause s 0
    else c
  let r := c0.slotUpdate s m b
  let lo := c0.reg (bankReg s b 42)
  let hi := c0.reg (bankReg s b 43)
  let atHi := f32CmpLe hi r.u
  let atLo := f32CmpLe r.u lo
  let frozen := c0.slotFrozen s
  let hold := atHi || atLo || frozen
  let c := c.commitStates s hold 0 r.nexts
  let i := c0.slotNsec s - 1
  let c := match r.s1b with
    | some v => if hold && c0.regB (slotReg s 0) (8 + i) then c.setReg (stateReg s (2 * i)) v else c
    | none => c
  let c := match c0.backCalc s m with
    | some n => if f32CmpLt hi r.u || f32CmpLt r.u lo then c.modeClamp s n else c
    | none => c
  let c := ((c.setReg (slotReg s 11) (c.reg (slotReg s 10))).setReg (slotReg s 10) (c.slotOut s)).setReg (slotReg s 9) r.out
  let c := ((c.setReg (slotReg s 12) r.err).setReg (slotReg s 13) r.u).setReg (slotReg s 14) (BitVec.ofNat 32 m)
  let c := ((c.setB (slotReg s 8) 28 atLo).setB (slotReg s 8) 27 atHi).setB (slotReg s 8) 26 frozen
  let c := if (atHi || atLo) && !(c.lslot s).atLimit then c.slotCause s 1 else c
  let c := c.setLslot s { c.lslot s with last := some m, atLimit := atHi || atLo }
  if r.inv then ((c.setB (slotReg s 8) 24 true).lpeStat 4).slotCause s 4 else c

/-! ## Checks (R178, R184) -/

def finite32 (w : W32) : Bool := f32Exp w != 255

/-- Whether a slot is the final slot of some alternative of a mode set. (Model: DEDUCED, log 42) -/
def Chip.isFinal (c : Chip) (s : Nat) : Bool :=
  c.msetKeys.any fun n => (List.range 4).any fun a => c.msetValid n a && c.msetFinal n a == s

/-- The checks of a bank (R178). -/
def Chip.bankOk (c : Chip) (s b : Nat) : Bool :=
  (List.range 44).all (fun w => finite32 (c.reg (bankReg s b w)))
    && f32Le (c.reg (bankReg s b 42)) (c.reg (bankReg s b 43))
    && (!c.isFinal s || !isZero32 (c.reg (bankReg s b 40)))

/-- A source word's kind and index (R163, R184 items 2, 3 and 5); role 0 is SP, 1 FB, 2 FF. -/
def Chip.srcOk (c : Chip) (role : Nat) (poserr : Bool) (w : W32) : Bool :=
  let i := fld w 23 0
  fld w 27 24 == 0 && match fld w 31 28 with
  | 0 => i == 0 && !(poserr && role != 2)
  | 1 => i == 0 && role != 1
  | 2 => role == 0 && poserr && decide (i < 256)
  | 3 | 4 => role != 1 && !(poserr && role == 0) && decide (i < 256)
  | 5 => role == 1 && poserr && decide (i < 256)
  | 6 | 7 => !(poserr && role != 2) && decide (i < 256)
  | 8 | 9 => role == 1 && !poserr && decide (i < 128) && c.xfEn i
  | 10 => role != 1 && !(poserr && role == 0) && decide (i < 1024)
  | 11 => !(poserr && role != 2) && (match c.publishedHalf (i / 65536) with
      | some (_, size) => decide (4 * (i % 65536) + 4 ≤ size)
      | none => false)
  | 12 => role != 1 && !(poserr && role == 0) && decide (i < 128) && c.msetEn i
  | _ => false

/-- A destination word: kind and word in range, and the unit it drives enabled. -/
def Chip.destOk (c : Chip) (w : W32) : Bool := match fld w 31 30 with
  | 0 => true
  | 1 => decide (fld w 29 28 ≤ 2)
  | 2 => decide (fld w 29 28 ≤ 1) && c.xfEn (fld w 22 16)
  | _ => false

/-- The checks of one enabled slot. -/
def Chip.slotOk (c : Chip) (s : Nat) : Bool :=
  let w := c.reg (slotReg s 0)
  let wsp := c.reg (slotReg s 1)
  let pe := bit w 30
  decide (fld w 29 26 ≤ 8) && decide (c.slotPhase s < c.slotDiv s)
    && c.srcOk 0 pe wsp && c.srcOk 1 pe (c.reg (slotReg s 2)) && c.srcOk 2 pe (c.reg (slotReg s 3))
    && (fld wsp 31 28 != 10 ||
        (let o := fld wsp 9 0
         c.slotDiv o % c.slotDiv s == 0 && decide (c.slotDiv o / c.slotDiv s ≤ 16)
           && c.slotPhase o % c.slotDiv s == c.slotPhase s))
    && c.destOk (c.reg (slotReg s 6)) && c.bankOk s (c.slotBank s)

/-- The checks of one enabled mode set (R179, R184 item 6). -/
def Chip.msetOk (c : Chip) (n : Nat) : Bool :=
  c.msetValid n (c.regF (msetReg n 0) 25 24) && c.destOk (c.reg (msetReg n 1)) &&
  (List.range 4).all fun a => !c.msetValid n a ||
    (let f := c.msetFinal n a
     let w := c.reg (slotReg f 7)
     bit w 15 && fld w 6 0 == n && fld w 8 7 == a && c.slotNsec f != 0 && c.regF (slotReg f 6) 31 30 == 0
       && !isZero32 (c.reg (bankReg f (c.slotBank f) 40)))

/-- A destination as one number: kind, joint and word; nothing for kind 0. -/
def destKey (w : W32) : List Nat :=
  if fld w 31 30 = 0 then [] else [fld w 31 30 * 1024 + fld w 22 16 * 4 + fld w 29 28]

/-- Every destination driven by an enabled slot, mode set or transform unit. -/
def Chip.drivers (c : Chip) : List Nat :=
  (c.slotKeys.filter c.slotEn).flatMap (fun s => destKey (c.reg (slotReg s 6))) ++
  (c.msetKeys.filter c.msetEn).flatMap (fun n => destKey (c.reg (msetReg n 1))) ++
  (c.xfKeys.filter c.xfEn).flatMap (fun j => [1024 + 4 * j, 1024 + 4 * j + 1])

/-- Every check of R184. -/
def Chip.lpeOk (c : Chip) : Bool :=
  (c.slotKeys.filter c.slotEn).all c.slotOk && (c.msetKeys.filter c.msetEn).all c.msetOk && distinct c.drivers

/-- Enabling a mode set makes ALT_INIT active (R179). -/
def Chip.msetInit (c : Chip) (n : Nat) : Chip :=
  (c.setF (msetReg n 6) 31 26 (c.regF (msetReg n 0) 25 24 * 16)).setF (msetReg n 6) 7 0 0

/-- The LPE block's check on leaving CONFIG. -/
def Chip.lpeLeave (c : Chip) : Chip × Bool :=
  if c.lpeOk then (c, true) else (c.lpeErr, false)

/-! ## Writes (R175 to R177, R180, R183, R185) -/

/-- A write whose EN goes from 0 to 1 at word `off`: outside CONFIG the checks are made and EN stays 0 on failure. -/
def Chip.enableWrite (c : Chip) (off : Nat) (v : W32) : Chip × Bool :=
  let n := c.mapWrite off v
  if c.inConfig || n.lpeOk then (n, true) else (n.lpeErr.setB off 31 false, false)

/-- A slot becomes enabled: its first update follows one that was not at a limit (R186). -/
def Chip.slotFresh (c : Chip) (s : Nat) : Chip := c.setLslot s { c.lslot s with atLimit := false }

/-- A write to a word of LPE_SLOT. -/
def Chip.slotWrite (c : Chip) (s w : Nat) (v : W32) : Chip :=
  let old := c.reg (slotReg s w)
  let on := c.slotEn s
  if w = 0 then
    if !c.inConfig && on && (old &&& 0x7FFEFF00#32) != (v &&& 0x7FFEFF00#32) then c.lpeIgn
    else if bit v 31 && !on then
      let r := c.enableWrite (slotReg s 0) v
      if r.2 then r.1.slotFresh s else r.1
    else c.mapWrite (slotReg s 0) v
  else if w < 8 then (if !c.inConfig && on then c.lpeIgn else c.mapWrite (slotReg s w) v)
  else if w = 9 then
    if !c.inConfig && c.slotRuns s then c.lpeIgn
    else ((c.setReg (slotReg s 9) v).setReg (slotReg s 10) v).setReg (slotReg s 11) v
  else c.mapWrite (slotReg s w) v

/-- A write to a section state. -/
def Chip.stateWrite (c : Chip) (s w : Nat) (v : W32) : Chip :=
  if !c.inConfig && c.slotRuns s then c.lpeIgn else c.setReg (stateReg s w) v

/-- A write to a coefficient bank (R175). -/
def Chip.bankWrite (c : Chip) (s b w : Nat) (v : W32) : Chip :=
  if w ≥ 44 then c
  else if !c.inConfig && (b == c.slotBank s || c.slotSwp s) then c.lpeIgn
  else c.setReg (bankReg s b w) v

/-- Whether an enabled slot reads a unit through a source of one of the kinds. -/
def Chip.readBySlot (c : Chip) (kinds : List Nat) (i : Nat) : Bool :=
  (c.slotKeys.filter c.slotEn).any fun s => [1, 2, 3].any fun w =>
    let x := c.reg (slotReg s w)
    kinds.contains (fld x 31 28) && fld x 23 0 == i

/-- A write to a word of LPE_XF. -/
def Chip.xfWrite (c : Chip) (j w : Nat) (v : W32) : Chip :=
  let on := c.xfEn j
  if w = 1 then
    if finite32 v && f32Le 0 v && f32Le v 0x40800000#32 then c.setReg (xfReg j 1) v else c.lpeIgn
  else if w ≠ 0 then c
  else if c.inConfig then c.mapWrite (xfReg j 0) v
  else if c.regB (xfReg j 0) 30 != bit v 30 then c.lpeIgn
  else if on && !bit v 31 then
    let driven := ((c.slotKeys.filter c.slotEn).any fun s => (destKey (c.reg (slotReg s 6))).any fun d => d / 4 == 512 + j)
      || ((c.msetKeys.filter c.msetEn).any fun n => (destKey (c.reg (msetReg n 1))).any fun d => d / 4 == 512 + j)
    if driven || c.readBySlot [8, 9] j then c.lpeIgn else c.mapWrite (xfReg j 0) v
  else if !on && bit v 31 then (c.enableWrite (xfReg j 0) v).1
  else c

/-- A write to a word of LPE_MSET. -/
def Chip.msetWrite (c : Chip) (n w : Nat) (v : W32) : Chip :=
  let old := c.reg (msetReg n 0)
  let on := bit old 31
  let busy := on && c.msetState n != 0
  if w = 6 then c.mapWrite (msetReg n 6) v
  else if w = 0 then
    if busy && !bit v 31 then c.lpeIgn
    else if c.inConfig then
      let c := c.mapWrite (msetReg n 0) v
      if bit v 31 && !on then c.msetInit n else c
    else if busy && fld v 7 0 != fld old 7 0 then c.lpeIgn
    else if on && fld v 25 24 != fld old 25 24 then c.lpeIgn
    else if on && !bit v 31 && c.readBySlot [12] n then c.lpeIgn
    else if !on && bit v 31 then
      let r := c.enableWrite (msetReg n 0) v
      if r.2 then r.1.msetInit n else r.1
    else c.mapWrite (msetReg n 0) v
  else if !c.inConfig && on then c.lpeIgn
  else c.mapWrite (msetReg n w) v

/-- LPE_SWAP with GRP 0 (R176). -/
def Chip.swapSlot (c : Chip) (v : W32) : Chip :=
  let s := fld v 9 0
  if c.slotSwp s then c.lpeIgn
  else (c.setB (slotReg s 8) 30 true).modLpe fun l => { l with swaps := l.swaps ++ [(false, [s])] }

/-- LPE_SWAP with GRP 1 (R177). -/
def Chip.swapGroup (c : Chip) (v : W32) : Chip :=
  let g := fld v 5 0
  let ms := (c.slotKeys.filter c.slotEn).filter fun s => c.regB (slotReg s 7) 23 && c.regF (slotReg s 7) 21 16 == g
  if ms.any c.slotSwp then c.lpeIgn
  else (forL ms (fun s c => c.setB (slotReg s 8) 30 true) c).modLpe fun l => { l with swaps := l.swaps ++ [(true, ms)] }

/-- A write of the swap register: a group, or one slot. (Model: DEDUCED, log 41) -/
def Chip.swapWrite (c : Chip) (v : W32) : Chip := if bit v 31 then c.swapGroup v else c.swapSlot v

/-- LPE_MSW (R180): the request waits for the next loop phase. (Model: DEDUCED, log 41) -/
def Chip.mswWrite (c : Chip) (v : W32) : Chip := c.modLpe fun l => { l with switches := l.switches ++ [v] }

/-- A write to a word of the LPE block. (Model: DEDUCED, log 15) -/
def Chip.lpeWrite (c : Chip) (x : Nat) (v : W32) : Chip :=
  if x = 8 then c.swapWrite v
  else if x = 12 then c.mswWrite v
  else if 0x10000 ≤ x ∧ x < 0x20000 then c.slotWrite ((x - 0x10000) / 64) (x % 64 / 4) v
  else if 0x20000 ≤ x ∧ x < 0x30000 then c.stateWrite ((x - 0x20000) / 64) (x % 64 / 4) v
  else if 0x30000 ≤ x ∧ x < 0x31000 then c.xfWrite ((x - 0x30000) / 32) (x % 32 / 4) v
  else if 0x31000 ≤ x ∧ x < 0x32000 then c.msetWrite ((x - 0x31000) / 32) (x % 32 / 4) v
  else if 0x80000 ≤ x then c.bankWrite ((x - 0x80000) / 512) (x % 512 / 256) (x % 256 / 4) v
  else c.mapWrite (0x200000 + x) v

/-- The sine table as a read shows it. (Model: DEDUCED, log 43) -/
def Chip.lpeView (_c : Chip) (x : Nat) (w : W32) : W32 :=
  if 0x40000 ≤ x ∧ x < 0x80000 then sinTab ((x - 0x40000) / 4) else w

/-! ## The loop phase -/

/-- Samples one swap request in tick `m` (R176 to R178). (Model: DEDUCED, log 41) -/
def Chip.sampleSwap (c : Chip) (m : Nat) (r : Bool × List Nat) : Chip :=
  if r.2.all fun s => c.bankOk s (1 - c.slotBank s) then
    forL r.2 (fun s c => c.setLslot s { c.lslot s with swapAt := some (if r.1 then (m / 16 + 1) * 16 else m) }) c
  else
    forL r.2 (fun s c => (c.setB (slotReg s 8) 30 false).slotCause s 0) (c.lpeStat 3)

/-- The first tick from `m` on in which a slot is due. -/
def Chip.nextDue (c : Chip) (s m : Nat) : Nat :=
  m + (c.slotPhase s + c.slotDiv s - m % c.slotDiv s) % c.slotDiv s

/-- Samples one switch request in tick `m` (R180). (Model: DEDUCED, log 41) -/
def Chip.sampleSwitch (c : Chip) (m : Nat) (v : W32) : Chip :=
  let n := fld v 6 0
  let a := fld v 9 8
  let f := c.msetFinal n a
  if !c.msetEn n || c.msetAct n == a || !c.msetValid n a || c.msetState n != 0 || !c.slotEn f then c.lpeIgn
  else
    let n1 := c.nextDue f m
    ((c.setF (msetReg n 6) 29 28 1).setF (msetReg n 6) 27 26 a).setModeRun n
      { out := c.msetAct n, n1 := n1, f := n1 + c.slotDiv f }

/-- The progress of a hand-over at the start of tick `m` (R180, R186). (Model: DEDUCED, log 42) -/
def Chip.modeTick (c : Chip) (m n : Nat) : Chip :=
  let st := c.msetState n
  if st = 0 then c
  else
    let r := c.modeRun n
    let xf := c.msetXf n
    if m < r.f then c
    else
      let c := c.setF (msetReg n 6) 31 30 (c.msetTo n)
      if m ≥ r.f + xf then
        ((c.setF (msetReg n 6) 29 26 0).setF (msetReg n 6) 7 0 0).slotCause (c.msetFinal n (c.msetTo n)) 3
      else (c.setF (msetReg n 6) 29 28 2).setF (msetReg n 6) 7 0 (r.f + xf - 1 - m)

/-- The value effective at tick `t` that drives a destination key: an enabled slot's or mode set's (R171). -/
def Chip.driven (c : Chip) (t key : Nat) : W32 :=
  match (c.slotKeys.filter c.slotEn).find? fun s => (destKey (c.reg (slotReg s 6))).contains key with
  | some s => c.effOut s t
  | none => match (c.msetKeys.filter c.msetEn).find? fun n => (destKey (c.reg (msetReg n 1))).contains key with
    | some n => c.msetOut n t
    | none => 0

/-- The command record of joint `j` at the end of the phase of tick `m` (R171, R172, R174). -/
def Chip.commandRecord (c : Chip) (m j : Nat) : Chip :=
  let xf := c.xfEn j
  let vd := if xf then c.driven (m + 1) (2048 + 4 * j) else 0
  let vq := if xf then c.driven (m + 1) (2048 + 4 * j + 1) else 0
  let v := if c.regB (xfReg j 0) 30 then (vd, vq) else c.rotated j vd vq
  let c := if xf then
      let i := c.measured j
      (((c.setReg (xfReg j 2) i.1).setReg (xfReg j 3) i.2).setReg (xfReg j 4) vd).setReg (xfReg j 5) vq
    else c
  let z := c.zeroTorque j
  let c0 := if xf then v.1 else c.driven (m + 1) (1024 + 4 * j)
  let c1 := if xf then v.2 else c.driven (m + 1) (1024 + 4 * j + 1)
  let c2 := c.driven (m + 1) (1024 + 4 * j + 2)
  (((c.setReg (cmdReg j 0) (if z then 0 else c0)).setReg (cmdReg j 1) (if z then 0 else c1)).setReg (cmdReg j 2)
    (if z then 0 else c2)).setReg (cmdReg j 3) (if z then 3 else 0)

/-- The duration of the phase: at most the bound of R162; the spec gives no exact value. (Model: DESIGN CHOICE, log 13) -/
def Chip.loopCycles (c : Chip) (load : Nat) : Chip :=
  let r := c.draw
  let n := r.1.toNat % (241 + (5 * load + 15) / 16)
  let c := r.2.setF 0x200000 31 16 n
  c.setF 0x200004 15 0 (max n (c.regF 0x200004 15 0))

/-- Fires the group sources whose enabled causes occurred in the phase, ascending (R186). -/
def Chip.slotGroupEvents (c : Chip) : Chip :=
  let now := c.lpe.now
  forL now (fun x c => if x.2 &&& c.regF (slotGrpReg x.1 0) 4 0 != 0 then c.fire (192 + x.1) else c)
    (c.modLpe fun l => { l with now := [] })

/-- The loop phase of a tick (R161). -/
def Chip.loopPhase (c : Chip) : Chip :=
  let m := c.tick
  let sw := c.lpe.swaps
  let ms := c.lpe.switches
  let c := c.modLpe fun l => { l with swaps := [], switches := [], now := [] }
  let c := forL sw (fun r c => c.sampleSwap m r) c
  let c := forL (c.msetKeys.filter c.msetEn) (fun n c => c.modeTick m n) c
  let c := forL ms (fun v c => c.sampleSwitch m v) c
  let c0 := c
  let due := c0.slotKeys.filter fun s => c0.slotDue s m
  let run := due.filter c0.slotRuns
  let c := forL due (fun s c => c.setB (slotReg s 8) 29 (c0.slotRuns s)) c
  let c := forL (run.flatMap c0.slotReads) (fun a c => c.engineMeets a 4) c
  let c := forL run (fun s c => c0.evalSlot c s m) c
  let c := forL (c.msetKeys.filter c.msetEn) (fun n c => c.setReg (msetReg n 7) (c.msetOut n (m + 1))) c
  let c := forN 128 (fun j c => c.commandRecord m j) c
  let load := run.foldl (fun a s => a + max 1 (c0.slotNsec s)) 0
  ((c.loopCycles load).fire 2).slotGroupEvents

end Sys2Proof.Machine
end

