-- ==== Sys2Proof/Machine/Planner.lean ====
section
/-!
DEFINITION. The arithmetic of motion plans (R193 to R197, R205, R207, R248): phase pieces, ramps, position and velocity
plans, the advance of a plan, and cubic segments. Every operator is one f32 operation with S set (R189).
-/
namespace Sys2Proof.Machine

/-- 2.0 and the other constants of the formulas. -/
def f32Two : W32 := 0x40000000#32
def f32Three : W32 := 0x40400000#32
def f32Four : W32 := 0x40800000#32
def f32Six : W32 := 0x40C00000#32
def f32Twelve : W32 := 0x41400000#32
/-- 1/6 truncated (R193). -/
def f32Sixth : W32 := 0x3E2AAAAA#32
def f32NegOne : W32 := 0xBF800000#32

def emin (a b : W32) : W32 := (fmin true a b).1
def emax (a b : W32) : W32 := (fmax true a b).1
def esqrt (a : W32) : W32 := (fsqrt true a).1
/-- A finite and positive value. -/
def positive32 (w : W32) : Bool := f32Exp w != 255 && f32Lt 0 w
/-- A finite value that is zero or positive. -/
def nonneg32 (w : W32) : Bool := f32Exp w != 255 && f32Le 0 w
/-- f_floor (R173). (Model: DEDUCED, log 93) -/
def floor32 (a : W32) : W32 := intToF32 (f32Fix 0 a)

/-- The f32 distance of one piece of length `t` (R193). -/
def segDist (v a jk t : W32) : W32 := em t (ea v (em t (ea (em a f32Half) (em (em jk t) f32Sixth))))
/-- The velocity and acceleration after one piece. -/
def segVel (v a jk t : W32) : W32 := ea v (em t (ea a (em (em jk t) f32Half)))
def segAcc (a jk t : W32) : W32 := ea a (em jk t)

/-- The three phases of a ramp: durations, first jerk, sign and peak (R193). -/
structure Ramp where
  t1 : W32
  j1 : W32
  t2 : W32
  t3 : W32
  sg : W32
  j  : W32
  deriving DecidableEq, Repr

/-- The jerk of the third phase. -/
def Ramp.j3 (r : Ramp) : W32 := fneg (em r.sg r.j)

/-- ramp of R193. -/
def ramp (v a0 vb lim j : W32) : Ramp :=
  let dv := es vb v
  let sg := if f32Le 0 (es dv (ed (em a0 (fabs a0)) (em f32Two j))) then f32One else f32NegOne
  let u := em sg dv
  let b := em sg a0
  let l2 := em lim lim
  let t2 := ed (es u (ed (ea (fabs (es l2 (em b b))) l2) (em f32Two j))) lim
  let short := f32Lt t2 0
  let pk := if short && f32Le b lim then esqrt (em (ea (em (em f32Two j) u) (em b b)) f32Half) else lim
  { t1 := ed (fabs (es pk b)) j, j1 := if f32Le b pk then em sg j else fneg (em sg j)
    t2 := if short then 0 else t2, t3 := ed pk j, sg := sg, j := j }

/-- rdist: the distance of a ramp as an f32 (R193). -/
def rdist (v a vb lim j : W32) : W32 :=
  let r := ramp v a vb lim j
  let v1 := segVel v a r.j1 r.t1
  let a1 := segAcc a r.j1 r.t1
  let v2 := segVel v1 a1 0 r.t2
  let a2 := segAcc a1 0 r.t2
  ea (ea (ea 0 (segDist v a r.j1 r.t1)) (segDist v1 a1 0 r.t2)) (segDist v2 a2 r.j3 r.t3)

/-- The pieces of a ramp, numbered from `n` (R195). -/
def Ramp.pieces (r : Ramp) (n : Nat) : List Piece :=
  [{ num := n, jerk := r.j1, left := some (toQ r.t1) }, { num := n + 1, jerk := 0, left := some (toQ r.t2) },
   { num := n + 2, jerk := r.j3, left := some (toQ r.t3) }]

/-- The limits a plan uses. -/
structure Limits where
  vmax : W32
  amax : W32
  dmax : W32
  jmax : W32
  deriving DecidableEq, Repr

/-- The acceleration limit of a ramp from v to vb (R194). -/
def Limits.forRamp (l : Limits) (v vb : W32) : W32 :=
  if f32Lt (em v vb) 0 then emin l.amax l.dmax
  else if f32Lt (fabs v) (fabs vb) then l.amax else l.dmax

/-- d_of of R194. -/
def dOf (l : Limits) (v0 a0 vp : W32) : W32 :=
  ea (rdist v0 a0 vp (l.forRamp v0 vp) l.jmax) (rdist vp 0 0 l.dmax l.jmax)

/-- The bisection of R194: `n` halvings of [lo, hi], answering lo. -/
def bisectPeak (l : Limits) (v0 a0 d : W32) : (n : Nat) → (lo hi : W32) → W32
  | 0, lo, _ => lo
  | n + 1, lo, hi =>
    let mid := em (ea lo hi) f32Half
    if f32Le (dOf l v0 a0 mid) d then bisectPeak l v0 a0 d n mid hi else bisectPeak l v0 a0 d n lo mid

/-- The plan of a position move (R194). -/
def planPos (l : Limits) (p0 : Int) (v0 a0 : W32) (target : Int) : ProfPlan :=
  let d := toF (wrapQ (target - p0))
  let neg := fneg l.vmax
  let vp := if f32Le (dOf l v0 a0 l.vmax) d then l.vmax
    else if f32Le d (dOf l v0 a0 neg) then neg
    else bisectPeak l v0 a0 d 24 neg l.vmax
  let t4 := if isZero32 vp then 0 else emax (ed (es d (dOf l v0 a0 vp)) vp) 0
  { pieces := (ramp v0 a0 vp (l.forRamp v0 vp) l.jmax).pieces 1 ++
      [{ num := 4, jerk := 0, left := some (toQ t4) }] ++ (ramp vp 0 0 l.dmax l.jmax).pieces 5
    vEnd := vp, target := some target }

/-- The plan of a velocity move: phases 1 to 3 and an unbounded phase 4 (R194). -/
def planVel (l : Limits) (v0 a0 vt : W32) : ProfPlan :=
  { pieces := (ramp v0 a0 vt (l.forRamp v0 vt) l.jmax).pieces 1 ++ [{ num := 4, jerk := 0, left := none }]
    vEnd := vt, target := none }

/-- A class A stop (R201): the phases of a ramp to rest. -/
def planStop (v a dstop jstop : W32) : ProfPlan :=
  { pieces := (ramp v a 0 dstop jstop).pieces 5, vEnd := 0, target := none }

/-- The ramp of κ to a goal (R197). -/
def planKappa (k kd goal ka kj : W32) : ProfPlan :=
  { pieces := (ramp k kd goal ka kj).pieces 1, vEnd := goal, target := none }

/-- A motion state. -/
structure Motion where
  p : Int
  v : W32
  a : W32
  deriving DecidableEq, Repr

/-- What a phase's end sets (R196): the peak velocity after phase 3, rest at the target after phase 7. -/
def ProfPlan.endPhase (pl : ProfPlan) (n : Nat) (s : Motion) : Motion :=
  if n = 3 then { s with v := pl.vEnd, a := 0 }
  else if n = 7 then { p := pl.target.getD s.p, v := 0, a := 0 }
  else s

/-- seg applied to a motion state for a piece of Q24.40 length. -/
def segMove (s : Motion) (jk : W32) (piece : Int) : Motion :=
  let t := toF piece
  { p := wrapQ (s.p + toQ (segDist s.v s.a jk t)), v := segVel s.v s.a jk t, a := segAcc s.a jk t }

/-- The clamp of κ to [0, 1], which sets κ̇ to +0 (R197). -/
def clampKappa (s : Motion) : Motion :=
  if f32Lt s.v 0 then { s with v := 0, a := 0 } else if f32Lt f32One s.v then { s with v := f32One, a := 0 } else s

/-- The advance of a plan by `dt` (R195); `after` acts on the state after each piece. -/
def advance (after : Motion → Motion) (pl : ProfPlan) : (fuel : Nat) → List Piece → Motion → (dt : Int) → List Piece × Motion
  | 0, ps, s, _ => (ps, s)
  | _ + 1, [], s, _ => ([], s)
  | n + 1, q :: ps, s, dt =>
    match q.left with
    | none => if dt ≤ 0 then (q :: ps, s) else (q :: ps, after (segMove s q.jerk dt))
    | some l =>
      if l ≤ 0 then advance after pl n ps (pl.endPhase q.num s) dt
      else if dt ≤ 0 then (q :: ps, s)
      else
        let x := min l dt
        advance after pl n ({ q with left := some (l - x) } :: ps) (after (segMove s q.jerk x)) (dt - x)

/-- A plan of at most seven phases advanced by `dt`. -/
def ProfPlan.advance (pl : ProfPlan) (after : Motion → Motion) (s : Motion) (dt : Int) : ProfPlan × Motion :=
  let r := Machine.advance after pl 16 pl.pieces s dt
  ({ pl with pieces := r.1 }, r.2)

/-- One tick of κ: its goal is set exactly at the end of the ramp (R197). -/
def kappaStep (pl : Option ProfPlan) (k kd ts : W32) : Option ProfPlan × W32 × W32 :=
  match pl with
  | none => (none, k, kd)
  | some p =>
    let r := p.advance clampKappa { p := 0, v := k, a := kd } (toQ ts)
    (if r.1.pieces.isEmpty then none else some r.1, r.2.v, r.2.a)

/-- reach(l) of R205. -/
def reachWith (v a d s dOld dNew jOld jNew l : W32) : Bool :=
  let dl := ea dNew (em l (es dOld dNew))
  let jl := ea jNew (em l (es jOld jNew))
  f32Le (em s (rdist v a 0 dl jl)) (em s d)

/-- The bisection of R205: `n` halvings, answering hi. -/
def bisectReach (reach : W32 → Bool) : (n : Nat) → (lo hi : W32) → W32
  | 0, _, hi => hi
  | n + 1, lo, hi =>
    let mid := em (ea lo hi) f32Half
    if reach mid then bisectReach reach n lo mid else bisectReach reach n mid hi

/-- l of R205: 0 when the new limits reach the target. -/
def deferL (v a d dOld dNew jOld jNew : W32) : W32 :=
  let s := if f32Le 0 d then f32One else f32NegOne
  let reach := reachWith v a d s dOld dNew jOld jNew
  if reach 0 then 0 else bisectReach reach 16 0 f32One

/-! ## Cubic segments (R207) -/

/-- Position, slope and second derivative on a segment from (p0, v0) to (p1, v1) of length `len`, at `sg`. -/
def hermite (p0 : Int) (v0 : W32) (p1 : Int) (v1 len sg : W32) : Int × W32 × W32 :=
  let dp := toF (wrapQ (p1 - p0))
  let u := ed sg len
  let u2 := em u u
  let u3 := em u2 u
  let h01 := es (em f32Three u2) (em f32Two u3)
  let h10 := ea (es u3 (em f32Two u2)) u
  let h11 := es u3 u2
  let pos := wrapQ (p0 + toQ (ea (em dp h01) (em len (ea (em v0 h10) (em v1 h11)))))
  let dpds := ea (ed (em dp (em f32Six (es u u2))) len)
    (ea (em v0 (ea (es (em f32Three u2) (em f32Four u)) f32One)) (em v1 (es (em f32Three u2) (em f32Two u))))
  let d2 := ed (ea (ed (em dp (es f32Six (em f32Twelve u))) len)
    (ea (em v0 (es (em f32Six u) f32Four)) (em v1 (es (em f32Six u) f32Two)))) len
  (pos, dpds, d2)

end Sys2Proof.Machine
end

