-- ==== Sys2Proof/Machine/Time.lean ====
section
/-!
DEFINITION. The time unit (R365 to R381): six bases, the servo, steps and slews, triggered outputs, compare requests,
captures and cross-timestamps.
-/
namespace Sys2Proof.Machine

/-! ## Registers -/

def tbReg (b w : Nat) : Nat := 0x800100 + 64 * b + 4 * w
def toReg (n w : Nat) : Nat := 0x801000 + 64 * n + 4 * w
def cpReg (n w : Nat) : Nat := 0x802000 + 32 * n + 4 * w

/-- TIM_STAT.CFG_IGN. -/
def Chip.timIgn (c : Chip) : Chip := c.setB 0x800000 1 true

/-- A ppm value in rate units of 2^-44 (R366). -/
def ppmRate (ppm : Nat) : Int := ((ppm * 2 ^ 44 / 1000000 : Nat) : Int)

/-- Base `b` raises causes: CAUSE bits and event 176 + b (R380). -/
def Chip.timeCause (c : Chip) (b k : Nat) : Chip := (c.setB (tbReg b 12) k true).fire (176 + b)

/-- Seconds and nanoseconds as 2^-16 ns. -/
def secNs (sec ns : Nat) : Nat := (sec * 1000000000 + ns) * 2 ^ 16

/-! ## Advance (R366, R367) -/

/-- Whether the module is a station of a ring; without one R_eff of TB0 is 0 (R366). -/
def Chip.ringOn (c : Chip) : Bool := c.regB 0x700004 31

/-- What a base adds in one CK_TIME cycle, in 2^-44 ns, and what is left of a slew of it. The slew moves the base in
the direction of `slewLeft`, and its last cycle uses exactly the remainder (R370). (Model: DEDUCED, log 34) -/
def Chip.baseStep (c : Chip) (b : Nat) : Int × Int :=
  let t := c.base b
  if b = 0 then (2 ^ 44 + (if c.ringOn then signed 32 (c.reg 0x700014).toNat * 2 ^ 12 else 0), 0)
  else if b = 3 then (2 ^ 44, 0)
  else
    let top := ppmRate (c.regF (tbReg b 3) 8 0)
    let s := clampI (-top) top t.slewLeft
    (2 ^ 44 + t.rate + s, t.slewLeft - s)

/-- One base advances by one cycle. -/
def Chip.advanceBase (c : Chip) (b : Nat) : Chip :=
  let x := c.baseStep b
  let t := c.base b
  c.setBase b { t with val := ((t.val : Int) + x.1).toNat, slewLeft := x.2 }

/-- What the ring's correction adds to TB0 in one cycle (R348, R366). -/
def Chip.ringTerm (c : Chip) : Int :=
  if !c.ringOn then 0
  else if c.tim.ringLeft < 0 then max c.tim.ringLeft (-c.tim.ringStep) else min c.tim.ringLeft c.tim.ringStep
/-- The ring's correction of TB0 for one cycle (R348). -/
def Chip.ringSlew (c : Chip) : Chip :=
  let s := c.ringTerm
  let t := c.base 0
  { c.setBase 0 { t with val := ((t.val : Int) + s).toNat } with
    tim := { (c.setBase 0 { t with val := ((t.val : Int) + s).toNat }).tim with ringLeft := c.tim.ringLeft - s } }

/-- Step 1 of a CK_TIME cycle: every base advances (R366, R367). -/
def Chip.advanceBases (c : Chip) : Chip := (forN 6 (fun b c => c.advanceBase b) c).ringSlew

/-! ## Triggers (R374 to R377) -/

def Trig.zero : Trig := { start := 0, period := 0, width := 0, count := 0, next := 0, done := 0, endAt := 0, reqs := [] }
def Chip.trig (c : Chip) (n : Nat) : Trig := tabGet (fun _ => Trig.zero) c.tim.trigs n
def Chip.setTrig (c : Chip) (n : Nat) (t : Trig) : Chip :=
  { c with tim := { c.tim with trigs := tabPut (fun _ => Trig.zero) c.tim.trigs n t } }

def Chip.toArmed (c : Chip) (n : Nat) : Bool := c.regB (toReg n 0) 31
def Chip.toMode (c : Chip) (n : Nat) : Nat := c.regF (toReg n 0) 30 29
def Chip.toBase (c : Chip) (n : Nat) : Nat := c.regF (toReg n 0) 26 24

/-- The time of the next instance, in 2^-16 ns. -/
def Trig.nextTime (t : Trig) : Nat := t.start + t.next * t.period

/-- Whether a base has reached a time in 2^-16 ns. -/
def Chip.reached (c : Chip) (b time : Nat) : Bool := decide (time * 2 ^ 28 ≤ (c.base b).val)

/-- The smallest k whose instance lies after the value `v` (2^-44 ns) of the base. (Model: DEDUCED, log 33) -/
def Trig.firstAfter (t : Trig) (v : Nat) : Nat :=
  if v < t.start * 2 ^ 28 then 0 else if t.period = 0 then t.next else (v / 2 ^ 28 - t.start) / t.period + 1

/-- A status bit of TO word 10 and its event. -/
def Chip.toFlag (c : Chip) (n k : Nat) : Chip := (c.setB (toReg n 10) k true).fire (128 + n)

/-- The output goes active for its width. -/
def Chip.pulseOn (c : Chip) (n width : Nat) : Chip :=
  let t := c.trig n
  let stop := c.tb3 + width
  let stop := if c.regB (toReg n 10) 0 then max t.endAt stop else stop
  (c.setTrig n { t with endAt := stop }).setB (toReg n 10) 0 true

/-- An instance fires when its base has reached it (R374). (Model: DEDUCED, log 33) -/
def Chip.triggerInstance (c : Chip) (n : Nat) : Chip :=
  let t := c.trig n
  let m := c.toMode n
  if c.toArmed n && (m == 1 || m == 2) && c.reached (c.toBase n) t.nextTime then
    let c := (c.pulseOn n t.width).addWrap (toReg n 8) 1
    let c := if c.regB (toReg n 0) 27 then c.fire (128 + n) else c
    let t2 := c.trig n
    let c := c.setTrig n { t2 with next := t.next + 1, done := t.done + 1 }
    if m = 1 || (t.count != 0 && decide (t.done + 1 ≥ t.count)) then c.setB (toReg n 0) 31 false else c
  else c

/-- The end of a pulse (R374). -/
def Chip.triggerPulseEnd (c : Chip) (n : Nat) : Chip :=
  if c.regB (toReg n 10) 0 && decide ((c.trig n).endAt ≤ c.tb3) then c.setB (toReg n 10) 0 false else c

/-- Re-evaluation of an armed trigger after a step of its base (R376). -/
def Chip.trigAfterStep (c : Chip) (n : Nat) : Chip :=
  let t := c.trig n
  let v := (c.base (c.toBase n)).val
  if c.toMode n = 1 then
    if c.reached (c.toBase n) t.nextTime then ((c.setB (toReg n 0) 31 false).addWrap (toReg n 9) 1).toFlag n 2 else c
  else if c.toMode n = 2 then
    let k := t.firstAfter v
    if k > t.next then
      let passed := if t.count = 0 then k - t.next else min (k - t.next) (t.count - t.done)
      let c := ((c.setTrig n { t with next := k, done := t.done + passed }).addWrap (toReg n 9) passed).toFlag n 2
      if t.count != 0 && decide (t.done + passed ≥ t.count) then c.setB (toReg n 0) 31 false else c
    else c
  else c

/-- A step of a base by `o` in 2^-44 ns (R370), with the causes and every armed trigger on the base re-evaluated.
(Model: DEDUCED, log 35) -/
def Chip.stepBase (c : Chip) (b : Nat) (o : Int) : Chip :=
  let t := c.base b
  let c := c.setBase b { t with val := ((t.val : Int) + o).toNat }
  let c := if o < 0 then c.timeCause b 1 else if o > 0 then c.timeCause b 0 else c
  if o > 0 then
    forN 32 (fun n c => if c.toArmed n && c.toBase n == b then c.trigAfterStep n else c) c
  else c

/-! ## The servo (R369 to R372) -/

/-- Whether a base is servoed: it takes offset samples and SET (R365). -/
def servoed (b : Nat) : Bool := b != 0 && b != 3

/-- An offset sample in 2^-16 ns (R369). (Model: DEDUCED, log 34) -/
def Chip.offsetSample (c : Chip) (b : Nat) (o : Int) : Chip :=
  let w0 := c.reg (tbReg b 0)
  let c := if c.regB (tbReg b 12) 31 then (c.setB (tbReg b 12) 31 false).timeCause b 3 else c
  let c := c.setB (tbReg b 12) 29 true
  let t := { c.base b with since := c.tb3 }
  let thr : Int := ((c.reg (tbReg b 4)).toNat * 2 ^ 16 : Nat)
  if o > thr || o < -thr then
    if bit w0 30 && (decide (o > 0) || !bit w0 31) then
      (c.setBase b { t with slewLeft := 0 }).stepBase b (o * 2 ^ 28)
    else (c.setBase b { t with slewLeft := o * 2 ^ 28 }).setB (tbReg b 12) 30 true
  else
    let k := fld w0 21 16
    let top := ppmRate (fld w0 9 0)
    let integ := clampI (-top) top (t.integ + shrI (o * (c.reg (tbReg b 2)).toNat) k)
    let rate := clampI (-top) top (integ + shrI (o * (c.reg (tbReg b 1)).toNat) k)
    c.setBase b { t with slewLeft := 0, integ := integ, rate := rate }

/-- A write of OFS word 6 by any master (R368, R369). -/
def Chip.ofsWrite (c : Chip) (b : Nat) (v : W32) : Chip :=
  if !servoed b then c.timIgn
  else
    let o := signed 64 ((c.reg (tbReg b 5)).toNat + v.toNat * 2 ^ 32)
    if c.regB (tbReg b 0) 29 then c else c.offsetSample b o

/-- A write of SET word 9 (R368, R372). (Model: DEDUCED, log 35) -/
def Chip.timeSet (c : Chip) (b : Nat) (v : W32) : Chip :=
  let sec := (c.reg (tbReg b 7)).toNat + c.regF (tbReg b 8) 15 0 * 2 ^ 32
  let new := secNs sec v.toNat * 2 ^ 28
  if b = 0 then (if c.ticked then c.timIgn else c.setBase 0 { c.base 0 with val := new })
  else if b = 3 then c.timIgn
  else
    let o : Int := (new : Int) - (c.base b).val
    if c.regB (tbReg b 0) 31 && decide (o < 0) then c.timIgn else c.stepBase b o

/-- The end of a slew (R370). -/
def Chip.slewComplete (c : Chip) (b : Nat) : Chip :=
  if c.regB (tbReg b 12) 30 && (c.base b).slewLeft == 0 then (c.setB (tbReg b 12) 30 false).timeCause b 4 else c

/-- Entry to holdover (R371). (Model: DEDUCED, log 35) -/
def Chip.holdoverEntry (c : Chip) (b : Nat) : Chip :=
  if servoed b && !c.regB (tbReg b 12) 31
      && decide ((c.base b).since + c.regF (tbReg b 3) 31 16 * 1000000 ≤ c.tb3) then
    (c.setB (tbReg b 12) 31 true).timeCause b 2
  else c

/-- The fields of a base's value: seconds, nanoseconds, fraction (R365). -/
def Chip.tbSec (c : Chip) (b : Nat) : Nat := (c.base b).val / 2 ^ 44 / 1000000000
def Chip.tbNs (c : Chip) (b : Nat) : Nat := (c.base b).val / 2 ^ 44 % 1000000000
def Chip.tbFrac (c : Chip) (b : Nat) : Nat := (c.base b).val / 2 ^ 28 % 2 ^ 16

/-- A cross-timestamp: all six bases latch in one cycle (R373). -/
def Chip.xtsGo (c : Chip) (v : W32) : Chip :=
  if !bit v 0 then c
  else
    let c := forN 6 (fun b c =>
      ((c.setReg (tbReg b 13) (BitVec.ofNat 32 (c.tbNs b))).setReg (tbReg b 14) (BitVec.ofNat 32 (c.tbSec b))).setReg
        (tbReg b 15) (BitVec.ofNat 32 (c.tbFrac b * 2 ^ 16 + c.tbSec b / 2 ^ 32 % 2 ^ 16))) c
    (c.setB 0x800004 31 true).fire 182

/-! ## Trigger registers (R375, R377) -/

/-- Arming (R375): the captured settings, the first instance, or MISS. -/
def Chip.trigArm (c : Chip) (n : Nat) : Chip :=
  let start := secNs ((c.reg (toReg n 1)).toNat + c.regF (toReg n 2) 15 0 * 2 ^ 32) (c.reg (toReg n 3)).toNat
  let period := (c.reg (toReg n 4)).toNat * 2 ^ 16 + c.regF (toReg n 5) 15 0
  let t : Trig :=
    { c.trig n with
      start := start, period := period, width := (c.reg (toReg n 6)).toNat, count := (c.reg (toReg n 7)).toNat
      next := 0, done := 0, reqs := [] }
  let c := c.setB (toReg n 0) 31 true
  if c.toMode n = 1 then
    if c.reached (c.toBase n) start then (c.setB (toReg n 0) 31 false).toFlag n 1 else c.setTrig n { t with period := 0 }
  else if c.toMode n = 2 then c.setTrig n { t with next := t.firstAfter (c.base (c.toBase n)).val }
  else c.setTrig n t

/-- ARM 0 drops all pending requests: DROP reads 1 in both places where one was pending (R377, R381). -/
def Chip.dropReqs (c : Chip) (n : Nat) : Chip :=
  if (c.trig n).reqs.isEmpty then c
  else ((c.setTrig n { c.trig n with reqs := [] }).setB 0x800000 2 true).toFlag n 3

/-- A write of word 0 of a triggered output (R374, R375, R381): a BASE of 6 or 7 is ignored, and MODE 0 takes the pin to its idle
level. (Model: DEDUCED, log 15) -/
def Chip.toCtrlWrite (c : Chip) (n : Nat) (v0 : W32) : Chip :=
  let old := c.reg (toReg n 0)
  let bad := decide (fld v0 26 24 > 5)
  let c := if bad then c.timIgn else c
  let v := if bad then setFld v0 26 24 (fld old 26 24) else v0
  if bit old 31 then
    let moved := fld old 30 29 != fld v 30 29 || fld old 26 24 != fld v 26 24
    let c := if moved then c.timIgn else c
    let c := (c.setB (toReg n 0) 28 (bit v 28)).setB (toReg n 0) 27 (bit v 27)
    if bit v 31 then c
    else (c.setB (toReg n 0) 31 false).dropReqs n
  else
    let c := c.setReg (toReg n 0) (setBit (v &&& 0xFF000000#32) 31 false)
    let c := if fld v 30 29 = 0 then c.setB (toReg n 10) 0 false else c
    if !bit v 31 then c
    else if fld v 30 29 = 2
        && decide ((c.reg (toReg n 6)).toNat * 2 ^ 16 ≥ (c.reg (toReg n 4)).toNat * 2 ^ 16 + c.regF (toReg n 5) 15 0) then
      c.timIgn
    else c.trigArm n

/-- A write of another word of a triggered output: START to COUNT stand while it is armed, PERIOD is at least 2 and WIDTH at least
1. (Model: DEDUCED, log 15) -/
def Chip.toWrite (c : Chip) (n w : Nat) (v : W32) : Chip :=
  if w = 0 then c.toCtrlWrite n v
  else if 1 ≤ w ∧ w ≤ 7 ∧ c.toArmed n = true then c.timIgn
  else if (w = 4 ∧ v.toNat < 2) ∨ (w = 6 ∧ v = 0) then c.timIgn
  else c.mapWrite (toReg n w) v

/-- A compare unit's request: TB0 time in 2^-16 ns and width (R217, R377). The Bool says it was held; TIM_STAT shows every drop, the
output's own DROP the fifth request of R377. (Model: DEDUCED, log 33) -/
def Chip.pulseRequest (c : Chip) (n tc width : Nat) : Chip × Bool :=
  let t := c.trig n
  let ready := c.toMode n = 3 && c.toArmed n
  if ready && decide (t.reqs.length < 4) then
    (c.setTrig n { t with reqs := t.reqs ++ [{ tc := tc, width := width }] }, true)
  else
    let c := c.setB 0x800000 2 true
    (if ready then c.toFlag n 3 else c, false)

/-- A compare request goes active when TB0 reaches its time (R377). (Model: DEDUCED, log 33) -/
def Chip.comparePulse (c : Chip) (n : Nat) : Chip :=
  let t := c.trig n
  match t.reqs.find? fun r => c.reached 0 r.tc with
  | some r =>
    if c.toMode n = 3 && c.toArmed n then
      (c.setTrig n { t with reqs := t.reqs.erase r }).pulseOn n r.width
    else c
  | none => c

/-- What is left of step 3 of the cycle of one output: a pulse that ends, an instance that its base has reached, the compare requests
that TB0 has reached (R367). -/
def Chip.compareOut (c : Chip) (n : Nat) : Chip :=
  forN 4 (fun _ c => c.comparePulse n) ((c.triggerPulseEnd n).triggerInstance n)

/-- A CK_TIME cycle (R367): the cycle that ends first compares the outputs that no command has served since its step 2, on the values that
its steps and writes left; then every base advances, which is step 1 of the next cycle. (Model: DESIGN CHOICE, log 109) -/
def Chip.timeCycle (c : Chip) : Chip := (forN 32 (fun n c => c.compareOut n) c).advanceBases

/-- The level of pin TOn (R374, R492). -/
def Chip.toPin (c : Chip) (n : Nat) : Bool := !c.pinsLow && (c.regB (toReg n 10) 0 != c.regB (toReg n 0) 28)

/-! ## Captures (R378, R379) -/

def Chip.capFifo (c : Chip) (n : Nat) : List CapEntry := tabGet (fun _ => []) c.tim.caps n
def Chip.setCapFifo (c : Chip) (n : Nat) (l : List CapEntry) : Chip :=
  { c with tim := { c.tim with caps := tabPut (fun _ => []) c.tim.caps n l } }

/-- The pulse-per-second offset of a stamp, in 2^-16 ns: the nearest whole second less the stamp (R379). -/
def ppsOffset (stamp : Nat) : Int :=
  let s := 1000000000 * 2 ^ 16
  ((((stamp + s / 2) / s * s : Nat)) : Int) - stamp

/-- A filtered edge on a capture input (R378): its stamp enters the FIFO, or is dropped where that is full. It gives the bases that
name the input their offset either way (R379). -/
def Chip.captureEdge (c : Chip) (n : Nat) (level : Bool) : Chip :=
  let w := c.reg (cpReg n 0)
  let kind := fld w 30 29
  let sel := if level then kind % 2 == 1 else decide (kind ≥ 2)
  if !bit w 31 || !sel then c
  else
    let raw := (c.base (fld w 26 24)).val / 2 ^ 28
    let stamp := (raw - fld w 7 0 * 409600) / 2 ^ 16 * 2 ^ 16
    let c := if (c.capFifo n).length ≥ 8 then c.setB (cpReg n 1) 8 true
      else (c.setCapFifo n (c.capFifo n ++ [{ stamp := stamp, level := level }])).fire (160 + n)
    forN 6 (fun b c =>
      if servoed b && c.regB (tbReg b 0) 29 && c.regF (tbReg b 0) 27 24 == n then c.offsetSample b (ppsOffset stamp)
      else c) c

/-- A write of word 0 of a capture input: an EDGE of 0b00 and a BASE that does not exist are ignored (R378, R381).
(Model: DEDUCED, log 15) -/
def Chip.cpWrite (c : Chip) (n : Nat) (v : W32) : Chip :=
  let old := c.reg (cpReg n 0)
  let badE := fld v 30 29 == 0
  let badB := decide (fld v 26 24 > 5)
  let u := if badE then setFld v 30 29 (fld old 30 29) else v
  let u := if badB then setFld u 26 24 (fld old 26 24) else u
  let c := (if badE || badB then c.timIgn else c).mapWrite (cpReg n 0) u
  if bit v 31 then c else c.setCapFifo n []

/-- A read of NS: the oldest entry is returned and removed, its seconds and edge latched (R378). -/
def Chip.cpNsRead (c : Chip) (n : Nat) : Chip × W32 := match c.capFifo n with
  | [] => (c.setB (cpReg n 4) 31 false, 0)
  | e :: rest =>
    let ns := e.stamp / 2 ^ 16
    let sec := ns / 1000000000
    let info := 2 ^ 31 + e.level.toNat * 2 ^ 30 + sec / 2 ^ 32 % 2 ^ 16
    (((c.setCapFifo n rest).setReg (cpReg n 3) (BitVec.ofNat 32 sec)).setReg (cpReg n 4) (BitVec.ofNat 32 info),
      BitVec.ofNat 32 (ns % 1000000000))

/-! ## The block -/

/-- A write to a time base's word (R368, R381). (Model: DEDUCED, log 15) -/
def Chip.tbWrite (c : Chip) (b w : Nat) (v : W32) : Chip :=
  if w = 9 then c.timeSet b v
  else if b = 3 || (b = 0 && (c.ticked || (w != 7 && w != 8))) then (if w ≤ 9 then c.timIgn else c)
  else if w = 6 then c.ofsWrite b v
  else if w = 0 then
    let r := fld v 9 0
    if 1 ≤ r ∧ r ≤ 1000 then c.mapWrite (tbReg b 0) v
    else (c.mapWrite (tbReg b 0) (setFld v 9 0 (c.regF (tbReg b 0) 9 0))).timIgn
  else if w = 3 then
    let badS := fld v 8 0 == 0 || decide (fld v 8 0 > 500)
    let badH := fld v 31 16 == 0
    let u := if badS then setFld v 8 0 (c.regF (tbReg b 3) 8 0) else v
    let c := if badS || badH then c.timIgn else c
    c.mapWrite (tbReg b 3) (if badH then setFld u 31 16 (c.regF (tbReg b 3) 31 16) else u)
  else c.mapWrite (tbReg b w) v

/-- A write to a word of the TIM block. -/
def Chip.timWrite (c : Chip) (x : Nat) (v : W32) : Chip :=
  if x = 4 then c.xtsGo v
  else if 0x100 ≤ x ∧ x < 0x280 then c.tbWrite ((x - 0x100) / 64) ((x - 0x100) % 64 / 4) v
  else if 0x1000 ≤ x ∧ x < 0x1800 then c.toWrite ((x - 0x1000) / 64) ((x - 0x1000) % 64 / 4) v
  else if 0x2000 ≤ x ∧ x % 32 = 0 then c.cpWrite ((x - 0x2000) / 32) v
  else c.mapWrite (0x800000 + x) v

/-- The words of the TIM block that show the unit's state. -/
def Chip.timView (c : Chip) (x : Nat) (w : W32) : W32 :=
  if 0x100 ≤ x ∧ x < 0x280 then
    let b := (x - 0x100) / 64
    let r := wrapN 40 ((c.baseStep b).1 - 2 ^ 44 + (if b = 0 then c.ringTerm else 0))
    match (x - 0x100) % 64 / 4 with
    | 10 => BitVec.ofNat 32 r
    | 11 => BitVec.ofNat 32 (r / 2 ^ 32)
    | _ => w
  else if 0x1000 ≤ x ∧ x < 0x1800 ∧ x % 64 = 40 then
    let n := (x - 0x1000) / 64
    setBit w 0 (c.toPin n != c.regB (toReg n 0) 28)
  else if 0x2000 ≤ x ∧ x % 32 = 4 then setFld w 3 0 (c.capFifo ((x - 0x2000) / 32)).length
  else w

end Sys2Proof.Machine
end

