-- ==== Sys2Proof/Machine/Profile.lean ====
section
/-!
DEFINITION. The profile channels (R188 to R213): registers, the time scale, class A moves and stops, class B tables,
commands, limits and fault actions. One definition for each thing a channel can do in a profile phase.
-/
namespace Sys2Proof.Machine

/-! ## Registers -/

def prfCh (k w : Nat) : Nat := 0x310000 + 64 * k + 4 * w
def chst (k w : Nat) : Nat := 0x320000 + 32 * k + 4 * w
def tblReg (t w : Nat) : Nat := 0x331000 + 32 * t + 4 * w
def prfGrp (g w : Nat) : Nat := 0x331800 + 32 * g + 4 * w
def cmpReg (u w : Nat) : Nat := 0x332000 + 64 * u + 4 * w
def homeReg (k w : Nat) : Nat := 0x334000 + 128 * k + 4 * w
def stpReg (s w : Nat) : Nat := 0x33C000 + 64 * s + 4 * w
def strefReg (s w : Nat) : Nat := 0x33C800 + 16 * s + 4 * w

def Chip.prfStat (c : Chip) (b : Nat) : Chip := c.setB 0x300000 b true
/-- PRF_STAT.CFG_IGN. -/
def Chip.prfIgn (c : Chip) : Chip := c.prfStat 0
def Chip.modPrf (c : Chip) (f : Prf → Prf) : Chip := { c with prf := f c.prf }

def HomeRun.zero : HomeRun := { elapsed := 0, window := none, changes := 0, stall := 0, zRaw := none, delta := none }
def Chan.zero : Chan :=
  { p := 0, v := 0, a := 0, hold := 0, plan := none, move := none, armed := none, tab := none, kplan := none
    fact := false, limW := false, kapW := false, out := none, adv := 0, home := HomeRun.zero, sw := [] }
def Chip.chan (c : Chip) (k : Nat) : Chan := tabGet (fun _ => Chan.zero) c.prf.chans k
def Chip.setChan (c : Chip) (k : Nat) (x : Chan) : Chip :=
  c.modPrf fun p => { p with chans := tabPut (fun _ => Chan.zero) p.chans k x }
def Chip.modChan (c : Chip) (k : Nat) (f : Chan → Chan) : Chip := c.setChan k (f (c.chan k))
def Chip.tabCommit (c : Chip) (t : Nat) : Option TabCommit := tabGet (fun _ => none) c.prf.tabs t
def Chip.setTabCommit (c : Chip) (t : Nat) (x : Option TabCommit) : Chip :=
  c.modPrf fun p => { p with tabs := tabPut (fun _ => none) p.tabs t x }

/-- The states of R191. -/
def stOff : Nat := 0
def stIdle : Nat := 1
def stArmed : Nat := 2
def stRunA : Nat := 3
def stRunB : Nat := 4
def stPausing : Nat := 5
def stPaused : Nat := 6
def stStopping : Nat := 7
def stFault : Nat := 8
def stHoming : Nat := 9

def Chip.chState (c : Chip) (k : Nat) : Nat := c.regF (chst k 0) 31 28
def Chip.setChState (c : Chip) (k n : Nat) : Chip := c.setF (chst k 0) 31 28 n
def Chip.chEn (c : Chip) (k : Nat) : Bool := c.regB (prfCh k 0) 31
def Chip.chGrp (c : Chip) (k : Nat) : Nat := c.regF (prfCh k 0) 28 24
/-- The set-point record. -/
def Chip.spPos (c : Chip) (k : Nat) : Int := c.pairI (spReg k 0)
def Chip.spVel (c : Chip) (k : Nat) : W32 := c.reg (spReg k 2)
def Chip.spAcc (c : Chip) (k : Nat) : W32 := c.reg (spReg k 3)
/-- The set-point a phase computes; it is published at the end of the phase (R188, R190). -/
def Chip.setSp (c : Chip) (k : Nat) (p : Int) (v a : W32) : Chip := c.modChan k fun x => { x with out := some (p, v, a) }
def Chip.publishSp (c : Chip) (k : Nat) : Chip := match (c.chan k).out with
  | some (p, v, a) =>
    (((c.setPairI (spReg k 0) p).setReg (spReg k 2) v).setReg (spReg k 3) a).modChan k fun x => { x with out := none }
  | none => c
/-- κ and κ̇. -/
def Chip.kappa (c : Chip) (k : Nat) : W32 := c.reg (chst k 3)
def Chip.kdot (c : Chip) (k : Nat) : W32 := c.reg (chst k 4)
def Chip.setKappa (c : Chip) (k : Nat) (v d : W32) : Chip := (c.setReg (chst k 3) v).setReg (chst k 4) d
def Chip.kappaTgt (c : Chip) (k : Nat) : W32 := c.reg (prfCh k 9)

/-- Channels with any stored word of their descriptor, status or set-point, or a mapped observer. -/
def Chip.chanKeys (c : Chip) : List Nat :=
  sortBy id ((c.unitsIn 0x310000 0x314000 64 ++ c.unitsIn 0x320000 0x322000 32 ++ c.unitsIn 0x330000 0x331000 16 ++
    c.unitsIn 0x334000 0x33C000 128 ++ c.obsKeys).eraseDups)

/-- Raises a cause of group `g` (R219). -/
def Chip.grpCause (c : Chip) (g b : Nat) : Chip :=
  (c.setB (prfGrp g 1) b true).modPrf fun p =>
    { p with now := tabPut (fun _ => 0) p.now g (tabGet (fun _ => 0) p.now g ||| 2 ^ b) }
/-- Raises a cause of a channel's group. -/
def Chip.chCause (c : Chip) (k b : Nat) : Chip := c.grpCause (c.chGrp k) b
/-- A command is ignored (R199). -/
def Chip.cmdIgn (c : Chip) (k : Nat) : Chip := (c.setB (chst k 0) 1 true).prfStat 1
/-- A command is refused (R199). -/
def Chip.planErr (c : Chip) (k : Nat) : Chip := ((c.setB (chst k 0) 2 true).prfStat 2).chCause k 7

/-- Whether an arm with EN 1 of the shared workspace holds a channel (R244, R262). -/
def Chip.sepHolds (c : Chip) (k : Nat) : Bool := match c.jointArm k with
  | some (a, _) => c.regB (0x501000 + 64 * a) 31
  | none => false

/-! ## Segment tables (R206, R210) -/

def Chip.tabActive (c : Chip) (t : Nat) : Nat := c.regF (tblReg t 6) 30 30
def Chip.tabBound (c : Chip) (t : Nat) : Bool := c.regB (tblReg t 6) 31
def Chip.tabReady (c : Chip) (t : Nat) : Bool := c.regB (tblReg t 6) 28
def Chip.tabIndep (c : Chip) (t : Nat) : Bool := c.regB (tblReg t 0) 30
/-- Address of a bank, as its COMMIT took it (R473). -/
def Chip.bankAddr (c : Chip) (t b : Nat) : Nat := tabGet (fun _ => 0) c.prf.banks (2 * t + b)
/-- A COMMIT takes the address that stands in the words of its bank (R473). (Model: DESIGN CHOICE, log 110) -/
def Chip.takeBank (c : Chip) (t b : Nat) : Chip :=
  c.modPrf fun p => { p with banks := tabPut (fun _ => 0) p.banks (2 * t + b) (c.pair (tblReg t (1 + 2 * b)) % 2 ^ 40) }
def Chip.bankSegs (c : Chip) (t b : Nat) : Nat := c.engineNum (c.bankAddr t b + 4) 4
def Chip.bankFinal (c : Chip) (t b : Nat) : Bool := (c.engineNum (c.bankAddr t b + 12) 4).testBit 0
/-- LEN, END_VEL and END_POS of a segment of the active bank of a run. -/
def Chip.segLen (c : Chip) (r : TabRun) (i : Nat) : W32 :=
  BitVec.ofNat 32 (c.engineNum (c.bankAddr r.table (c.tabActive r.table) + 32 + 16 * i) 4)
def Chip.segEndVel (c : Chip) (r : TabRun) (i : Nat) : W32 :=
  BitVec.ofNat 32 (c.engineNum (c.bankAddr r.table (c.tabActive r.table) + 36 + 16 * i) 4)
def Chip.segEndPos (c : Chip) (r : TabRun) (i : Nat) : Int :=
  let p := signed 64 (c.engineNum (c.bankAddr r.table (c.tabActive r.table) + 40 + 16 * i) 8)
  if c.regB (tblReg r.table 0) 29 then wrapQ (r.entryP + p) else p
def Chip.segLenQ (c : Chip) (r : TabRun) (i : Nat) : Int := toQ (c.segLen r i)

/-- The background verification of a bank (R206, R210): it lies in memory, and MAGIC, N_SEG and CRC hold. -/
def Chip.bankGood (c : Chip) (t b : Nat) : Bool :=
  let a := c.bankAddr t b
  let n := c.bankSegs t b
  let fits := inCell a (32 + 16 * n) || inUsableDram a (32 + 16 * n)
  (inCell a 32 || inUsableDram a 32) && c.engineNum a 4 == 0x4B4E4142 && decide (1 ≤ n) && decide (n ≤ 65536) && fits
    && c.linesGood a (32 + 16 * n) && crc32c (c.engineBytes (a + 32) (16 * n)) == c.engineNum (a + 8) 4

/-- The verification meets the poisoned lines of a bank. -/
def Chip.bankMeets (c : Chip) (t b : Nat) : Chip :=
  let a := c.bankAddr t b
  let n := c.bankSegs t b
  c.engineMeets a (if n ≤ 65536 then 32 + 16 * n else 32)

/-- A bank is released (R210): its REL bit and the cause BANK of the bound channel's group. -/
def Chip.releaseBank (c : Chip) (k t b : Nat) : Chip := (c.setB (tblReg t 6) (26 + b) true).chCause k 5

/-- A table is unbound and its active bank released (R210). -/
def Chip.unbind (c : Chip) (k : Nat) : Chip := match (c.chan k).tab with
  | some r =>
    let b := c.tabActive r.table
    ((((c.setB (tblReg r.table 6) 31 false).setF (tblReg r.table 6) 7 0 0).releaseBank k r.table b).modChan k fun x => { x with tab := none }).setF
      (chst k 0) 9 8 0
  | none => c

/-- Verification of a pending commit ends (R210). (Model: DEDUCED, log 48) -/
def Chip.verifyDone (c : Chip) (t : Nat) : Chip := match c.tabCommit t with
  | some m =>
    if !c.regB (tblReg t 6) 29 then c
    else if c.bankGood t m.bank then (c.setB (tblReg t 6) 29 false).setB (tblReg t 6) 28 true
    else
      let c := c.bankMeets t m.bank
      let c := ((c.setB (tblReg t 6) 29 false).setTabCommit t none).prfStat 3
      if c.tabBound t then c.chCause (c.regF (tblReg t 6) 7 0) 6 else c
  | none => c

/-- A write to COMMIT (R210). -/
def Chip.tabCommitWrite (c : Chip) (t : Nat) (v : W32) : Chip :=
  let b := fld v 0 0
  if !bit v 31 then
    ((c.setB (tblReg t 6) 29 false).setB (tblReg t 6) 28 false).setTabCommit t none
  else if (c.tabCommit t).isSome || (c.tabBound t && b == c.tabActive t) then c.prfIgn
  else ((c.takeBank t b).setB (tblReg t 6) 29 true).setTabCommit t (some { bank := b, at1 := bit v 30 })

/-- The READY bank becomes active at a point with position `p` and slope `v`. -/
def Chip.enterBank (c : Chip) (k : Nat) (r : TabRun) (p : Int) (v : W32) (sigma : Int) : Chip :=
  let b := match c.tabCommit r.table with | some m => m.bank | none => c.tabActive r.table
  let c := ((c.setF (tblReg r.table 6) 30 30 b).setB (tblReg r.table 6) 28 false).setTabCommit r.table none
  (c.modChan k fun x => { x with tab := some { r with seg := 0, sigma := sigma, entryP := p, entryV := v, past := none } }).setB
    (chst k 0) 8 false

/-- The take-over by a READY bank: the previous active bank is released (R210 item 3). -/
def Chip.takeOver (c : Chip) (k : Nat) (r : TabRun) (p : Int) (v : W32) (sigma : Int) : Chip :=
  let b := c.tabActive r.table
  (c.enterBank k r p v sigma).releaseBank k r.table b

/-! ## Class A (R194 to R205) -/

/-- The written limits, and the limits in force: DMAX and JMAX as EFF_DMAX and EFF_JMAX hold them. -/
def Chip.limits (c : Chip) (k : Nat) : Limits :=
  { vmax := c.reg (prfCh k 1), amax := c.reg (prfCh k 2), dmax := c.reg (prfCh k 3), jmax := c.reg (prfCh k 4) }
/-- The limits in force of a channel. (Model: DEDUCED, log 48) -/
def Chip.effLimits (c : Chip) (k : Nat) : Limits :=
  { c.limits k with dmax := c.reg (chst k 1), jmax := c.reg (chst k 2) }
def Chip.setEff (c : Chip) (k : Nat) (d j : W32) : Chip := (c.setReg (chst k 1) d).setReg (chst k 2) j
/-- The written limits are in force: no deferral. -/
def Chip.effWritten (c : Chip) (k : Nat) : Chip :=
  (c.setEff k (c.reg (prfCh k 3)) (c.reg (prfCh k 4))).setB (chst k 0) 7 false

/-- The values published in tick m − 1, the set-point state for t₀, become the state that plans start from (R194). -/
def Chip.takePublished (c : Chip) (k : Nat) : Chip :=
  c.modChan k fun x => { x with p := c.spPos k, v := c.spVel k, a := c.spAcc k }

/-- Plans the channel's move from its state with the limits in force. (Model: DEDUCED, log 44) -/
def Chip.replan (c : Chip) (k : Nat) : Chip :=
  let x := c.chan k
  match x.move with
  | some (.pos t) => c.setChan k { x with plan := some (planPos (c.effLimits k) x.p x.v x.a t) }
  | some (.vel v) => c.setChan k { x with plan := some (planVel (c.effLimits k) x.v x.a v) }
  | _ => c

/-- The published state is folded: κ becomes 1 (R198). -/
def Chip.fold (c : Chip) (k : Nat) : Chip :=
  ((c.takePublished k).modChan k fun x => { x with kplan := none }).setKappa k f32One 0

/-- The class A stop from the current state (R201): the plan alone. -/
def Chip.makeStop (c : Chip) (k : Nat) : Chip :=
  ((c.fold k).effWritten k).modChan k fun x =>
    { x with plan := some (planStop x.v x.a (c.reg (prfCh k 5)) (c.reg (prfCh k 6))) }

/-- A STOP of whatever runs: STOPPING with the class A stop, the remainder discarded. -/
def Chip.stopNow (c : Chip) (k : Nat) : Chip :=
  (((c.unbind k).makeStop k).modChan k fun x => { x with move := none }).setChState k stStopping |>.setB
    (chst k 0) 6 false

/-- The underrun stop (R212). -/
def Chip.underrun (c : Chip) (k : Nat) : Chip := ((c.stopNow k).setB (chst k 0) 4 true).chCause k 3

/-- The κ ramp of a class B pause or resume, or of a new goal (R197). -/
def Chip.kappaRamp (c : Chip) (k : Nat) (goal : W32) : Chip :=
  c.modChan k fun x =>
    { x with kplan := some (planKappa (c.kappa k) (c.kdot k) goal (c.reg (prfCh k 7)) (c.reg (prfCh k 8))) }

/-- A pause of a table ends without a stop: the goal of κ is KAPPA_TGT again (R197, R202). -/
def Chip.kappaBack (c : Chip) (k : Nat) : Chip :=
  if (c.chState k == stPausing || c.chState k == stPaused) && (c.chan k).tab.isSome then c.kappaRamp k (c.kappaTgt k) else c

/-- A start from rest: the held position, and κ at KAPPA_TGT (R198). -/
def Chip.fromRest (c : Chip) (k : Nat) : Chip :=
  (c.modChan k fun x => { x with p := x.hold, v := 0, a := 0, kplan := none }).setKappa k (c.kappaTgt k) 0

/-- The master of a table at t₀ and carried to t₀ + one tick: pm, sm, vs, am (R208). -/
def Chip.master (c : Chip) (t : Nat) : Int × Int × W32 × W32 :=
  let w := c.reg (tblReg t 0)
  let n := fld w 23 16
  let s : Int × W32 × W32 := if bit w 28 then (c.spPos n, c.spVel n, c.spAcc n) else (c.obsPos n, c.obsVel n, c.obsAcc n)
  let ts := c.tS
  (s.1, wrapQ (s.1 + toQ (ea (em s.2.1 ts) (em s.2.2 (em (em ts ts) f32Half)))), ea s.2.1 (em s.2.2 ts), s.2.2)

/-- A captured move starts; `keep` re-plans a running move from its published state, which keeps κ (R194, R198). -/
def Chip.startMove (c : Chip) (k : Nat) (m : Move) (keep : Bool) : Chip :=
  let c := if keep then c.takePublished k else c.fromRest k
  let c := (c.modChan k fun x => { x with move := some m, armed := none }).setB (chst k 0) 6 false
  match m with
  | .tab t =>
    let r : TabRun := { table := t, seg := 0, sigma := 0, debt := 0, entryP := 0, entryV := 0, sm := (c.master t).1, past := none }
    let c := (c.setB (tblReg t 6) 31 true).setF (tblReg t 6) 7 0 k
    ((c.modChan k fun x => { x with plan := none }).enterBank k r (c.chan k).hold 0 0).setChState k stRunB
  | _ => ((c.effWritten k).replan k).setChState k stRunA

/-- The move a command captures (R199). -/
def Chip.capture (c : Chip) (k cmd table : Nat) : Move :=
  if cmd = 1 then .pos (c.pairI (prfCh k 10)) else if cmd = 2 then .vel (c.reg (prfCh k 12)) else .tab table

/-- BLK_POS and BLK_NEG (R224). -/
def Chip.blkPos (c : Chip) (k : Nat) : Bool := c.regB (homeReg k 16) 9
def Chip.blkNeg (c : Chip) (k : Nat) : Bool := c.regB (homeReg k 16) 8

/-- Whether a move is refused with PLAN_ERR (R199, R224). (Model: DEDUCED, log 47) -/
def Chip.refuses (c : Chip) (k : Nat) (m : Move) : Bool := match m with
  | .pos t => (c.blkPos k && decide (t > c.spPos k)) || (c.blkNeg k && decide (t < c.spPos k))
  | .vel v => isNaN32 v || f32Lt (c.reg (prfCh k 1)) (fabs v) || (c.blkPos k && f32Lt 0 v) || (c.blkNeg k && f32Lt v 0)
  | .tab t => !c.regB (tblReg t 0) 31 || (c.tabBound t && c.regF (tblReg t 6) 7 0 != k) || !c.tabReady t
      || c.blkPos k || c.blkNeg k

/-- MOVE_POS, MOVE_VEL and MOVE_TAB (R199). -/
def Chip.cmdMove (c : Chip) (k : Nat) (cmd table : Nat) (arm : Bool) : Chip :=
  let st := c.chState k
  let m := c.capture k cmd table
  let rest := st == stIdle || st == stArmed
  if arm then
    if !rest then c.cmdIgn k
    else if c.refuses k m then c.planErr k
    else (c.modChan k fun x => { x with armed := some m }).setChState k stArmed
  else if !(rest || (cmd != 3 && (st == stRunA || st == stPaused))) then c.cmdIgn k
  else if c.refuses k m then c.planErr k
  else if st = stPaused && (c.chan k).tab.isSome then
    ((c.modChan k fun x => { x with hold := c.spPos k }).unbind k).startMove k m false
  else c.startMove k m (st == stRunA)

/-- DISARM. -/
def Chip.cmdDisarm (c : Chip) (k : Nat) : Chip :=
  let st := c.chState k
  if st = stArmed then (c.modChan k fun x => { x with armed := none }).setChState k stIdle
  else if st = stIdle then c else c.cmdIgn k

/-- PAUSE (R201, R202). -/
def Chip.cmdPause (c : Chip) (k : Nat) : Chip :=
  let st := c.chState k
  if st = stRunA then (c.makeStop k).setChState k stPausing
  else if st = stRunB then
    match (c.chan k).tab with
    | some r => if c.tabIndep r.table then c.cmdIgn k else (c.kappaRamp k 0).setChState k stPausing
    | none => c
  else c

/-- Whether a kept remainder lies in a blocked direction (R224). -/
def Chip.keptBlocked (c : Chip) (k : Nat) : Bool := match (c.chan k).move with
  | some (.tab _) => c.blkPos k || c.blkNeg k
  | some (.pos t) => (c.blkPos k && decide (t > c.spPos k)) || (c.blkNeg k && decide (t < c.spPos k))
  | some (.vel v) => (c.blkPos k && f32Lt 0 v) || (c.blkNeg k && f32Lt v 0)
  | none => false

/-- RESUME (R201, R202). -/
def Chip.cmdResume (c : Chip) (k : Nat) : Chip :=
  let st := c.chState k
  let b := (c.chan k).tab.isSome
  if st = stPausing && !b then c.setB (chst k 0) 6 true
  else if st = stPausing || st = stPaused then
    if c.keptBlocked k then c.planErr k
    else if b then (c.kappaRamp k (c.kappaTgt k)).setChState k stRunB
    else match (c.chan k).move with
      | some m => c.startMove k m false
      | none => c
  else c.cmdIgn k

/-- STOP (R199, R201, R202). -/
def Chip.cmdStop (c : Chip) (k : Nat) : Chip :=
  let st := c.chState k
  let b := (c.chan k).tab.isSome
  if st = stArmed then (c.modChan k fun x => { x with armed := none }).setChState k stIdle
  else if st = stPaused then
    (((((c.kappaBack k).modChan k fun x => { x with hold := c.spPos k, move := none }).unbind k).setB (chst k 0) 6 false).setChState k stIdle).chCause
      k 2
  else if st = stPausing && !b then
    ((c.modChan k fun x => { x with move := none }).setB (chst k 0) 6 false).setChState k stStopping
  else if st = stRunA || st = stRunB || st = stPausing then c.stopNow k
  else c

/-- A group fire reaches an ARMED member (R213). (Model: DEDUCED, log 44) -/
def Chip.fireMember (c : Chip) (k : Nat) : Chip := match (c.chan k).armed with
  | some m =>
    let c := (c.modChan k fun x => { x with armed := none }).setChState k stIdle
    match m with
    | .tab _ => if c.refuses k m then c.planErr k else (c.startMove k m false).chCause k 0
    | _ => (c.startMove k m false).chCause k 0
  | none => c

/-! ## Faults (R203) -/

/-- Entry to a fault action: rank 1 of R200. -/
def Chip.enterFault (c : Chip) (k : Nat) : Chip :=
  let f := (c.obs k).fact
  let c := ((c.kappaBack k).unbind k).modChan k fun x => { x with armed := none, move := none, fact := f }
  let c := if f then (c.effWritten k).modChan k fun x => { x with plan := none } else c.makeStop k
  (c.setB (chst k 0) 6 false).setChState k stFault

/-- Leaving FAULT: IDLE at the last set-point. -/
def Chip.leaveFault (c : Chip) (k : Nat) : Chip :=
  (c.modChan k fun x => { x with hold := c.spPos k, plan := none }).setChState k stIdle

/-! ## Limit writes (R204, R205) -/

/-- Limit writes take effect on a running class A move, which is re-planned from its published state (R194). (Model:
DEDUCED, log 95) (Model: DEDUCED, log 95) -/
def Chip.applyLimits (c : Chip) (k : Nat) : Chip :=
  let c := c.takePublished k
  let x := c.chan k
  let eff := c.effLimits k
  let new := c.limits k
  match x.move with
  | some (.pos t) =>
    let test := c.regB (chst k 0) 7 || f32Lt new.dmax eff.dmax || f32Lt new.jmax eff.jmax
    let l := if test then deferL x.v x.a (toF (wrapQ (t - x.p))) eff.dmax new.dmax eff.jmax new.jmax else 0
    let held := !isZero32 l
    let d := ea new.dmax (em l (es eff.dmax new.dmax))
    let j := ea new.jmax (em l (es eff.jmax new.jmax))
    let c := (c.setEff k (if held then d else new.dmax) (if held then j else new.jmax)).setB (chst k 0) 7 held
    (if held then (c.setB (chst k 0) 3 true).chCause k 4 else c).replan k
  | _ => (c.effWritten k).replan k

/-! ## Motion of one tick -/

/-- The plan time of a tick (R195), with κ already advanced from `k0`. -/
def Chip.planTime (c : Chip) (k : Nat) (k0 : W32) : Int := toQ (em (em (ea k0 (c.kappa k)) f32Half) c.tS)

/-- κ advances by one tick (R197). (Model: DEDUCED, log 44) -/
def Chip.kappaTick (c : Chip) (k : Nat) : Chip :=
  let r := kappaStep (c.chan k).kplan (c.kappa k) (c.kdot k) c.tS
  (c.modChan k fun x => { x with kplan := r.1 }).setKappa k r.2.1 r.2.2

/-- The phase number of a plan, 0 when none runs. -/
def planNum (p : Option ProfPlan) : Nat := match p with
  | some pl => match pl.pieces with | q :: _ => q.num | [] => 0
  | none => 0
/-- The phase of the plan that the channel status shows. (Model: DEDUCED, log 48) -/
def Chip.showPhase (c : Chip) (k : Nat) : Chip := c.setF (chst k 0) 27 24 (planNum (c.chan k).plan)

/-- A class A move runs for one tick (R195, R196). -/
def Chip.runA (c : Chip) (k : Nat) : Chip :=
  let k0 := c.kappa k
  let c := c.kappaTick k
  let x := c.chan k
  let dt := c.planTime k k0
  match x.plan with
  | none => c
  | some pl =>
    let r := pl.advance id { p := x.p, v := x.v, a := x.a } dt
    let s := r.2
    let x := { x with p := s.p, v := s.v, a := s.a, plan := some r.1, adv := x.adv + dt }
    if r.1.pieces.isEmpty then
      let c := c.setChan k { x with plan := none, move := none, hold := s.p }
      (((c.effWritten k).setChState k stIdle).chCause k 1).setSp k s.p 0 0
    else
      let c := c.setChan k x
      let done := match x.move with
        | some (.vel _) => decide (planNum (some pl) ≤ 3) && planNum (some r.1) == 4
        | _ => false
      let c := if done then c.chCause k 1 else c
      let kp := c.kappa k
      c.setSp k s.p (em kp s.v) (ea (em (em kp kp) s.a) (em (c.kdot k) s.v))

/-- A class A stop runs for one tick in real time; the Bool says it reached rest. -/
def Chip.runStop (c : Chip) (k : Nat) : Chip × Bool :=
  let x := c.chan k
  match x.plan with
  | none => (c.setSp k x.hold 0 0, false)
  | some pl =>
    let r := pl.advance id { p := x.p, v := x.v, a := x.a } (toQ c.tS)
    let s := r.2
    if r.1.pieces.isEmpty then
      ((c.setChan k { x with p := s.p, v := 0, a := 0, plan := none, hold := s.p }).setSp k s.p 0 0, true)
    else ((c.setChan k { x with p := s.p, v := s.v, a := s.a, plan := some r.1 }).setSp k s.p s.v s.a, false)

/-- One tick of STOPPING: at rest the channel is IDLE and the cause STOPPED is raised (R201). -/
def Chip.stoppingTick (c : Chip) (k : Nat) : Chip :=
  let r := c.runStop k
  if r.2 || (c.chan k).plan.isNone then ((r.1.modChan k fun x => { x with move := none }).setChState k stIdle).chCause k 2 else r.1

/-- The record of a class B channel for a slope and second derivative (R208). -/
def Chip.setTabSp (c : Chip) (k : Nat) (r : TabRun) (m : Int × Int × W32 × W32) (pos : Int) (dp d2 : W32) : Chip :=
  if c.tabIndep r.table then
    c.setSp k pos (em dp m.2.2.1) (ea (em d2 (em m.2.2.1 m.2.2.1)) (em dp m.2.2.2))
  else
    let kp := c.kappa k
    c.setSp k pos (em kp dp) (ea (em (em kp kp) d2) (em (c.kdot k) dp))

/-- The record on the current segment (R207). -/
def Chip.showSegment (c : Chip) (k : Nat) (m : Int × Int × W32 × W32) : Chip := match (c.chan k).tab with
  | none => c
  | some r =>
    let p0 := if r.seg = 0 then r.entryP else c.segEndPos r (r.seg - 1)
    let v0 := if r.seg = 0 then r.entryV else c.segEndVel r (r.seg - 1)
    let h := hermite p0 v0 (c.segEndPos r r.seg) (c.segEndVel r r.seg) (c.segLen r r.seg) (toF r.sigma)
    c.setTabSp k r m h.1 h.2.1 h.2.2

/-- The record in an underrun allowance (R212). -/
def Chip.showAllowance (c : Chip) (k : Nat) (m : Int × Int × W32 × W32) (r : TabRun) (beyond : Int) (hold : Bool) : Chip :=
  let i := r.seg
  if hold then c.setSp k (c.segEndPos r i) 0 0
  else c.setTabSp k r m (wrapQ (c.segEndPos r i + toQ (em (c.segEndVel r i) (toF beyond)))) (c.segEndVel r i) 0

/-- What crossing segment ends came to. -/
inductive Crossed where
  | inside
  | lag
  /-- The end of the active bank with no bank to take over; σ beyond the end. -/
  | bankEnd (beyond : Int)
  deriving DecidableEq, Repr

/-- σ has advanced: segment ends are crossed, at most four (R209, R210). -/
def Chip.crossEnds (c : Chip) (k : Nat) : (left : Nat) → Chip × Crossed
  | 0 => match (c.chan k).tab with
    | none => (c, .inside)
    | some r =>
      if r.sigma < c.segLenQ r r.seg then (c, .inside)
      else (c.modChan k fun x => { x with tab := some { r with debt := r.sigma, sigma := 0 } }, .lag)
  | n + 1 => match (c.chan k).tab with
    | none => (c, .inside)
    | some r =>
      let rest := r.sigma - c.segLenQ r r.seg
      let last := decide (r.seg + 1 ≥ c.bankSegs r.table (c.tabActive r.table))
      let at1 := match c.tabCommit r.table with | some m => m.at1 | none => false
      if rest < 0 then (c, .inside)
      else if c.tabReady r.table && (at1 || last) then
        (c.takeOver k r (c.segEndPos r r.seg) (c.segEndVel r r.seg) rest).crossEnds k n
      else if last then (c, .bankEnd rest)
      else (c.modChan k fun x => { x with tab := some { r with seg := r.seg + 1, sigma := rest } }).crossEnds k n

/-- σ has gone back: earlier segments are entered, at most four, and never past the point of bank entry (R209). The
result tells `lag`, and whether σ is held at the entry. (Model: DEDUCED, log 47) -/
def Chip.crossBack (c : Chip) (k : Nat) : (left : Nat) → Chip × Bool × Bool
  | 0 => match (c.chan k).tab with
    | none => (c, false, false)
    | some r =>
      if 0 ≤ r.sigma then (c, false, false)
      else if r.seg = 0 then (c.modChan k fun x => { x with tab := some { r with sigma := 0 } }, false, true)
      else (c.modChan k fun x => { x with tab := some { r with debt := r.sigma, sigma := 0 } }, true, false)
  | n + 1 => match (c.chan k).tab with
    | none => (c, false, false)
    | some r =>
      if 0 ≤ r.sigma then (c, false, false)
      else if r.seg = 0 then (c.modChan k fun x => { x with tab := some { r with sigma := 0 } }, false, true)
      else (c.modChan k fun x => { x with tab := some { r with seg := r.seg - 1, sigma := r.sigma + c.segLenQ r (r.seg - 1) } }).crossBack k n

/-- The end of the active bank (R212). -/
def Chip.bankEnds (c : Chip) (k : Nat) (m : Int × Int × W32 × W32) (r : TabRun) (beyond : Int) : Chip :=
  if c.bankFinal r.table (c.tabActive r.table) then
    let p := c.segEndPos r r.seg
    let c := ((c.kappaBack k).modChan k fun x => { x with hold := p, move := none }).unbind k
    ((c.setChState k stIdle).chCause k 1).setSp k p 0 0
  else
    let allow := c.regF (tblReg r.table 0) 15 0
    if allow = 0 then (c.underrun k).stoppingTick k
    else
      let r := { r with past := some (allow, beyond) }
      ((c.modChan k fun x => { x with tab := some r }).setB (chst k 0) 8 true).showAllowance k m r beyond false

/-- A class B table runs for one tick (R208 to R212). -/
def Chip.runB (c : Chip) (k : Nat) : Chip := match (c.chan k).tab with
  | none => c
  | some r0 =>
    let m := c.master r0.table
    let k0 := c.kappa k
    let indep := c.tabIndep r0.table
    let c := c.kappaTick k
    let d := if indep then wrapQ (m.2.1 - r0.sm) else c.planTime k k0
    let c := if indep then c else c.modChan k fun x => { x with adv := x.adv + d }
    let r0 := { r0 with sm := m.2.1 }
    let c := c.modChan k fun x => { x with tab := some r0 }
    let c := if c.chState k = stPausing && isZero32 (c.kappa k) && isZero32 (c.kdot k) then
        ((c.modChan k fun x => { x with kplan := none }).setChState k stPaused).chCause k 2 else c
    let waits := r0.past.isSome && !c.tabReady r0.table
    match r0.past, waits with
    | some (n, beyond), true =>
      let b := beyond + d
      let r := { r0 with past := some (n, max b 0) }
      let c := c.modChan k fun x => { x with tab := some r }
      c.showAllowance k m r (max b 0) (decide (b ≤ 0 ∧ d ≤ 0))
    | _, _ =>
      let c := match r0.past with
        | some _ => c.takeOver k r0 (c.spPos k) (c.segEndVel r0 r0.seg) 0
        | none => c
      let adv := d + r0.debt
      let c := c.modChan k fun x => { x with tab := x.tab.map fun t => { t with debt := 0, sigma := t.sigma + adv } }
      let c := if adv > 0 then c.setB (chst k 0) 9 false else c
      let back := c.crossBack k 4
      let c := back.1
      let c := if back.2.2 then c.setB (chst k 0) 9 true else c
      let fwd := c.crossEnds k 4
      let c := fwd.1
      let c := if back.2.1 || fwd.2 == .lag then c.setB (chst k 0) 5 true else c
      match fwd.2, (c.chan k).tab with
      | .bankEnd rest, some r => c.bankEnds k m r rest
      | _, some r => if c.regB (chst k 0) 9 then c.setSp k r.entryP 0 0 else c.showSegment k m
      | _, none => c

/-- The underrun allowance counts a tick (R212); the Bool says it expired: rank 2 of R200. A bank that is READY takes over
in this tick instead. -/
def Chip.allowanceTick (c : Chip) (k : Nat) : Chip × Bool :=
  match (c.chan k).tab with
  | some r => match r.past with
    | some (n, b) =>
      if c.tabReady r.table then (c, false)
      else if n ≤ 1 then (c.underrun k, true)
      else (c.modChan k fun x => { x with tab := some { r with past := some (n - 1, b) } }, false)
    | none => (c, false)
  | none => (c, false)

end Sys2Proof.Machine
end

