-- ==== Sys2Proof/Machine/RingBase.lean ====
section
/-!
DEFINITION. Station number, mode slots, ownership and relinquishment: what the star, the ring and the twins share
(R333, R338, R346, R353, R450).
-/
namespace Sys2Proof.Machine

/-! ## Fields -/

def Chip.modRing (c : Chip) (f : Ring → Ring) : Chip := { c with ring := f c.ring }
def Chip.modTwin (c : Chip) (f : Twin → Twin) : Chip := { c with twin := f c.twin }

/-- The straps as sampled (R450): cascade position, and T. -/
def Chip.position (c : Chip) : Nat := c.regF 0x200 2 0
def Chip.twinT (c : Chip) : Nat := c.regF 0x200 3 3
/-- The station number (R333), and the partner's. -/
def Chip.station (c : Chip) : Nat := 2 * c.position + c.twinT
def Chip.partner (c : Chip) : Nat := 2 * c.position + (1 - c.twinT)

def Chip.ringEn (c : Chip) : Bool := c.regB 0x700004 31
def Chip.rstate (c : Chip) : Nat := c.regF 0x700000 31 28
def Chip.crnMode (c : Chip) : Nat := c.regF 0x700000 23 21
/-- The ring states of R343. -/
def rsOff : Nat := 0
def rsListen : Nat := 1
def rsSend : Nat := 2
def rsInteg : Nat := 3
def rsActive : Nat := 4
def rsExcluded : Nat := 5
def rsCfgMm : Nat := 6

/-- A status bit of CRN_STAT. -/
def Chip.crnStat (c : Chip) (b : Nat) : Chip := c.setB 0x700000 b true
/-- CRN_STAT.CFG_IGN. -/
def Chip.crnIgn (c : Chip) : Chip := c.crnStat 2
/-- A ring event fires, at most once per tick (R363). -/
def Chip.crnFire (c : Chip) (n : Nat) : Chip :=
  if c.ticking && c.ring.fired.contains n then c else (c.modRing fun r => { r with fired := n :: r.fired }).fire n
/-- A mode request is dropped, with what the station has heard of it. -/
def Chip.dropRequest (c : Chip) : Chip :=
  (c.setB 0x70000C 31 false).modRing fun r => { r with request := none, answer := 0, acked := [], naked := false }
/-- The own ring state changes (R343, R363). A station that leaves INTEG and ACTIVE drops an open mode request, and the stream of its
cycle (R342). (Model: DEDUCED, log 53) -/
def Chip.setRstate (c : Chip) (s : Nat) : Chip :=
  if c.rstate = s then c
  else
    let c := if s = rsInteg ∨ s = rsActive then c else (c.dropRequest).modRing fun r => { r with stream := [] }
    ((c.setF 0x700000 31 28 s).modRing fun r => { r with inState := 0, near := 0, far := 0 }).crnFire 96

/-! ## Modes (R338) -/

def modeReg (i w : Nat) : Nat := 0x701000 + 256 * i + 4 * w
/-- A slot of a mode: start in ns, length in blocks. -/
def Chip.modeSlot (c : Chip) (i w : Nat) : Nat × Nat := (c.regF (modeReg i w) 31 14, c.regF (modeReg i w) 13 0)
def Chip.dataSlot (c : Chip) (i p : Nat) : Nat × Nat := c.modeSlot i p
def Chip.joinSlot (c : Chip) (i p : Nat) : Nat × Nat := c.modeSlot i (8 + p)
def Chip.statSlot (c : Chip) (i s : Nat) : Nat × Nat := c.modeSlot i (16 + s)
def Chip.modeLoaded (c : Chip) (i : Nat) : Bool := c.regB (modeReg i 32) 31
/-- Whether station `s` is present in a mode, and the stations that are, ascending. -/
def Chip.present (c : Chip) (i s : Nat) : Bool := (c.statSlot i s).2 != 0
def Chip.stations (c : Chip) (i : Nat) : List Nat := (List.range 16).filter fun s => c.present i s

/-- Whether the position holds a twin pair: the partner has a status slot in the mode in use. (Model: DEDUCED, log 52) -/
def Chip.paired (c : Chip) : Bool := c.ringEn && c.modeLoaded c.crnMode && c.present c.crnMode c.partner

/-- The mode in use changes (R363). -/
def Chip.setMode (c : Chip) (i : Nat) : Chip := if c.crnMode = i then c else (c.setF 0x700000 23 21 i).crnFire 99

/-! ## Ownership (R353, R356) -/

/-- CRN_TWST.OWNER and ELIG. -/
def Chip.owner (c : Chip) : Bool := c.regB 0x700020 29
def Chip.eligible (c : Chip) : Bool := c.regB 0x700020 30
def Chip.setOwner (c : Chip) (b : Bool) : Chip := c.setB 0x700020 29 b
def Chip.setElig (c : Chip) (b : Bool) : Chip := c.setB 0x700020 30 b
/-- The tick of a change of ownership is kept (R364). -/
def Chip.ownChanged (c : Chip) : Chip := (c.setReg 0x700024 (BitVec.ofNat 32 c.tick)).crnFire 104
/-- This twin becomes owner (R354, R357, R363). -/
def Chip.takeOwner (c : Chip) : Chip :=
  (((c.setOwner true).setElig true).modTwin fun t => { t with ownTick := c.tick % 2 ^ 32 }).ownChanged
/-- This twin gives up ownership if it holds it (R363). -/
def Chip.dropOwner (c : Chip) : Chip := if c.owner then (c.setOwner false).ownChanged else c
/-- The owner of the position, or its only station. -/
def Chip.ownsPosition (c : Chip) : Bool := !c.paired || c.owner
/-- The master of cell time (R346). -/
def Chip.isMaster (c : Chip) : Bool := c.rstate == rsActive && c.position == 0 && c.ownsPosition

/-- RELQ of the downlinks (R353, R356, R456). -/
def Chip.relq (c : Chip) : Bool :=
  !(c.modState == .run || c.modState == .degraded) ||
  (c.paired && (if c.owner then c.twin.fault else !(c.twinT == 1 && c.eligible)))

/-- TROLE (R336): 0 unpaired, 1 owner, 2 eligible standby, 3 joining, 4 ineligible. -/
def Chip.trole (c : Chip) : Nat :=
  if !c.paired then 0 else if c.owner then 1 else if c.eligible then 2 else if c.twin.joining then 3 else 4

end Sys2Proof.Machine
end

