-- ==== Sys2Proof/Machine/Star.lean ====
section
/-!
DEFINITION. The star ports (R308 to R332): the guardian, admission, timing correction, release of records, downlink
assembly and the frame as it leaves the pin.
-/
namespace Sys2Proof.Machine

/-! ## Fields -/

def portReg (n w : Nat) : Nat := 0x601000 + 64 * n + 4 * w
def pstReg (n w : Nat) : Nat := 0x602000 + 32 * n + 4 * w
def rxReg (n i : Nat) : Nat := 0x610000 + 1024 * n + 4 * i

def Chip.modStar (c : Chip) (f : Star → Star) : Chip := { c with star := f c.star }
def Port.zero : Port :=
  { sof := false, acc := false, viol := false, lastO := 0, frame := [], moved := false, warned := false, payload := none,
    sent := [] }
def Chip.port (c : Chip) (n : Nat) : Port := tabGet (fun _ => Port.zero) c.star.ports n
def Chip.setPort (c : Chip) (n : Nat) (p : Port) : Chip :=
  c.modStar fun s => { s with ports := tabPut (fun _ => Port.zero) s.ports n p }
def Chip.modPort (c : Chip) (n : Nat) (f : Port → Port) : Chip := c.setPort n (f (c.port n))

/-- STR_STAT bits. -/
def Chip.strStat (c : Chip) (b : Nat) : Chip := c.setB 0x600000 b true
def Chip.strIgn (c : Chip) : Chip := c.strStat 1

/-- The port states of R319. -/
def psOff : Nat := 0
def psDown : Nat := 1
def psAdmit : Nat := 2
def psRun : Nat := 3
def psFenced : Nat := 4
def Chip.portState (c : Chip) (n : Nat) : Nat := c.regF (pstReg n 0) 31 29
def Chip.portEn (c : Chip) (n : Nat) : Bool := c.regB (portReg n 0) 31
/-- GUARD and the settings of a port in 1/16 ns. -/
def Chip.guard16 (c : Chip) : Int := (16 * c.regF 0x600004 8 0 : Nat)
def Chip.slot16 (c : Chip) (n : Nat) : Int := (16 * c.regF (portReg n 1) 17 0 : Nat)

/-- A port changes state; the event follows at the window close (R331). -/
def Chip.setPortState (c : Chip) (n s : Nat) : Chip :=
  if c.portState n = s then c else (c.setF (pstReg n 0) 31 29 s).modPort n fun p => { p with moved := true }

/-- Entry to ADMIT: DLY is set to DLY0 (R319). -/
def Chip.enterAdmit (c : Chip) (n : Nat) : Chip :=
  ((c.setPortState n psAdmit).setReg (pstReg n 1) (BitVec.ofNat 32 (c.regF (portReg n 3) 12 0))).setF (pstReg n 0) 20 16 0
/-- Entry to FENCED, which FENCES counts (R318, R319, R332). (Model: DEDUCED, log 51) -/
def Chip.fencePort (c : Chip) (n : Nat) : Chip :=
  let f := c.regF (pstReg n 4) 15 0
  ((c.setPortState n psFenced).setF (pstReg n 4) 15 0 ((f + 1) % 65536)).strStat 3

/-! ## Checks and writes (R317, R319, R332) -/

/-- The checks of an enabled port (R317). (Model: DEDUCED, log 50) -/
def Chip.portOk (c : Chip) (n : Nat) : Bool :=
  let slot := c.regF (portReg n 1) 17 0
  let guard := c.regF 0x600004 8 0
  let ulen := c.regF (portReg n 0) 25 16
  let ncmd := c.regF (portReg n 4) 3 0
  let auxlen := c.regF (portReg n 4) 21 16
  decide (c.ulStart + guard ≤ slot) && decide (slot + guard + 4 * ulen ≤ c.ulEnd)
    && decide (22 ≤ ulen) && decide (ulen ≤ 534) && decide (ncmd ≤ 8)
    && decide (c.dlStart + c.regF (portReg n 2) 17 0 + 4 * (70 + 16 * ncmd + 4 * auxlen) ≤ c.dlEnd)
    && (!c.regB (portReg n 4) 31 || (c.publishedHalf (c.regF (portReg n 4) 15 8)).isSome)
    && decide (c.regF (portReg n 3) 12 0 ≤ 4800)

/-- The STR block's check on leaving CONFIG; every enabled port that passes enters ADMIT. -/
def Chip.strLeave (c : Chip) : Chip × Bool :=
  let ps := (List.range 32).filter c.portEn
  if ps.all c.portOk then (c, true) else (c.strStat 0, false)

/-- Enabled ports leave OFF as the module leaves CONFIG (R319, R456). (Model: DEDUCED, log 50) -/
def Chip.strStart (c : Chip) : Chip :=
  forN 32 (fun n c => if c.portEn n && c.portState n == psOff then c.enterAdmit n else c) c

/-- A write of word 0 of STR_PORT[n] (R317, R319, R332). (Model: DEDUCED, log 96) -/
def Chip.portCtrl (c : Chip) (n : Nat) (v : W32) : Chip :=
  let old := c.reg (portReg n 0)
  let live := !c.inConfig && bit old 31
  let other := (old &&& 0x43FF0000#32) != (v &&& 0x43FF0000#32)
  let c := if live && other then c.strIgn else c
  let w := if live then setBit old 31 (bit v 31) else v
  if c.inConfig then c.mapWrite (portReg n 0) w
  else if !bit old 31 && bit v 31 then
    let t := c.mapWrite (portReg n 0) w
    if t.portOk n then (if t.portState n = psOff then t.enterAdmit n else t) else (t.setB (portReg n 0) 31 false).strStat 0
  else c.mapWrite (portReg n 0) w

/-- A write to a word of STR_PORT[n]. -/
def Chip.portWrite (c : Chip) (n w : Nat) (v : W32) : Chip :=
  if w = 0 then c.portCtrl n v
  else if w < 8 && !c.inConfig && c.portEn n then c.strIgn
  else c.mapWrite (portReg n w) v

/-- A write of STR_GUARD (R332). -/
def Chip.guardWrite (c : Chip) (v : W32) : Chip :=
  if !c.inConfig then c.strIgn
  else
    let c := if fld v 23 16 = 0 then c.strIgn else c.setF 0x600004 23 16 (fld v 23 16)
    if 8 ≤ fld v 8 0 ∧ fld v 8 0 ≤ 400 then c.setF 0x600004 8 0 (fld v 8 0) else c.strIgn

/-- A write of STR_ADMIT (R319). -/
def Chip.admitWrite (c : Chip) (v : W32) : Chip :=
  let n := fld v 4 0
  if c.portState n = psFenced then c.enterAdmit n else c.strIgn

/-- A write to a word of the STR block. -/
def Chip.strWrite (c : Chip) (x : Nat) (v : W32) : Chip :=
  if x = 4 then c.guardWrite v
  else if x = 8 then c.admitWrite v
  else if 0x1000 ≤ x ∧ x < 0x1800 then c.portWrite ((x - 0x1000) / 64) (x % 64 / 4) v
  else c.mapWrite (0x600000 + x) v

/-- EN 0 takes effect at the tick boundary (R319). -/
def Chip.strTick (c : Chip) : Chip :=
  forN 32 (fun n c => if !c.portEn n && c.portState n != psOff then c.setPortState n psOff else c) c

/-! ## Links (R310, R319) -/

/-- Link lost: DOWN from any state but OFF. -/
def Chip.starLoss (c : Chip) (n : Nat) : Chip := if c.portState n = psOff then c else c.setPortState n psDown
/-- Link regained: ADMIT with AUTO 1, else FENCED. (Model: DEDUCED, log 51) -/
def Chip.starRegain (c : Chip) (n : Nat) : Chip :=
  if c.portState n != psDown then c
  else if c.regB (portReg n 0) 30 then c.enterAdmit n else c.fencePort n

/-! ## Uplinks (R311 to R313, R318, R321, R322) -/

/-- The payload length P of a frame's header (R312). -/
def uplinkP (b : List Byte) : Nat :=
  32 * leAt b 3 1 + (match leAt b 4 1 with | 0 => 0 | 1 => 80 | _ => 144) + 4 * leAt b 5 1

/-- A valid uplink (R313). `bytes` runs from TYPE to FCRC; `run` is the port's RUN. -/
def Chip.uplinkValid (c : Chip) (bytes : List Byte) (codeOk run : Bool) : Bool :=
  let p := uplinkP bytes
  codeOk && decide (20 ≤ bytes.length) && leAt bytes 0 1 == 0xA1 && leAt bytes 1 1 == 1
    && decide (leAt bytes 3 1 ≤ 8) && decide (leAt bytes 4 1 ≤ 2) && decide (p ≤ 512) && bytes.length == 20 + p
    && crc32c (bytes.take (16 + p)) == leAt bytes (16 + p) 4
    && leAt bytes 6 2 == c.tick % 65536 && (!run || leAt bytes 8 1 ≥ 128)

/-- The correction of DLY (R321). -/
def Chip.correctDly (c : Chip) (n : Nat) (o : Int) (tside : Nat) : Chip :=
  let step := if tside = c.twinT then shrI o 1 else o
  let cs : Int := c.regF 0x600004 23 16
  let step := if c.portState n = psRun then clampI (-cs) cs step else step
  c.setReg (pstReg n 1) (BitVec.ofInt 32 (clampI 0 4800 ((c.reg (pstReg n 1)).toNat + step)))

/-- A frame is cut or truncated: counted, a violation and a warning. -/
def Chip.frameBad (c : Chip) (n : Nat) (trunc : Bool) : Chip :=
  (if trunc then c.addSat (pstReg n 3) 15 0 1 else c.addSat (pstReg n 3) 31 16 1).modPort n fun p =>
    { p with viol := true, warned := true }

/-- An accepted frame. -/
def Chip.frameAccept (c : Chip) (n : Nat) (o : Int) (bytes : List Byte) : Chip :=
  let tside := leAt bytes 8 1 / 64 % 2
  let edge := c.portState n == psRun && decide (4 * o.natAbs > 3 * c.guard16.natAbs)
  let c := c.modPort n fun p => { p with acc := true, lastO := o, frame := bytes.take (bytes.length - 4) }
  let c := ((c.correctDly n o tside).setF (pstReg n 0) 28 28 tside).setReg (pstReg n 2) (BitVec.ofInt 32 o)
  if edge then ((c.setB (pstReg n 0) 0 true).strStat 2).modPort n fun p => { p with warned := true } else c

/-- An uplink at port `n` whose SOF arrives at `ts` after t₀, in 1/16 ns (R318). (Model: DEDUCED, log 50) -/
def Chip.uplinkFrame (c : Chip) (n : Nat) (ts : Int) (bytes : List Byte) (codeOk : Bool) : Chip :=
  let st := c.portState n
  if st = psOff ∨ st = psDown ∨ st = psFenced then c
  else if (c.port n).sof || decide (ts < (16 * c.ulStart : Nat)) || decide (ts > (16 * c.ulEnd : Nat)) then c.frameBad n false
  else
    let c := c.modPort n fun p => { p with sof := true }
    let o := ts - c.slot16 n
    if st = psRun && (decide (o < -c.guard16) || decide (o > c.guard16)) then c.frameBad n false
    else if bytes.length + 2 > c.regF (portReg n 0) 25 16 then c.frameBad n true
    else if !c.uplinkValid bytes codeOk (st == psRun) then c.addSat (pstReg n 4) 31 16 1
    else c.frameAccept n o bytes

/-- The records of a frame (R312). -/
def frameRecords (b : List Byte) : List (List Byte) := (List.range (leAt b 3 1)).map fun r => (b.drop (16 + 32 * r)).take 32
/-- The safety message of a frame; empty when it has none. -/
def frameSafety (b : List Byte) : List Byte :=
  let n := match leAt b 4 1 with | 0 => 0 | 1 => 80 | _ => 144
  (b.drop (16 + 32 * leAt b 3 1)).take n

/-- STR_RXBUF[n] takes the released frame whole (R332). -/
def Chip.rxBuffer (c : Chip) (n : Nat) (b : List Byte) : Chip :=
  forN 132 (fun i c => c.setReg (rxReg n i) (BitVec.ofNat 32 (leAt b (4 * i) 4))) c

/-- The records of a frame that port `n` accepted reach their readers (R312, R318). -/
def Chip.releaseFrame (c : Chip) (n : Nat) (b : List Byte) : Chip :=
  let recs := frameRecords b
  let c := if leAt b 2 1 = 0 then c.modFbk fun f => { f with released := tabPut (fun _ => []) f.released n recs }
    else if leAt b 2 1 = 1 then c.modStar fun s => { s with tracks := tabPut (fun _ => []) s.tracks n recs } else c
  let m := frameSafety b
  if m.isEmpty then c
  else c.modStar fun s => { s with
    safe := tabPut (fun _ => []) s.safe n ((c.tick, m) :: ((tabGet (fun _ => []) s.safe n).filter fun e => e.1 != c.tick).take 1) }

/-- Port `n` releases its records at the window close: MASK and the receive buffer show it (R332). -/
def Chip.releaseRecords (c : Chip) (n : Nat) : Chip :=
  let b := (c.port n).frame
  ((c.rxBuffer n b).setB 0x60000C n true).releaseFrame n b

/-- One port at the uplink window close (R318, R319). (Model: DEDUCED, log 50) -/
def Chip.portClose (c : Chip) (n : Nat) : Chip :=
  let st := c.portState n
  let p := c.port n
  let c :=
    if st = psRun then
      let v := c.regF (pstReg n 0) 27 26
      let v := if p.viol then v + 1 else if p.acc then 0 else v
      let c := c.setF (pstReg n 0) 27 26 v
      if v = 3 then c.fencePort n else if p.acc && !p.viol then c.releaseRecords n else c
    else if st = psAdmit then
      let good := p.acc && !p.viol && decide (2 * p.lastO.natAbs ≤ c.guard16.natAbs)
      let a := if good then c.regF (pstReg n 0) 20 16 + 1 else 0
      let c := c.setF (pstReg n 0) 20 16 a
      if a = 16 then (c.setPortState n psRun).setF (pstReg n 0) 27 26 0 else c
    else c
  let q := c.port n
  let c := c.setPort n { q with sof := false, acc := false, viol := false, moved := false, warned := false }
  let c := if q.moved then c.fire (32 + 2 * n) else c
  if q.warned then c.fire (33 + 2 * n) else c

/-- The uplink window close (R318, R331). -/
def Chip.windowClose (c : Chip) : Chip :=
  let c := (c.setReg 0x60000C 0).modStar fun s => { s with tracks := [] }
  forN 32 (fun n c => c.portClose n) (c.modFbk fun f => { f with released := [] })

/-- Only records that both twins released are used (R320). -/
def Chip.maskReleased (c : Chip) (mask : W32) : Chip :=
  let c := c.modFbk fun f => { f with released := f.released.filter fun e => bit mask e.1 }
  c.modStar fun s => { s with
    safe := (s.safe.map fun e => (e.1, e.2.filter fun m => m.1 != c.tick || bit mask e.1)).filter fun e => !e.2.isEmpty }

/-! ## Downlinks (R314 to R316) -/

/-- The bytes of a command record: LPE_CMD or PRF_STREF, four words. A stepper index above 31 names no record, and its
bytes are free. (Model: DESIGN CHOICE, log 13; DEDUCED, log 50) -/
def Chip.cmdBytes (c : Chip) (kind : Bool) (i : Nat) : Chip × List Byte :=
  if !kind then (c, ((List.range 4).map fun w => toBytes 4 (c.reg (cmdReg i w)).toNat).flatten)
  else if i < 32 then (c, ((List.range 4).map fun w => toBytes 4 (c.reg (strefReg i w)).toNat).flatten)
  else
    let a := c.draw
    let b := a.2.draw
    (b.2, toBytes 8 a.1.toNat ++ toBytes 8 b.1.toNat)

/-- MAP[r] of a port. -/
def Chip.portMap (c : Chip) (n r : Nat) : Nat := c.regF (portReg n (6 + r / 4)) (8 * (r % 4) + 7) (8 * (r % 4))

/-- Where the trailer of a port lies: address and length, 0 for none (R315). (Model: DEDUCED, log 96) -/
def Chip.trailerAt (c : Chip) (n : Nat) : Nat × Nat :=
  let w := c.reg (portReg n 4)
  if !bit w 31 then (0, 0)
  else match c.publishedHalf (fld w 15 8) with
    | some (o, _) => (cellBase + o + c.regF (portReg n 5) 15 0, 4 * fld w 21 16)
    | none => (0, 0)
/-- The trailer of a port (R315). (Model: DEDUCED, log 96) -/
def Chip.trailer (c : Chip) (n : Nat) : List Byte := c.engineBytes (c.trailerAt n).1 (c.trailerAt n).2

/-- A port assembles its payload at the publish deadline (R315): NCMD, SMSG, AUXLEN and the bytes. `smsg` is the safety
core's current message for the port, empty for none. (Model: DEDUCED, log 50) -/
def Chip.assemble (c : Chip) (n : Nat) (smsg : List Byte) : Chip :=
  if c.portState n = psOff then c.modPort n fun p => { p with payload := none }
  else
    let ncmd := c.regF (portReg n 4) 3 0
    let r := (List.range ncmd).foldl (fun (x : Chip × List Byte) r =>
      let m := c.portMap n r
      let y := x.1.cmdBytes (m.testBit 7) (m % 128); (y.1, x.2 ++ y.2)) (c, [])
    let aux := c.trailer n
    (r.1.engineMeets (c.trailerAt n).1 (c.trailerAt n).2).modPort n fun p => { p with payload := some (ncmd, !smsg.isEmpty, aux.length / 4, r.2 ++ smsg ++ aux) }

/-- HS (R314): 0x96 while HUSK_STOP is released, 0x69 while it is asserted. -/
def hsByte (stop : Bool) : Byte := if stop then 0x69#8 else 0x96#8

/-- The downlink header (R314). (Model: DEDUCED, log 50) -/
def Chip.downHeader (c : Chip) (n : Nat) (stop : Bool) (ncmd : Nat) (smsg : Bool) (aux : Nat) : List Byte :=
  let flags := c.twinT + 2 * c.paired.toNat + 4 * c.relq.toNat + 8 * smsg.toNat + 16 * (c.portState n != psRun).toNat
  let kinds := (List.range 8).foldl (fun a r => a + ((c.portMap n r) / 128) * 2 ^ r) 0
  toBytes 1 0xD1 ++ toBytes 1 1 ++ [hsByte stop] ++ toBytes 1 flags ++ toBytes 4 c.tick ++ toBytes 2 c.period
    ++ toBytes 1 ncmd ++ toBytes 1 aux ++ toBytes 4 (16 * (c.dlStart + c.regF (portReg n 2) 17 0))
    ++ toBytes 4 (c.reg (pstReg n 1)).toNat ++ toBytes 4 (16 * c.regF (portReg n 1) 17 0)
    ++ toBytes 1 (c.regF (portReg n 8) 7 0) ++ toBytes 1 kinds ++ [0, 0] ++ toBytes 4 (c.fbk.t0 % 1000000000)

/-- The downlink leaves the pin, with HS sampled from HUSK_STOP and FCRC over the frame as sent (R316). -/
def Chip.downlinkSend (c : Chip) (n : Nat) (stop : Bool) : Chip :=
  match (c.port n).payload with
  | none => c
  | some (ncmd, smsg, aux, bytes) =>
    if c.portState n = psOff then c
    else
      let f := c.downHeader n stop ncmd smsg aux ++ bytes
      c.modPort n fun p => { p with payload := none, sent := f ++ toBytes 4 (crc32c f) }

end Sys2Proof.Machine
end

