-- ==== Sys2Proof/Machine/Ring.lean ====
section
/-!
DEFINITION. The cascade ring (R333 to R352): paths and windows, the guard, frames, cycle data, cold start and
integration, synchronisation, mode changes and healing. Times are in 1/16 ns after t₀ unless a name says otherwise.
-/
namespace Sys2Proof.Machine

/-! ## Paths (R334, R335, R338) -/

/-- LD of a port: the mean of its last eight exchanges (R335). (Model: DEDUCED, log 53) -/
def meanOf (l : List Nat) : Nat := if l.isEmpty then 0 else l.foldl (· + ·) 0 / l.length
def Chip.ldOwn (c : Chip) (east : Bool) : Nat := meanOf (if east then c.ring.delaysE else c.ring.delaysW)
def staReg (s w : Nat) : Nat := 0x702000 + 16 * s + 4 * w
/-- LD of the link arriving at a port of station `s`: the own value, or what its header published. -/
def Chip.ldOf (c : Chip) (s : Nat) (east : Bool) : Nat :=
  if s = c.station then c.ldOwn east else if east then c.regF (staReg s 1) 15 0 else c.regF (staReg s 0) 15 0
/-- Whether a port of station `s` is looped. -/
def Chip.loopOf (c : Chip) (s : Nat) (east : Bool) : Bool :=
  if s = c.station then (if east then c.regB 0x700000 20 else c.regB 0x700000 19)
  else (tabGet (fun _ => 0) c.ring.links s).testBit (if east then 0 else 1)

/-- The neighbour of a station in a list of stations: the next higher by RING_E, the next lower by RING_W (R334). -/
def neighbour (l : List Nat) (s : Nat) (east : Bool) : Nat :=
  if east then match l.find? fun x => decide (x > s) with | some x => x | none => l.headD s
  else match l.reverse.find? fun x => decide (x < s) with | some x => x | none => l.getLastD s

/-- A passage of a copy: station, whether it arrives by RING_E, delay from the sender's pin. -/
structure Visit where
  at_   : Nat
  east  : Bool
  delay : Nat
  deriving DecidableEq, Repr

/-- The passages of a copy that has left station `x` by RING_E (`e`) or RING_W, sent by `s` by `e0` (R334, R337,
R351). `ld` and `loop` give the links and the loops of each station. The copy ends where it comes back to `s` by the port opposite
`e0`, a turn within `s` itself included. -/
def walk (l : List Nat) (ld : Nat → Bool → Nat) (loop : Nat → Bool → Bool) (s : Nat) (e0 : Bool) :
    (fuel : Nat) → (x : Nat) → (e : Bool) → (d : Nat) → List Visit
  | 0, _, _, _ => []
  | n + 1, x, e, d =>
    let y := neighbour l x e
    let d := d + ld y (!e)
    if y = s && e == e0 then []
    else
      let v : Visit := { at_ := y, east := !e, delay := d }
      if y = s && loop y e then [v]
      else if !loop y e then v :: walk l ld loop s e0 n y e (d + 1920)
      else if !loop y (!e) then v :: walk l ld loop s e0 n y (!e) (d + 1920)
      else [v]

/-- Every passage of the copies of a frame of station `s`, each with whether its copy is the primary one. The copy of a looped
port leaves by the other (R351). -/
def visits (l : List Nat) (ld : Nat → Bool → Nat) (loop : Nat → Bool → Bool) (s : Nat) : List (Bool × Visit) :=
  let one := fun (e : Bool) =>
    if !loop s e then (walk l ld loop s e 40 s e 0).map fun v => (e, v)
    else if !loop s (!e) then (walk l ld loop s e 40 s (!e) 0).map fun v => (e, v)
    else []
  one true ++ one false

/-- The passages at this station of a frame of `s` in the mode in use. -/
def Chip.visitsHere (c : Chip) (s : Nat) : List (Bool × Visit) :=
  (visits (c.stations c.crnMode) c.ldOf c.loopOf s).filter fun v => v.2.at_ == c.station

/-! ## Windows and the guard (R338, R339) -/

/-- The tick period in 1/16 ns. -/
def Chip.period16 (c : Chip) : Nat := c.period * 250
/-- RG in ns. -/
def Chip.rg (c : Chip) : Nat := c.regF 0x700004 23 16
/-- The signed distance of an arrival from its expectation, modulo the period. -/
def Chip.ringDiff (c : Chip) (t e : Nat) : Int :=
  let p := c.period16
  let d : Int := ((t : Int) - e) % p
  if 2 * d ≥ p then d - p else d

/-- A slot of the ring: a status slot of a station, or the data slot of a position. -/
inductive RingSlot where
  | status (s : Nat)
  | data (p : Nat)
  deriving DecidableEq, Repr

/-- Slots of a mode with their senders and start and length; a twin position's data slot has both twins. -/
def Chip.ringSlots (c : Chip) (i : Nat) : List (RingSlot × Nat × Nat × Nat) :=
  let st := c.stations i
  st.map (fun s => (RingSlot.status s, s, c.statSlot i s)) ++
  (st.filter fun s => (c.dataSlot i (s / 2)).2 != 0).map fun s => (RingSlot.data (s / 2), s, c.dataSlot i (s / 2))

/-- The windows at a port that hold an arrival: slot, sender, copy, distance and slot length. -/
def Chip.windowsAt (c : Chip) (east : Bool) (t : Nat) : List (RingSlot × Nat × Bool × Int × Nat) :=
  (c.ringSlots c.crnMode).flatMap fun x =>
    (c.visitsHere x.2.1).filterMap fun v =>
      let d := c.ringDiff t (16 * x.2.2.1 + v.2.delay)
      if v.2.east == east && decide (d.natAbs ≤ 16 * c.rg) then some (x.1, x.2.1, v.1, d, x.2.2.2) else none

/-- A frame cut or truncated here (R339); a SRC that is no station has no counter. -/
def Chip.ringCut (c : Chip) (s : Nat) (trunc : Bool) : Chip :=
  let c := if 16 ≤ s then c else if trunc then c.addSat (staReg s 3) 15 0 1 else c.addSat (staReg s 3) 31 16 1
  (c.crnStat 5).crnFire 102

/-- The time of TB0 after the last t₀, in 1/16 ns. -/
def Chip.ringNow (c : Chip) : Nat := c.tb0 / 2 ^ 12 - 16 * c.fbk.t0

/-- The port by which traffic for a port leaves: the port itself, or the other one where it is looped (R351). -/
def Chip.outPort (c : Chip) (east : Bool) : Option Bool :=
  if !c.loopOf c.station east then some east else if !c.loopOf c.station (!east) then some (!east) else none
/-- A frame that arrived by a port at `t` is forwarded with the fixed latency of 120 ns (R334, R351). -/
def Chip.ringForward (c : Chip) (east : Bool) (t : Nat) (b : List Byte) (whole : Bool) : Chip :=
  c.modRing fun r => { r with fwd := (c.outPort (!east)).map fun e => { east := e, start := t + 1920, bytes := b, whole := whole } }

/-- The windows at a port in which an own copy passes this station once more, before it is removed: for a frame of a slot that
starts at `start` ns (R337). -/
def Chip.ownPass (c : Chip) (start : Nat) (east : Bool) (t : Nat) : Option (Bool × Int) :=
  ((c.visitsHere c.station).filterMap fun v =>
    let d := c.ringDiff t (16 * start + v.2.delay)
    if v.2.east == east && decide (d.natAbs ≤ 16 * c.rg) then some (v.1, d) else none).head?
/-- Whether an own copy that left at the time its header names passes this station once more before it is removed: `t` is its arrival
after t₀ (R337). (Model: DEDUCED, log 59) -/
def Chip.ownCopy (c : Chip) (east : Bool) (t : Nat) (b : List Byte) : Bool :=
  let age : Int := (t : Int) + 16 * (c.fbk.t0 : Int) - 16 * ((leAt b 0x0C 4 + leAt b 0x10 4 * 1000000000 : Nat) : Int)
  (c.visitsHere c.station).any fun v => v.2.east == east && decide ((age - v.2.delay).natAbs ≤ 16 * c.rg)
/-- An own frame comes back: in a looped ring it is forwarded where its copy passes once more, and else removed (R337).
(Model: DEDUCED, log 59) -/
def Chip.ownFrame (c : Chip) (start : Nat) (east : Bool) (t : Nat) (b : List Byte) : Chip :=
  if (c.ownPass start east t).isSome then c.ringForward east t b true else c.modRing fun r => { r with fwd := none }

/-- A valid ring frame of a type: code blocks, FCRC and type (R336). -/
def ringFrameOk (type : Nat) (b : List Byte) (codeOk : Bool) : Bool :=
  let n := b.length - 8
  codeOk && decide (40 ≤ b.length) && b.length % 8 == 0 && leAt b 0 1 == type && decide (leAt b 1 1 < 16)
    && crc32c (b.take n) == leAt b n 4 && leAt b (n + 4) 4 == 0

/-- The bytes of a frame that a truncation lets pass: `room` is the time from its start in 1/1600 ns (R336, R339). -/
def passedBytes (room : Int) (b : List Byte) : List Byte := b.take (8 * ((room / 4096).toNat - 1))

/-- The guard of a forwarded frame (R339): what it lets pass, as copy and distance. The TYPE that the frame carries must
be that of its slot, and of the command. A second frame in a data slot is one of the same copy at the same port.
(Model: DEDUCED, log 59) -/
def Chip.ringGuard (c : Chip) (type : Nat) (east : Bool) (t : Nat) (b : List Byte) : Chip × Option (Bool × Int) :=
  let src := leAt b 1 1
  let cut := ((c.ringCut src false).ringForward east t [] false, none)
  match c.windowsAt east t with
  | [] => cut
  | ws =>
    let fits := fun (w : RingSlot × Nat × Bool × Int × Nat) => w.2.1 == src && leAt b 0 1 == type && match w.1 with
      | .status _ => type == 0x5A
      | .data _ => type == 0x5B
    match ws.find? fits with
    | none => cut
    | some (slot, _, prim, d, len) =>
      let blocks := b.length / 8 + 2
      let room : Int := 4096 * len + 1600 * c.rg - 100 * d
      if (4096 * blocks : Int) > room then ((c.ringCut src true).ringForward east t (passedBytes room b) false, none)
      else
        let pass := c.ringForward east t b true
        match slot with
        | .status _ => (pass, some (prim, d))
        | .data p =>
          if c.ring.dataSeen.contains (p, east, prim) then cut
          else (pass.modRing fun r => { r with dataSeen := (p, east, prim) :: r.dataSeen }, some (prim, d))

/-- A frame at a station that does not guard (R333, R337, R339): it passes, but through a station whose ring is off; an own frame is
removed where its copy does not pass this station once more. (Model: DEDUCED, log 59) -/
def Chip.passFrame (c : Chip) (east : Bool) (t : Nat) (b : List Byte) : Chip :=
  if c.rstate = rsOff then c
  else if leAt b 1 1 = c.station && !c.ownCopy east t b then c.modRing fun r => { r with fwd := none }
  else c.ringForward east t b true

/-! ## Mode validity (R340) -/

/-- Bytes of a workspace share (R341). -/
def Chip.shareBytes (c : Chip) : Nat :=
  let n := c.regF 0x50000C 27 16 - c.regF 0x50000C 11 0 + 1
  8 * ((139264 + 8 * n - 1) / (8 * n))
/-- XLEN of a position; 0 without XEN. -/
def Chip.xlen (c : Chip) (p : Nat) : Nat := if c.regB (0x700080 + 4 * p) 31 then c.regF (0x700080 + 4 * p) 14 0 else 0
/-- C of R341: stream bytes of a tick. -/
def Chip.tickBytes (c : Chip) (i p : Nat) : Nat := 8 * ((c.dataSlot i p).2 - 7)

/-- Two intervals, by start and length, are disjoint modulo `p`. -/
def disjointMod (p : Nat) (a b : Int × Nat) : Bool :=
  let d := (b.1 - a.1) % p
  decide ((a.2 : Int) ≤ d) && decide (d + b.2 ≤ p)

/-- An interval of R340: the number of its slot, its sender, start and length. -/
structure Interval where
  slot : Nat
  src  : Nat
  at_  : Int × Nat
  deriving DecidableEq, Repr

/-- Two intervals that need not be disjoint: those of the two twins in one data slot, and the copies that a looped port sends as one
frame. (Model: DEDUCED, log 53) -/
def Interval.together (x y : Interval) : Bool := x.slot == y.slot && (x.src != y.src || x.at_ == y.at_)
/-- Pairwise disjoint (R340). (Model: DEDUCED, log 53) -/
def windowsDisjoint (p : Nat) : List Interval → Bool
  | [] => true
  | x :: l => l.all (fun y => x.together y || disjointMod p x.at_ y.at_) && windowsDisjoint p l

/-- The intervals of a mode at one arrival port under given loops, in 1/400 ns. -/
def Chip.intervals (c : Chip) (i : Nat) (loop : Nat → Bool → Bool) (r : Nat) (east : Bool) : List Interval :=
  let st := c.stations i
  (c.ringSlots i).flatMap fun x =>
    let key := match x.1 with | .status s => s | .data p => 16 + p
    (visits st c.ldOf loop x.2.1).filterMap fun v =>
      if v.2.at_ == r && v.2.east == east then
        some { slot := key, src := x.2.1, at_ := (((400 * x.2.2.1 + 25 * v.2.delay : Nat) : Int) - 400 * c.rg, 1024 * x.2.2.2 + 800 * c.rg) }
      else none

/-- The loops of the ring whose link from `x` to its upper neighbour is broken; none intact. -/
def brokenLoops (st : List Nat) : Option Nat → Nat → Bool → Bool
  | none, _, _ => false
  | some x, s, true => s == x
  | some x, s, false => s == neighbour st x true

/-- Twin flash and mask flash intervals of a twin link with delay `ld`, in 1/400 ns, with the join slot of its position (R340).
(Model: DEDUCED, log 59) -/
def Chip.twinIntervals (c : Chip) (i p ld : Nat) : List Interval :=
  let rg := c.rg
  let j := c.joinSlot i p
  [{ slot := 100, src := 0, at_ := (((400 * c.regF 0x700004 10 0 : Nat) : Int) - 400 * rg, 60416 + 800 * rg) },
   { slot := 101, src := 0, at_ := (((400 * c.ulEnd : Nat) : Int) - 400 * rg, 4096 + 800 * rg) }] ++
  (if j.2 = 0 then [] else
    [{ slot := 102, src := 0, at_ := (((400 * j.1 + 25 * ld : Nat) : Int) - 400 * rg, 1024 * j.2 + 800 * rg) }])

/-- The stations known to be on the ring: the members of the last cycle, and those heard since. (Model: DEDUCED, log 53) -/
def Chip.onRing (c : Chip) : List Nat := (List.range 16).filter fun s =>
  c.ring.heard.contains s || s == c.station ||
    ((c.rstate == rsInteg || c.rstate == rsActive) && (c.regF 0x700018 15 0).testBit s)

/-- Whether a mode is valid at this station (R340). -/
def Chip.modeOk (c : Chip) (i : Nat) : Bool :=
  let st := c.stations i
  let p := 6250 * c.period
  let rings := (none :: st.map some).map (brokenLoops st)
  c.modeLoaded i && c.onRing.all (fun s => st.contains s)
    && rings.all (fun loop => st.all fun r => [true, false].all fun e =>
      let w := c.intervals i loop r e
      let twin := e == (r % 2 == 0) && st.contains (2 * (r / 2) + (1 - r % 2))
      windowsDisjoint p (if twin then w ++ c.twinIntervals i (r / 2) (c.ldOf r e) else w))
    && st.all fun s => decide (c.xlen (s / 2) + c.shareBytes ≤ c.ringCycle * c.tickBytes i (s / 2))

/-- The mode in use is checked after a change of the loops; the spec names no consequence of a failure (R340). (Model: DEDUCED, log 53) -/
def Chip.checkMode (c : Chip) : Chip := c.modRing fun r => { r with fits := c.modeOk c.crnMode }

/-! ## The configuration digest (R342) -/

/-- The words of a register range. -/
def Chip.wordsAt (c : Chip) (off n : Nat) : List Byte :=
  ((List.range n).map fun i => toBytes 4 (c.reg (off + 4 * i)).toNat).flatten

/-- CFGD (R342). (Model: DEDUCED, log 53) -/
def Chip.cfgd (c : Chip) : Nat :=
  crc32c (c.wordsAt 0x100 4 ++ c.wordsAt 0x500004 9 ++ c.wordsAt 0x500100 64 ++ c.wordsAt 0x502000 2048
    ++ c.wordsAt 0x504000 256 ++ toBytes 4 c.rg ++ toBytes 4 (c.regF 0x700004 10 0) ++ c.wordsAt 0x700080 8
    ++ c.wordsAt 0x701000 512)

/-! ## Sending (R336, R338, R341, R343) -/

/-- The LINK byte of the own headers (R336). -/
def Chip.ownLink (c : Chip) : Nat :=
  let s := c.reg 0x700000
  (bit s 20).toNat + 2 * (bit s 19).toNat + 4 * c.ring.okE.toNat + 8 * c.ring.okW.toNat
/-- The scheduled time of a frame at `t` ns after t₀ in TB0, in ns. -/
def Chip.slotTime (c : Chip) (t : Nat) : Nat := c.fbk.t0 + t

/-- The common header of a frame of this station whose scheduled time in TB0 is `now` (R336). Only an ACTIVE station answers a
mode request (R350). -/
def Chip.ringHeader (c : Chip) (type cd now offset : Nat) : List Byte :=
  let role := c.rstate + 16 * c.trole + 128 * c.isMaster.toNat
  let rq := match c.ring.request with
    | some (m, cy) => if c.isMaster && c.tick / c.ringCycle == cy then 128 + 16 * m else 0
    | none => 0
  let ack := match c.ring.request with
    | some (_, cy) => if c.rstate == rsActive && c.tick / c.ringCycle == cy + 1 then c.ring.answer else 0
    | none => 0
  toBytes 1 type ++ toBytes 1 c.station ++ toBytes 1 role ++ toBytes 1 (c.crnMode + rq) ++ toBytes 1 ack ++ toBytes 1 cd
    ++ toBytes 1 c.ownLink ++ [0] ++ toBytes 4 c.tick ++ toBytes 4 (now % 1000000000) ++ toBytes 4 (now / 1000000000)
    ++ toBytes 2 (c.ldOwn false) ++ toBytes 2 (c.ldOwn true) ++ toBytes 4 c.cfgd ++ toBytes 4 offset

/-- A frame with its FCRC block. -/
def ringFrame (b : List Byte) : List Byte := b ++ toBytes 4 (crc32c b) ++ [0, 0, 0, 0]
/-- A frame leaves by both ports, the copy of a looped port by the other one; two copies on one port are one frame (R334, R351).
LINKOK that its header shows counts for this cycle (R352). (Model: DEDUCED, log 59) -/
def Chip.ringSend (c : Chip) (b : List Byte) : Chip := c.modRing fun r => { r with
  sent := ((c.outPort true).toList ++ (c.outPort false).toList).eraseDups.map fun e => (e, ringFrame b)
  okSeen := tabPut (fun _ => 0) r.okSeen c.station (tabGet (fun _ => 0) r.okSeen c.station ||| c.ownLink) }
/-- Whether a port is the twin link's: X's RING_E, Y's RING_W (R334). (Model: DEDUCED, log 59) -/
def Chip.isTwinPort (c : Chip) (east : Bool) : Bool := c.paired && east == (c.twinT == 0)
/-- TLINK follows the link of the port that the straps make the twin link's, also before a mode shows a pair; each change fires 110
(R363, R364). (Model: DEDUCED, log 59) -/
def Chip.twinLink (c : Chip) (east up : Bool) : Chip :=
  if east == (c.twinT == 0) && c.regB 0x700020 27 != up then (c.setB 0x700020 27 up).crnFire 110 else c
/-- A frame of the twin link leaves by its port alone, and not while the port is looped (R336, R351). (Model: DEDUCED, log 59) -/
def Chip.twinSend (c : Chip) (b : List Byte) : Chip := c.modRing fun r =>
  { r with sent := if c.loopOf c.station (c.twinT == 0) then [] else [(c.twinT == 0, b)] }

/-- Offset of a position's set in the cell view, as an address. -/
def Chip.viewAddr (c : Chip) (p : Nat) : Nat := cellBase + c.regF 0x500020 22 0 + p * 0x22000
/-- Address of a half of a position's XDATA. (Model: DESIGN CHOICE, log 110) -/
def Chip.xdataAddr (c : Chip) (p : Nat) (half : Bool) : Nat :=
  cellBase + c.regF 0x700028 22 0 + p * 0x8000 + half.toNat * 0x4000
def Chip.xhalf (c : Chip) (p : Nat) : Bool := tabGet (fun _ => false) c.ring.xhalf p

/-- The ring cycle within the planning frame, and whether workspace shares are sent in it (R341). -/
def Chip.frameCycle (c : Chip) : Nat := c.tick % c.planFrame / c.ringCycle
def Chip.sendsShare (c : Chip) : Bool :=
  decide (c.regF 0x50000C 11 0 ≤ c.frameCycle) && decide (c.frameCycle ≤ c.regF 0x50000C 27 16)

/-- The stream of this cycle from byte `o` on, `n` bytes (R341). -/
def Chip.streamBytes (c : Chip) (o n : Nat) : List Byte :=
  let p := c.position
  let x := c.xlen p
  let sh := c.shareBytes
  let base := (c.frameCycle - c.regF 0x50000C 11 0) * sh
  let total := x + (if c.sendsShare then min sh (139264 - base) else 0)
  (List.range (min n (total - o))).map fun i =>
    if o + i < x then c.ring.xown.getD (o + i) 0 else c.engineByte (c.viewAddr p + base + (o + i - x))
/-- The workspace bytes among them meet the checks of their lines. -/
def Chip.streamMeets (c : Chip) (o n : Nat) : Chip :=
  let x := c.xlen c.position
  let sh := c.shareBytes
  let base := (c.frameCycle - c.regF 0x50000C 11 0) * sh
  let stop := x + (if c.sendsShare then min sh (139264 - base) else 0)
  let first := max o x
  let last := min (o + n) stop
  if first < last then c.engineMeets (c.viewAddr c.position + base + (first - x)) (last - first) else c

/-- An interval of a position's stream counts as received in this cycle. -/
def Chip.streamMark (c : Chip) (p o n : Nat) : Chip := c.modRing fun r => { r with
  stream := tabPut (fun _ => []) r.stream p ((o, n) :: tabGet (fun _ => []) r.stream p) }

/-- An interval of a position's stream arrived (R342): XDATA to the inactive half, set bytes to the set. -/
def Chip.streamArrived (c : Chip) (p o : Nat) (bs : List Byte) : Chip :=
  let x := c.xlen p
  let nx := min bs.length (x - o)
  let c := if nx = 0 then c else c.engineStore (c.xdataAddr p (!c.xhalf p) + o) (bs.take nx)
  let rest := bs.drop nx
  let so := (c.frameCycle - c.regF 0x50000C 11 0) * c.shareBytes + (o + nx - x)
  let keep := if c.sendsShare then rest.take (139264 - so) else []
  let c := if keep.isEmpty then c else c.engineStore (c.viewAddr p + so) keep
  (c.streamMark p o bs.length).modRing fun r => { r with
    wsGot := if keep.isEmpty then r.wsGot
      else tabPut (fun _ => []) r.wsGot p ((so, keep.length) :: tabGet (fun _ => []) r.wsGot p) }

/-- A received interval: a joiner logs it, and while it replays leaves its bytes to the replay (R360). -/
def Chip.streamTaken (c : Chip) (p o : Nat) (bs : List Byte) : Chip :=
  let c := if c.twin.joining then c.modTwin fun t => { t with gotRing := t.gotRing ++ [(p, o, bs)] } else c
  if c.twin.replay.isSome then c.streamMark p o bs.length else c.streamArrived p o bs

/-- What a station sends at a slot start (R338): 0 status, 1 data, 2 join, and nothing before its first tick has a t₀. The join frame's
bytes are the image's, from T_c on until it has left (R360). -/
def Chip.slotSend (c : Chip) (kind : Nat) (image : List Byte) : Chip :=
  let i := c.crnMode
  let p := c.position
  if !c.ticking || c.nextTick.isSome then c
  else if kind = 0 then
    if c.rstate == rsInteg || c.rstate == rsActive then
      c.ringSend (c.ringHeader 0x5A 0 (c.slotTime (c.statSlot i c.station).1) 0)
    else c
  else if kind = 1 then
    if c.rstate == rsActive && c.ownsPosition && (c.dataSlot i p).2 != 0 then
      let n := c.tickBytes i p
      let o := c.tick % c.ringCycle * n
      let bs := c.streamBytes o n
      let c := (c.streamMeets o n).streamArrived p o bs
      c.ringSend (c.ringHeader 0x5B 0 (c.slotTime (c.dataSlot i p).1) o ++ bs)
    else c
  else if c.rstate == rsActive && c.paired && c.owner && c.twin.pflags.testBit 6 && (c.joinSlot i p).2 != 0
      && decide (c.twin.imageAt < image.length) then
    let n := 8 * ((c.joinSlot i p).2 - 7)
    let bs := (image.drop c.twin.imageAt).take n
    (c.twinSend (ringFrame (c.ringHeader 0x5D 0 (c.slotTime (c.joinSlot i p).1) c.twin.imageAt ++ bs ++ List.replicate ((8 - bs.length % 8) % 8) 0))).modTwin fun t =>
      { t with imageAt := t.imageAt + bs.length }
  else c

/-! ## Receiving (R337, R339, R347) -/

/-- A valid header is accepted: what CRN_STA shows, the LINK byte, the listen timer (R336, R344, R352, R364). -/
def Chip.headerSeen (c : Chip) (b : List Byte) : Chip :=
  let s := leAt b 1 1
  let c := ((c.setF (staReg s 0) 31 28 (leAt b 2 1 % 16)).setF (staReg s 0) 15 0 (leAt b 0x14 2)).setF (staReg s 1) 15 0
    (leAt b 0x16 2)
  c.modRing fun r => { r with
    shown := tabPut (fun _ => 0) r.shown s (leAt b 6 1)
    okSeen := tabPut (fun _ => 0) r.okSeen s (tabGet (fun _ => 0) r.okSeen s ||| leAt b 6 1)
    listenFrom := c.tb3 }
/-- The header of an accepted status frame also counts for the membership and as a heartbeat of the partner (R349, R357). -/
def Chip.headerTaken (c : Chip) (b : List Byte) : Chip :=
  let s := leAt b 1 1
  let c := (c.headerSeen b).modRing fun r => { r with heard := if r.heard.contains s then r.heard else s :: r.heard }
  if s = c.partner then c.modTwin fun t => { t with hbNow := true } else c

/-- A cold starter that watches its ports hears a frame that is corrupted (R344). -/
def Chip.coldHears (c : Chip) (ok : Bool) : Chip :=
  if c.rstate == rsSend && c.ring.watching && !ok then c.modRing fun r => { r with collided := true } else c

/-- Requests and answers of the mode change in an accepted status frame (R350). A station that hears an answer to a request it has
missed answers NAK. (Model: DEDUCED, log 53) -/
def Chip.modeFields (c : Chip) (b : List Byte) : Chip :=
  let m := leAt b 3 1
  let s := leAt b 1 1
  let cy := c.tick / c.ringCycle
  let ack := leAt b 4 1
  let c := if leAt b 2 1 ≥ 128 && m ≥ 128 && c.ring.request.isNone then
      c.modRing fun r => { r with request := some (m / 16 % 8, cy) }
    else if ack != 0 && c.ring.request.isNone && decide (0 < cy) then
      c.modRing fun r => { r with request := some (c.crnMode, cy - 1), answer := 2 }
    else c
  if ack = 1 then c.modRing fun r => { r with acked := s :: r.acked }
  else if ack = 2 then c.modRing fun r => { r with naked := true } else c

/-- o_s of the cycle's last tick: the primary copy prevails (R347). -/
def Chip.takeOffset (c : Chip) (s : Nat) (prim : Bool) (d : Int) : Chip :=
  if (c.tick + 1) % c.ringCycle != 0 then c
  else match tabGet (fun _ => none) c.ring.offs s with
    | some (_, true) => c
    | some (_, false) => if prim then c.modRing fun r => { r with offs := tabPut (fun _ => none) r.offs s (some (d, prim)) } else c
    | none => c.modRing fun r => { r with offs := tabPut (fun _ => none) r.offs s (some (d, prim)) }

/-- TXT of a header, in ns. -/
def txtNs (b : List Byte) : Nat := leAt b 0x0C 4 + leAt b 0x10 4 * 1000000000

/-- The delay of the path by which a frame of station `s` reached this station by a port (R345). -/
def Chip.pathDelay (c : Chip) (i s : Nat) (east : Bool) : Nat :=
  match ((visits (c.stations i) c.ldOf c.loopOf s).filter fun v => v.2.at_ == c.station && v.2.east == east).head? with
  | some v => v.2.delay
  | none => 0

/-- TB0 takes the time of the arriving frame (R345). -/
def Chip.adoptTime (c : Chip) (b : List Byte) (delay : Nat) : Chip :=
  c.setBase 0 { c.base 0 with val := txtNs b * 2 ^ 44 + delay * 2 ^ 40 }

/-- The module's ticks start at number `n`. (Model: DEDUCED, log 53) -/
def Chip.startTicks (c : Chip) (n : Nat) : Chip := { c with nextTick := some n, ticking := true }

/-- Module that has run ticks: a frame's tick number must be its own and its time less than 2 µs away, or it stays in LISTEN
until it is reset; a time more than RG / 4 away is slewed in (R345 item 3). (Model: DEDUCED, log 53) -/
def Chip.compareTime (c : Chip) (b : List Byte) (d : Nat) : Chip :=
  let off : Int := (txtNs b * 2 ^ 44 + d * 2 ^ 40 : Nat) - (c.base 0).val
  if leAt b 8 4 != c.tick % 2 ^ 32 || decide (off.natAbs ≥ 2000 * 2 ^ 44) then
    (c.crnStat 11).modRing fun r => { r with mm := true }
  else if 4 * off.natAbs ≤ c.rg * 2 ^ 44 then c.modRing fun r => { r with adopting := false }
  else
    { c.modRing (fun r => { r with adopting := true }) with
      tim := { c.tim with ringLeft := off, ringStep := 2 ^ 44 * 500 / 1000000 } }

/-- A station in LISTEN has heard a full ring cycle of headers and now one of the master (R345). The header carries bits [31:0] of
the tick number alone: the upper bits of an adopted number are 0. (Model: DEDUCED, log 53) -/
def Chip.integrate (c : Chip) (b : List Byte) (east : Bool) : Chip :=
  let i := leAt b 3 1 % 8
  let c1 := c.setMode i
  let d := c1.pathDelay i (leAt b 1 1) east
  if leAt b 0x18 4 != c.cfgd then (c.setRstate rsCfgMm).crnStat 3
  else if !c1.modeOk i then c.crnStat 3
  else if !c.ticked then (((c1.adoptTime b d).startTicks (leAt b 8 4 + 1)).setRstate rsInteg).checkMode
  else
    let c2 := c1.compareTime b d
    if c2.ring.mm || c2.ring.adopting then c2
    else ((if c2.ticking then c2 else c2.startTicks (c2.tick + 1)).setRstate rsInteg).checkMode

/-- A header reaches a station in LISTEN: the tick numbers of a full cycle are counted modulo 2^32 (R336, R345); one kept there by a tick mismatch does not integrate.
(Model: DEDUCED, log 53) -/
def Chip.listenHeader (c : Chip) (b : List Byte) (east : Bool) : Chip :=
  let t := leAt b 8 4
  if c.ring.mm then c
  else match c.ring.firstHeard with
  | none => c.modRing fun r => { r with firstHeard := some t }
  | some f => if leAt b 2 1 ≥ 128 && decide ((t + 2 ^ 32 - f) % 2 ^ 32 ≥ c.ringCycle) then c.integrate b east else c

/-- A status frame arrives (R334, R337, R339, R345, R347). -/
def Chip.statusFrame (c : Chip) (east : Bool) (t : Nat) (b : List Byte) (codeOk : Bool) : Chip :=
  let ok := ringFrameOk 0x5A b codeOk && b.length == 40
  if c.rstate == rsInteg || c.rstate == rsActive then
    if leAt b 1 1 == c.station then c.ownFrame (c.statSlot c.crnMode c.station).1 east t b
    else
      let g := c.ringGuard 0x5A east t b
      match g.2 with
      | none => g.1
      | some (prim, d) =>
        if ok then ((g.1.headerTaken b).modeFields b).takeOffset (leAt b 1 1) prim d else g.1
  else
    let c := (c.passFrame east t b).coldHears ok
    if c.rstate == rsListen && ok then (c.headerTaken b).listenHeader b east else c

/-- A data frame arrives (R334, R337, R339, R342). -/
def Chip.dataFrame (c : Chip) (east : Bool) (t : Nat) (b : List Byte) (codeOk : Bool) : Chip :=
  let ok := ringFrameOk 0x5B b codeOk
  if c.rstate == rsInteg || c.rstate == rsActive then
    if leAt b 1 1 == c.station then c.ownFrame (c.dataSlot c.crnMode c.position).1 east t b
    else
      let g := c.ringGuard 0x5B east t b
      match g.2 with
      | none => g.1
      | some _ =>
        let p := leAt b 1 1 / 2
        if !ok then g.1
        else
          let n := b.length - 40
          let o := leAt b 0x1C 4
          let c := g.1.headerSeen b
          if (tabGet (fun _ => []) c.ring.stream p).contains (o, n) then c
          else c.streamTaken p o ((b.drop 32).take n)
  else
    let c := (c.passFrame east t b).coldHears ok
    if c.rstate == rsListen && ok then (c.headerSeen b).listenHeader b east else c

/-- A cold-start frame of another station is heard in LISTEN (R345). -/
def Chip.coldAdopt (c : Chip) (east : Bool) (b : List Byte) : Chip :=
  let cd := leAt b 5 1
  let next := match c.ring.awaiting with | some k => cd + 1 == k || cd == k | none => true
  if c.ring.mm then c
  else if leAt b 0x18 4 != c.cfgd then (c.setRstate rsCfgMm).crnStat 3
  else if !next then c.modRing fun r => { r with awaiting := none }
  else
    let i := leAt b 3 1 % 8
    let c1 := c.setMode i
    let d := c1.pathDelay i (leAt b 1 1) east
    if !c1.modeOk i then c.crnStat 3
    else
      let c2 := if c.ticked then c1.compareTime b d else c1.adoptTime b d
      if c2.ring.mm then c2 else c2.modRing fun r => { r with awaiting := some cd, coldSeen := true }

/-- A cold-start frame arrives (R339, R344, R345). -/
def Chip.coldStartFrame (c : Chip) (east : Bool) (t : Nat) (b : List Byte) (codeOk : Bool) : Chip :=
  let ok := ringFrameOk 0x5C b codeOk && b.length == 40
  if c.rstate == rsInteg || c.rstate == rsActive then (c.ringCut (leAt b 1 1) false).ringForward east t [] false
  else
    let c := c.passFrame east t b
    if c.rstate == rsSend && c.ring.watching then
      if ok && leAt b 1 1 == c.station then c.modRing fun r => { r with returned := true }
      else c.modRing fun r => { r with collided := true }
    else if c.rstate == rsListen && ok then (c.headerTaken b).coldAdopt east b
    else c

/-! ## Cold start (R344) -/

def Chip.listenStart (c : Chip) : Chip := (c.setRstate rsListen).modRing fun r =>
  { r with listenFrom := c.tb3, firstHeard := none, awaiting := none, coldSeen := false, adopting := false, heard := [],
           countdown := none, watching := false }

/-- The listen timer of a position-0 station expires. -/
def Chip.listenTimeout (c : Chip) : Chip :=
  let due := c.ring.listenFrom + (c.regF 0x700008 31 16 + c.station * c.regF 0x700008 15 0) * 1000
  if c.rstate == rsListen && c.position == 0 && !c.ring.mm && decide (due ≤ c.tb3) then
    (c.setRstate rsSend).modRing fun r => { r with countdown := some 3 }
  else c

/-- One cold-start frame leaves, and the watch of both ports begins; its time is the present one. -/
def Chip.coldSend (c : Chip) : Chip := match c.ring.countdown with
  | some k =>
    if c.rstate == rsSend then
      (c.ringSend (c.ringHeader 0x5C k c.tb0Ns 0)).modRing fun r => { r with returned := false, collided := false, watching := true }
    else c
  | none => c

/-- The watch after a cold-start frame ends: a collision returns the station to LISTEN. -/
def Chip.coldWatchEnd (c : Chip) : Chip :=
  if c.rstate != rsSend || !c.ring.watching then c
  else if c.ring.collided || !c.ring.returned then c.listenStart
  else c.modRing fun r => { r with watching := false, countdown := match r.countdown with | some (k + 1) => some k | _ => none }

/-- The owner copies its XDATA at the start of a cycle, whose stream begins (R341). -/
def Chip.copyStream (c : Chip) : Chip :=
  let w := c.reg (0x700080 + 4 * c.position)
  let r : Chip × List Byte := if !bit w 31 then (c, []) else match c.publishedHalf (fld w 23 16) with
    | some (o, _) => (c.engineMeets (cellBase + o) (fld w 14 0), c.engineBytes (cellBase + o) (fld w 14 0))
    | none => (c, [])
  r.1.modRing fun x => { x with xown := r.2, stream := [] }
/-- A new ring cycle of the live ring: its offsets and the stations heard in it begin too. -/
def Chip.copyXdata (c : Chip) : Chip := (c.copyStream).modRing fun r => { r with offs := [], heard := [] }

/-- The cycle with CD 0 has passed: the next cycle starts with tick 0 in ACTIVE (R9, R344). -/
def Chip.coldDone (c : Chip) : Chip :=
  if c.ring.countdown.isNone && !c.ring.watching then (((c.startTicks 0).setRstate rsActive).copyXdata).checkMode else c

/-! ## The end of a ring cycle (R342, R347 to R350, R352) -/

/-- Whether intervals cover [0, n). -/
def covered (l : List (Nat × Nat)) : (fuel : Nat) → (at_ n : Nat) → Bool
  | 0, a, n => decide (n ≤ a)
  | k + 1, a, n => decide (n ≤ a) || match l.find? fun x => decide (x.1 ≤ a) && decide (a < x.1 + x.2) with
    | some x => covered l k (x.1 + x.2) n
    | none => false
def coversAll (l : List (Nat × Nat)) (n : Nat) : Bool := covered l (l.length + 1) 0 n

/-- m of R347, from the offsets of the other stations. -/
def ringMid (l : List Int) : Int :=
  let v := (0 :: l).foldl (fun acc a => acc.takeWhile (fun b => decide (b ≤ a)) ++ a :: acc.dropWhile (fun b => decide (b ≤ a))) []
  let n := v.length
  let k := if n ≤ 2 then 0 else if n ≤ 7 then 1 else 2
  (v.getD k 0 + v.getD (n - 1 - k) 0) / 2

/-- The correction of TB0 and its rate (R348). A rounding that the formula leaves open is free.
(Model: DESIGN CHOICE, log 13; DESIGN CHOICE, log 54) -/
def Chip.ringCorrect (c : Chip) (m : Int) : Chip :=
  let cyc := 125 * c.ringCycle * c.period
  let left : Int := -m * 2 ^ 40
  let step := ((8 * left.natAbs + cyc - 1) / cyc : Nat)
  let r := c.draw
  let num := -m * 2 ^ 32
  let den : Int := 8 * cyc
  let q := num / den + (if num % den = 0 then 0 else (r.1.toNat % 2 : Nat))
  let rho := clampI (-429496) 429496 (signed 32 (r.2.reg 0x700014).toNat + q)
  let c := (r.2.setReg 0x700010 (BitVec.ofInt 32 m)).setReg 0x700014 (BitVec.ofInt 32 rho)
  { c with tim := { c.tim with ringLeft := left, ringStep := (step : Int) } }

/-- An ACTIVE station excludes itself (R349). -/
def Chip.exclude (c : Chip) : Chip :=
  let c := ((c.setRstate rsExcluded).crnStat 4).crnFire 98
  if c.paired then ((c.dropOwner).setElig false).modTwin fun t => { t with want := none, swap := false } else c

/-- Membership of the cycle (R349, R364). -/
def Chip.settleMembers (c : Chip) : Chip :=
  let now := (List.range 16).foldl (fun a s => if c.ring.heard.contains s || s == c.station then a + 2 ^ s else a) 0
  let old := c.regF 0x700018 15 0
  let c := forN 16 (fun s c => c.setB (staReg s 0) 27 (now.testBit s)) (c.setF 0x700018 15 0 now)
  if now != old then c.crnFire 97 else c

/-- Synchronisation at the end of a cycle: m, the correction, and the ring state that follows (R345, R348, R349). -/
def Chip.ringSync (c : Chip) : Chip :=
  let os := c.ring.offs.filterMap fun e => e.2.map fun x => (e.1, x.1)
  let m := ringMid (os.map (·.2))
  let c := forL os (fun e c => c.setReg (staReg e.1 2) (BitVec.ofInt 32 e.2)) c
  let prev := (List.range 16).filter fun s => (c.regF 0x700018 15 0).testBit s
  let few := decide (2 * (prev.filter fun s => c.ring.heard.contains s || s == c.station).length < prev.length)
  let c := c.ringCorrect m
  let rho := signed 32 (c.reg 0x700014).toNat
  let big := decide (m.natAbs > 8 * c.rg)
  let mid := decide (m.natAbs > 4 * c.rg)
  let far := if big then c.ring.far + 1 else 0
  let near := if mid then 0 else c.ring.near + 1
  let inState := c.ring.inState + 1
  let c := c.modRing fun r => { r with far := far, near := near, inState := inState }
  if c.rstate == rsActive then
    if far ≥ 2 || (mid && rho.natAbs == 429496) || few then c.exclude else c
  else if near ≥ 2 then c.setRstate rsActive
  else if inState ≥ 8 then c.listenStart else c

/-- XDATA of the cycle: the halves change when all of it arrived (R342). A replay settles its own cycles. -/
def Chip.settleXdata (c : Chip) : Chip :=
  if c.twin.replay.isSome then c
  else forN 8 (fun p c =>
    if !c.regB (0x700080 + 4 * p) 31 then c
    else if coversAll (tabGet (fun _ => []) c.ring.stream p) (c.xlen p) then
      c.modRing fun r => { r with xhalf := tabPut (fun _ => false) r.xhalf p (!c.xhalf p) }
    else (c.crnStat 10).crnFire 103) c

/-- The mode request at the end of cycle `cy` (R350). -/
def Chip.settleMode (c : Chip) (cy : Nat) : Chip :=
  match c.ring.request with
  | none => c
  | some (m, k) =>
    if cy = k then c.modRing fun r => { r with answer := if c.modeOk m then 1 else 2, acked := [], naked := false }
    else if cy = k + 1 then
      let members := (List.range 16).filter fun s => (c.regF 0x700018 15 0).testBit s
      let all := members.all (fun s => if s = c.station then c.ring.answer == 1 else c.ring.acked.contains s)
      let c1 := c.dropRequest
      if all && !c.ring.naked && c.ring.answer != 2 then
        (c1.setMode m).checkMode
      else if c.isMaster then (c1.crnStat 6).crnFire 100 else c1
    else c

/-- Whether both ends of the link at a port of station `s` showed LINKOK in this cycle. -/
def Chip.linkShown (c : Chip) (s : Nat) (east : Bool) : Bool :=
  let ok := fun (x : Nat) (e : Bool) => (tabGet (fun _ => 0) c.ring.okSeen x).testBit (if e then 2 else 3)
  ok s east && ok (neighbour (c.stations c.crnMode) s east) (!east)
/-- A port of a station unloops where both ends showed LINKOK: the own port, or in this station's view (R352). -/
def Chip.unloop (c : Chip) (s : Nat) (east : Bool) : Chip :=
  if !c.loopOf s east || !c.linkShown s east then c
  else if s = c.station then (c.setB 0x700000 (if east then 20 else 19) false).crnFire 101
  else
    let clear := fun (l : Tab Nat) =>
      let v := tabGet (fun _ => 0) l s
      let k := if east then 0 else 1
      tabPut (fun _ => 0) l s (if v.testBit k then v - 2 ^ k else v)
    c.modRing fun r => { r with links := clear r.links, shown := clear r.shown }
/-- At a ring-cycle boundary every link whose ends both showed LINKOK in the cycle returns to intact windows (R352). -/
def Chip.settleLoops (c : Chip) : Chip :=
  let d := forL (c.stations c.crnMode) (fun s c => (c.unloop s true).unloop s false) c
  (d.modRing fun r => { r with okSeen := [] }).checkMode
/-- At a tick boundary the loops that accepted headers have shown come into force for the windows (R352). -/
def Chip.linksTick (c : Chip) : Chip :=
  if c.ring.shown = c.ring.links then c else (c.modRing fun r => { r with links := r.shown }).checkMode

/-- The end of the ring cycle before tick `tick + 1` (R347). Ownership that changes at the boundary follows in the
twin's part. -/
def Chip.ringCycleEnd (c : Chip) : Chip :=
  if c.rstate == rsInteg || c.rstate == rsActive then
    let c := (c.settleXdata).ringSync
    let c := (c.settleMembers).settleMode (c.tick / c.ringCycle)
    (c.settleLoops).copyXdata
  else if c.rstate == rsExcluded then (c.modRing fun r => { r with inState := r.inState + 1, heard := [] })
  else if c.rstate == rsSend then c.coldDone
  else if c.rstate == rsListen then
    match c.ring.awaiting with
    | none => c
    | some k =>
      if !c.ring.coldSeen || (k = 0 && c.ring.adopting) then c.listenStart
      else if k = 0 then
        (((c.startTicks 0).setRstate rsInteg).modRing fun r => { r with awaiting := none, coldSeen := false, heard := [] }).checkMode
      else c.modRing fun r => { r with coldSeen := false }
  else c

/-- After 8 ring cycles an excluded station listens again (R343). -/
def Chip.exclusionEnd (c : Chip) : Chip :=
  if c.rstate == rsExcluded && decide (c.ring.inState ≥ 8) then c.listenStart else c

/-! ## Peer delay and healing (R335, R351, R352) -/

def Chip.peerDelay (c : Chip) (east : Bool) (d : Nat) : Chip :=
  c.modRing fun r => if east then { r with delaysE := (d :: r.delaysE).take 8 } else { r with delaysW := (d :: r.delaysW).take 8 }

/-- A port detects a fault and loops (R351). -/
def Chip.portFault (c : Chip) (east : Bool) : Chip :=
  let c := c.modRing fun r => if east then { r with okE := false } else { r with okW := false }
  let c := c.twinLink east false
  if c.loopOf c.station east || !c.ringEn then c else ((c.setB 0x700000 (if east then 20 else 19) true).crnFire 101).checkMode

/-- A link has been error-free for 1 ms (R352). -/
def Chip.linkOk (c : Chip) (east : Bool) : Chip :=
  (c.modRing fun r => if east then { r with okE := true } else { r with okW := true }).twinLink east true

/-! ## Writes and checks (R344, R350, R364) -/

/-- A write of CRN_MODEREQ (R350). -/
def Chip.modeReqWrite (c : Chip) (v : W32) : Chip :=
  let m := fld v 2 0
  if c.ring.request.isSome || !c.modeLoaded m || !c.isMaster then c.crnIgn
  else (c.setB 0x70000C 31 true).modRing fun r => { r with request := some (m, c.tick / c.ringCycle + 1) }

/-- The CRN block's checks on leaving CONFIG: LT_STEP against the ring cycle (R344), the twin flash against U_end and
the filters of the local channels (R354), TW1 of at least 300 ns (R398), the XDATA view and its lengths (R342, R364). -/
def Chip.crnLeave (c : Chip) : Chip × Bool :=
  let tw1 := c.regF 0x700004 10 0
  let cyc := c.ringCycle * c.period * 1000 / 64
  let step := decide (c.regF 0x700008 15 0 * 1000 ≥ cyc + 5000)
  let filt := (List.range 16).all fun n => !c.regB (lchReg n 0) 31 ||
    decide (c.regF (lchReg n 0) 7 0 * 625 + 5000 ≤ tw1 * 100)
  let ld := if c.isTwinPort true then c.ldOwn true else c.ldOwn false
  let flash := decide (tw1 * 1600 + 241664 + 100 * ld + 80000 ≤ c.ulEnd * 1600)
  let twin := !c.paired || (filt && flash && decide (300 ≤ tw1))
  if !c.ringEn || (step && twin) then (c, true) else (c.crnStat 1, false)

/-- A write to a word of the CRN block but CRN_TWIN. -/
def Chip.crnRegWrite (c : Chip) (x : Nat) (v : W32) : Chip :=
  if x = 0 then c.mapWrite 0x700000 v
  else if x = 0xC then c.modeReqWrite v
  else if x = 4 then
    let c := c.setB 0x700004 30 (bit v 30)
    let old := c.reg 0x700004
    if !c.inConfig then (if (old &&& 0x80FF07FF#32) != (v &&& 0x80FF07FF#32) then c.crnIgn else c)
    else
      let bad := decide (fld v 23 16 < 8) || decide (fld v 23 16 > 200)
      let w := if bad then setFld v 23 16 (fld old 23 16) else v
      (if bad then c.crnIgn else c).mapWrite 0x700004 w
  else if 0x2000 ≤ x then c
  else if !c.inConfig then (match regDesc (0x700000 + x) with
    | some d => if d.rw = 0 then c else c.crnIgn
    | none => c)
  else if 0x1000 ≤ x && decide (64 ≤ x % 256) && decide (x % 256 < 128) then
    if fld v 13 0 = 7 ∨ fld v 13 0 = 0 then c.setReg (0x700000 + x) v
    else (c.setF (0x700000 + x) 31 14 (fld v 31 14)).crnIgn
  else c.mapWrite (0x700000 + x) v

/-- The words of the CRN block that the model derives: TROLE and MASTER of CRN_STAT. -/
def Chip.crnView (c : Chip) (x : Nat) (w : W32) : W32 :=
  if x = 0 then setBit (setFld w 27 25 c.trole) 24 c.isMaster else w

end Sys2Proof.Machine
end

