-- ==== Sys2Proof/Machine/Twin.lean ====
section
/-!
DEFINITION. The twin pair (R353 to R359): flashes, the owner's input record, output digests, ownership and its return.
-/
namespace Sys2Proof.Machine

/-! ## Digest and flashes (R354, R355) -/

/-- The output digest of the current tick (R355). `smsg` gives the safety message formed for a port, empty for none. -/
def Chip.outputDigest (c : Chip) (smsg : Nat → List Byte) : Nat :=
  crc32c (toBytes 8 c.tick ++ c.wordsAt 0x234000 512 ++ c.wordsAt 0x33C800 128
    ++ ((List.range 32).map fun n => if (smsg n).isEmpty then List.replicate 32 0 else smsg n).flatten
    ++ ((List.range 32).map fun n => c.trailer n).flatten)

/-- TFLAGS of the own flash. -/
def Chip.tflags (c : Chip) : Nat :=
  let t := c.twin
  c.owner.toNat + 2 * c.eligible.toNat + 4 * t.fault.toNat + 8 * t.stfPrev.toNat + 16 * t.retq.toNat + 32 * t.reta.toNat
    + 64 * t.joining.toNat + 128 * t.mm.toNat

/-- The LCH entry of a local channel (R354): ZRAW and ET are those of the last Z or Hall edge. Where a Hall edge and a Z edge of a
tick meet in mode 2, ZRAW is the Hall edge's. (Model: DEDUCED, log 55) -/
def Chip.lchEntry (c : Chip) (n : Nat) : List Byte :=
  let l := c.lch n
  let comb := c.lchMode n == 2
  let hedge := !l.hallTick.isEmpty && (comb || c.lchMode n == 1)
  let zedge := !l.zTick.isEmpty
  let useHall := hedge || (!zedge && decide (l.zAt < l.hallAt))
  let raw := if useHall && comb then l.hallRaw else l.zRaw
  let at_ := if useHall then l.hallAt else l.zAt
  let et : Int := if at_ = 0 then 0 else (at_ : Int) - c.fbk.prevT0
  let st := match l.sectorTick with | 0 => 1 | 1 => 3 | 2 => 2 | 3 => 6 | 4 => 4 | _ => 5
  let flg := l.errTick.toNat + 2 * hedge.toNat + 4 * zedge.toNat + 16 * st
  toBytes 8 (wrapN 64 l.countTick) ++ toBytes 8 (wrapN 64 raw) ++ toBytes 4 (wrapN 32 et) ++ toBytes 4 flg

/-- The twin input flash of this tick; `sseq` is the SEQ of the safety messages placed in the previous ring cycle. -/
def Chip.twinFlash (c : Chip) (sseq : Nat) : List Byte :=
  c.ringHeader 0x5E 0 (c.slotTime (c.regF 0x700004 10 0)) 0 ++ toBytes 2 c.twin.hb ++ toBytes 2 c.tflags
    ++ toBytes 4 c.twin.ownTick ++ toBytes 4 (wrapN 32 ((c.tick : Int) - 1)) ++ toBytes 4 c.twin.digest
    ++ toBytes 4 sseq ++ toBytes 4 (c.reg 0xD00024).toNat ++ List.replicate 8 0
    ++ ((List.range 16).map c.lchEntry).flatten

/-- Whether flashes are sent: a paired ACTIVE station that runs ticks (R343, R349, R354). -/
def Chip.flashing (c : Chip) : Bool := c.paired && c.ticking && c.rstate == rsActive

def Chip.flashSend (c : Chip) (sseq : Nat) : Chip := if c.flashing then c.twinSend (ringFrame (c.twinFlash sseq)) else c

/-- The mask flash (R354). -/
def Chip.maskFlashSend (c : Chip) : Chip :=
  if c.flashing then
    let b := toBytes 1 0x5F ++ toBytes 1 c.station ++ toBytes 2 c.tick ++ toBytes 4 (c.reg 0x60000C).toNat
    c.twinSend (b ++ toBytes 4 (crc32c b) ++ [0, 0, 0, 0])
  else c

/-! ## Ownership (R353, R356, R357) -/

/-- Ownership is to change at the next tick boundary. (Model: DEDUCED, log 55) -/
def Chip.wantOwner (c : Chip) (b : Bool) : Chip := c.modTwin fun t => { t with want := some b }

/-- A twin loses eligibility. -/
def Chip.ineligible (c : Chip) : Chip := c.setElig false

/-- A twin yields at once and becomes ineligible. (Model: DEDUCED, log 55) -/
def Chip.yieldNow (c : Chip) : Chip := ((c.dropOwner).setElig false).modTwin fun t => { t with want := none }

/-- A digest mismatch (R356). (Model: DEDUCED, log 55) -/
def Chip.digestMismatch (c : Chip) (partnerStf : Bool) : Chip :=
  let mine := c.twin.stfPrev
  let c := ((c.modTwin fun t => { t with mm := true }).crnStat 8).crnFire 105
  if mine && !partnerStf then
    if c.owner then (c.modTwin fun t => { t with fault := true }).wantOwner false else c.ineligible
  else if !mine && partnerStf then
    if !c.owner && c.eligible then c.wantOwner true else c
  else
    let c := c.setB 0x700020 31 true
    if c.owner then c else c.ineligible

/-- A valid LCH entry of the owner stands in place of the own reading of a channel (R354); of the Z edges of a tick only
the last counts. The entry names no direction of a Hall edge: it is that of the raw count, or in mode 2 of the Hall
state, since the previous tick. (Model: DEDUCED, log 55) -/
def Chip.useLchEntry (c : Chip) (n : Nat) (e : List Byte) : Chip :=
  let raw := signed 64 (leAt e 0 8)
  let zraw := signed 64 (leAt e 8 8)
  let et := signed 32 (leAt e 16 4)
  let flg := leAt e 20 4
  let s := (hallSector (flg / 16 % 8)).getD 0
  let prev := tabGet (fun _ => ((0 : Int), 0)) c.twin.lchPrev n
  let fwd := if c.lchMode n = 1 then decide (raw > prev.1) else (s + 6 - prev.2) % 6 == 1
  let edge : HallEdge :=
    { time := ((c.fbk.prevT0 : Int) + et).toNat, bound := if fwd then raw else raw + 1, inc := zraw
      sixth := if fwd then s else (s + 1) % 6 }
  let l := c.lch n
  c.setLch n { l with
    countTick := raw, sectorTick := s, errTick := flg.testBit 0
    zTick := if flg.testBit 2 && !(flg.testBit 1 && c.lchMode n == 2) then [zraw] else [], hallTick := if flg.testBit 1 then [edge] else [] }

/-- The owner's record is used in place of the own readings (R354). -/
def Chip.useRecord (c : Chip) (b : List Byte) : Chip :=
  let c := forN 16 (fun n c => c.useLchEntry n ((b.drop (0x40 + 24 * n)).take 24)) c
  c.modTwin fun t => { t with dio := some (BitVec.ofNat 32 (leAt b 0x34 4)) }

/-- A twin input flash arrives (R354, R356, R357, R359). (Model: DEDUCED, log 55) -/
def Chip.twinInputFlash (c : Chip) (b : List Byte) (codeOk : Bool) : Chip :=
  let ok := ringFrameOk 0x5E b codeOk && b.length == 456
  let c := c.coldHears ok
  let c := if ok then c.headerSeen b else c
  if !(c.paired && ok && leAt b 1 1 == c.partner) then c
  else
    let fl := leAt b 0x22 2
    let own := leAt b 0x24 4
    let c := (c.setB 0x700020 28 (fl.testBit 0)).modTwin fun t => { t with
      flash := some b, pflags := fl, pOwnTick := own, hbNow := true, pSeq := leAt b 0x30 4
      sawRetq := fl.testBit 4, sawReta := fl.testBit 5 }
    let c := if c.twin.recDue && fl.testBit 0 then (c.useRecord b).modTwin fun t => { t with recDue := false } else c
    let compared := (c.owner || c.eligible) && (fl.testBit 0 || fl.testBit 1)
    let c := if compared && leAt b 0x28 4 == wrapN 32 ((c.tick : Int) - 1) && leAt b 0x2C 4 != c.twin.digest then
        c.digestMismatch (fl.testBit 3) else c
    let c := if fl.testBit 2 && fl.testBit 0 && !c.owner && c.eligible then c.wantOwner true else c
    if c.owner && fl.testBit 0 then
      let mine := c.twin.ownTick
      if own > mine then c.yieldNow else if own == mine && c.twinT == 1 then c.dropOwner else c
    else if !c.owner && !fl.testBit 0 && c.eligible && (!fl.testBit 1 || decide (c.station < c.partner)) then c.wantOwner true
    else c

/-- A mask flash arrives (R320, R354). -/
def Chip.maskFlash (c : Chip) (b : List Byte) (codeOk : Bool) : Chip :=
  let ok := codeOk && b.length == 16 && leAt b 0 1 == 0x5F && crc32c (b.take 8) == leAt b 8 4
  let c := c.coldHears ok
  let c := if ok then c.modRing fun r => { r with listenFrom := c.tb3 } else c
  if c.paired && ok && leAt b 1 1 == c.partner && leAt b 2 2 == c.tick % 65536 && c.twin.maskDue then
    (c.maskReleased (BitVec.ofNat 32 (leAt b 4 4))).modTwin fun t =>
      { t with pmask := some (BitVec.ofNat 32 (leAt b 4 4)), maskDue := false }
  else c

/-- The deadline of the owner's record, or of the partner's mask, passes (R354). -/
def Chip.lirMiss (c : Chip) (mask : Bool) : Chip :=
  let due := if mask then c.twin.maskDue else c.twin.recDue
  if !due then c
  else
    let c := c.modTwin fun t => if mask then { t with maskDue := false } else { t with recDue := false }
    (({ c with stf := true } : Chip).crnStat 7).crnFire 107

/-- RING_CYCLE ticks without the owner's heartbeat (R357). (Model: DEDUCED, log 55) -/
def Chip.heartbeatTimeout (c : Chip) : Chip :=
  if c.paired && !c.owner && c.eligible && !c.twin.hbNow && decide (c.twin.hbMiss + 1 ≥ c.ringCycle) then c.wantOwner true
  else c

/-- The twin's part of a tick boundary, after the tick number moved: STF of the past tick, heartbeats, due records, and
a change of ownership that falls due (R354, R357, R363, R364). (Model: DEDUCED, log 55) -/
def Chip.twinTick (c : Chip) : Chip :=
  let t := c.twin
  let lost := c.paired && !c.owner && !t.hbNow
  -- a partner that has been silent for a ring cycle is no longer seen as owner (R364)
  let c := if !t.hbNow && decide (t.hbMiss + 1 ≥ c.ringCycle) then c.setB 0x700020 28 false else c
  let prev := c.fbk.lch.map fun e => (e.1, (e.2.countTick, e.2.sectorTick))
  let c := c.modTwin fun t => { t with
    hb := (t.hb + 1) % 65536, hbMiss := if t.hbNow then 0 else t.hbMiss + 1, hbNow := false, flash := none, pmask := none
    dio := none, lchPrev := prev, stfPrev := c.stf || c.sep.viewMiss, recDue := c.paired && !c.owner, maskDue := c.paired
    reta := t.reta || (t.sawRetq && c.twinT == 0 && !c.regB 0x700004 30), want := none
    sawRetq := false, sawReta := false }
  let c := (({ c with stf := false } : Chip).modRing fun r => { r with fired := [], dataSeen := [] }).linksTick
  let c := if lost then c.crnFire 106 else c
  match t.want with
  | some true =>
    (c.takeOwner).modTwin fun t => { t with recDue := false }
  | some false =>
    ((c.dropOwner).setElig (!t.fault && c.eligible)).modTwin (fun t => { t with fault := false })
  | none => c

/-- The twin's part of a ring-cycle end: SWAP and the return to X (R356, R359). -/
def Chip.twinCycleEnd (c : Chip) : Chip :=
  if !c.paired then c
  else
    let t := c.twin
    let noret := c.regB 0x700004 30
    let elig := if c.twinT == 1 && c.owner && t.pflags.testBit 1 then t.eligFor + 1 else 0
    let ask := c.twinT == 1 && c.owner && !t.retq && decide (elig ≥ 16) && !noret
    let c := c.modTwin fun t => { t with eligFor := elig, retq := ask, reta := false, sawRetq := false, sawReta := false }
    if t.swap then
      (if c.owner then (c.modTwin fun t => { t with swap := false, fault := true }).wantOwner false
       else (c.modTwin fun t => { t with swap := false }).wantOwner true)
    else if c.twinT == 1 && c.owner && t.retq && t.sawReta then c.wantOwner false
    else if c.twinT == 0 && !c.owner && c.eligible && t.sawRetq && !noret then c.wantOwner true
    else c

/-- DECIDE of CRN_TWIN (R356). -/
def Chip.decideDigest (c : Chip) (k : Nat) : Chip :=
  if !c.regB 0x700020 31 || !(k == 1 || k == 2) then c.crnIgn
  else
    let c := c.setB 0x700020 31 false
    if k = 2 then c.modTwin fun t => { t with swap := true } else c

/-- JOIN of CRN_TWIN (R360, R362): a mode with no join slot refuses it. (Model: DESIGN CHOICE, log 57) -/
def Chip.joinFail (c : Chip) (code : Nat) : Chip :=
  (((c.setF 0x700000 15 12 code).crnStat 9).modTwin fun t =>
    { t with joining := false, joinAt := none, image := [], log := [], replay := none, opened := false, rep := .none }).crnFire 109
def Chip.joinStart (c : Chip) : Chip :=
  let c := c.modTwin fun t => { t with
    joining := true, joinAt := none, image := [], imageAt := 0, log := [], replay := none, opened := false, logAt := 0, rep := .none
    gotRing := [], gotCommits := [], matched := 0, live := 0 }
  if (c.joinSlot c.crnMode c.position).2 = 0 then c.joinFail 2 else (c.dropOwner).setElig false

/-- A write of CRN_TWIN. (Model: DEDUCED, log 55) -/
def Chip.crnTwinWrite (c : Chip) (v : W32) : Chip :=
  let c := if bit v 5 then c.joinStart else c
  if fld v 1 0 = 0 then c else c.decideDigest (fld v 1 0)

/-- A write to a word of the CRN block. -/
def Chip.crnWrite (c : Chip) (x : Nat) (v : W32) : Chip := if x = 0x1C then c.crnTwinWrite v else c.crnRegWrite x v

/-- Ownership at entry to RUN (R353): the first twin in RUN owns. Where both enter at one tick, the flash of that tick shows Y that X
owns too, and Y stays eligible. (Model: DEDUCED, log 55) -/
def Chip.twinRun (c : Chip) : Chip := if !c.paired || c.regB 0x700020 28 then c else c.takeOwner

end Sys2Proof.Machine
end

