-- ==== Sys2Proof/Machine/Modes.lean ====
section
/-!
DEFINITION. The module state as a register shows it, entry to SAFE (R456, R459), and the confirmation area of the boot
flash (R302, R451, R452, R443).
-/
namespace Sys2Proof.Machine

/-- SYS_STATE.STATE of a module state. -/
def ModState.num : ModState → Nat
  | .reset => 0 | .boot => 1 | .config => 2 | .sync => 3 | .standby => 4 | .run => 5 | .degraded => 6 | .safe => 7

/-- The module state changes. -/
def Chip.setModState (c : Chip) (m : ModState) : Chip := ({ c with modState := m } : Chip).setF 0x204 3 0 m.num

/-- The module enters SAFE; the owner of a pair declares FAULT. -/
def Chip.enterSafe (c : Chip) : Chip :=
  let c := if c.paired && c.owner then c.modTwin fun t => { t with fault := true } else c
  c.setModState .safe

/-- A cause of SAFE: at the next tick boundary while ticks run (R460), else at once; RESET is left only for BOOT (R456, R488).
(Model: DEDUCED, log 77) -/
def Chip.needSafe (c : Chip) : Chip :=
  if c.modState == .safe || c.modState == .reset then c else if c.ticking then { c with wantSafe := true } else c.enterSafe

/-! ## Confirmation records -/

/-- The flash directory, when its CRC holds (R451). -/
def Chip.directory (c : Chip) : Option (List Byte) :=
  let b := c.flashBytes 0 28
  if leAt b 0x18 4 = crc32c (b.take 24) then some b else none
/-- The confirmation area, when the directory is valid. -/
def Chip.confOff (c : Chip) : Option Nat := c.directory.map fun b => leAt b 0x14 4

/-- The records of the area that are not erased: index and bytes. -/
def Chip.confSlots (c : Chip) (off : Nat) : List (Nat × List Byte) :=
  (((tabKeys c.flash off (off + 65536)).map fun k => (k - off) / 16).eraseDups).map fun i => (i, c.flashBytes (off + 16 * i) 16)

/-- The valid record with the highest RSEQ: RSEQ, SIG, SCRC. -/
def Chip.confBest (c : Chip) (off : Nat) : Option (Nat × Nat × Nat) :=
  (c.confSlots off).foldl (fun best r =>
    if leAt r.2 12 4 = crcSafety (r.2.take 12) then
      match best with
      | some (s, _, _) => if leAt r.2 8 4 > s then some (leAt r.2 8 4, leAt r.2 0 4, leAt r.2 4 4) else best
      | none => some (leAt r.2 8 4, leAt r.2 0 4, leAt r.2 4 4)
    else best) none

/-- The confirmation record of a set is programmed; a full area is erased first. The first RSEQ of an empty area is a
free value. (Model: DESIGN CHOICE, log 13) -/
def Chip.confProgram (c : Chip) (sig scrc : Nat) : Chip := match c.confOff with
  | none => c
  | some off =>
    let r : Nat × Chip := match c.confBest off with
      | some (s, _, _) => ((s + 1) % 2 ^ 32, c)
      | none => let d := c.draw; (d.1.toNat % 2 ^ 32, d.2)
    let c := r.2
    let next := (c.confSlots off).foldl (fun n e => max n (e.1 + 1)) 0
    let body := toBytes 4 sig ++ toBytes 4 scrc ++ toBytes 4 r.1
    let bs := body ++ toBytes 4 (crcSafety body)
    if next < 4096 then c.setFlashBytes (off + 16 * next) bs
    else ({ c with flash := c.flash.filter fun e => !(decide (off ≤ e.1) && decide (e.1 < off + 65536)) } : Chip).setFlashBytes off bs

/-- A confirmation record is written, or held while non-volatile writes are inhibited (R443). (Model: DEDUCED, log 68) -/
def Chip.confWrite (c : Chip) (sig scrc : Nat) : Chip :=
  if c.hlt.inhibit then { c with hlt := { c.hlt with nvWait := c.hlt.nvWait ++ [(sig, scrc)] } } else c.confProgram sig scrc

end Sys2Proof.Machine
end

