-- ==== Sys2Proof/Machine/Dio.lean ====
section
/-!
DEFINITION. The general 24 V inputs and outputs (R396 to R412).
-/
namespace Sys2Proof.Machine

def Chip.modDio (c : Chip) (f : Dio → Dio) : Chip := { c with dio := f c.dio }
def Chip.dioIgn (c : Chip) : Chip := c.setB 0xD00000 1 true
/-- The bit of a pin. -/
def pinBit (n : Nat) : W32 := BitVec.ofNat 32 (2 ^ n)

/-! ## Gangs (R403, R404) -/

def Chip.quad (c : Chip) (n : Nat) : Bool := c.regB 0xD00010 (16 + n / 4)
def Chip.pairGang (c : Chip) (n : Nat) : Bool := c.regB 0xD00010 (n / 2)
/-- The pins of the gang of a pin, lowest first. -/
def Chip.gang (c : Chip) (n : Nat) : List Nat :=
  if c.quad n then (List.range 4).map fun i => n - n % 4 + i
  else if c.pairGang n then [n - n % 2, n - n % 2 + 1] else [n]
/-- The pin whose image bit drives a pin. -/
def Chip.controlPin (c : Chip) (n : Nat) : Nat := (c.gang n).headD n
def Chip.gangMask (c : Chip) (n : Nat) : W32 := (c.gang n).foldl (fun m i => m ||| pinBit i) 0

/-- A joiner that has not yet reached its first live tick (R361). -/
def Chip.joinWaits (c : Chip) : Bool :=
  c.twin.joining && !(c.twin.joinAt.isSome && c.twin.image.isEmpty && c.twin.replay.isNone)

/-- The module states in which outputs are driven (R400, R410). -/
def Chip.dioState (c : Chip) : Bool := c.modState == .standby || c.modState == .run || c.modState == .degraded
/-- Whether the switch of pin n conducts (R361, R400, R402, R410). -/
def Chip.dioDrives (c : Chip) (n : Nat) : Bool :=
  c.regB 0xD00008 n && bit c.dio.drive (c.controlPin n) && c.dioState && c.dio.power &&
    !bit c.dio.trip n && c.dio.good && (!c.regB 0xD00014 n || !c.paired || c.owner) && c.dio.link && !c.joinWaits

/-! ## Faults and supply (R405, R406, R408) -/

/-- FAULT is set, with event 462 on its change. -/
def Chip.dioFault (c : Chip) : Chip := if c.regB 0xD00000 2 then c else (c.setB 0xD00000 2 true).fire 462
/-- Overcurrent or overtemperature of a pin trips its gang. -/
def Chip.dioTrip (c : Chip) (n : Nat) : Chip := (c.modDio fun d => { d with trip := d.trip ||| c.gangMask n }).dioFault
/-- A rail reaches its reset or off level: what had begun as a dip is none (R442). (Model: DEDUCED, log 85) -/
def Chip.offLevel (c : Chip) (r : Nat) : Chip :=
  if c.hlt.dipping.contains r then
    { c with hlt := { c.hlt with dipping := c.hlt.dipping.filter (· != r), dipEnd := c.tb3 } }
  else c
/-- The field crosses 19.2 V or 16 V: UVW and FUV tell on which side it lies, and event 463 tells of 19.2 V (R408, R412).
(Model: DEDUCED, log 84) -/
def Chip.fieldCross (c : Chip) : FieldCross → Chip
  | .above192 => ((c.setB 0xD00000 4 false).setB 0xD00000 5 false).fire 463
  | .below192 => (c.setB 0xD00000 4 true).fire 463
  | .above16 => c.setB 0xD00000 5 false
  | .below16 =>
    let first := !c.regB 0xD00000 4
    let c := (c.setB 0xD00000 5 true).setB 0xD00000 4 true
    if first then c.fire 463 else c
/-- The field lies below 16 V for 100 µs. -/
def Chip.fieldUnder (c : Chip) : Chip :=
  let c := c.fieldCross .below16
  let ever := c.dio.everGood
  let c := (c.modDio fun d => { d with good := false }).offLevel 6
  if ever then (c.modDio fun d => { d with trip := BitVec.allOnes 32 }).dioFault else c
/-- The field has stayed at or above 19.2 V for 10 ms. -/
def Chip.fieldGood (c : Chip) : Chip :=
  if c.regB 0xD00000 4 then c else c.modDio fun d => { d with good := true, everGood := true }

/-- A requested clear is made at t₀ (R406). `cool` tells whether every junction is below 135 °C; where the module does
not know it is a free value. (Model: DESIGN CHOICE, log 13; DEDUCED, log 84) -/
def Chip.dioClear (c : Chip) : Chip := match c.dio.clr with
  | none => c
  | some known =>
    let c := c.modDio fun d => { d with clr := none }
    let r : Bool × Chip := match known with
      | some cool => (cool, c)
      | none => let d := c.draw; (d.1.toNat % 2 == 1, d.2)
    if c.regB 0xD00000 4 || !r.1 then r.2
    else (r.2.modDio fun d => { d with trip := 0 }).setB 0xD00000 2 false

/-! ## Ticks (R398, R401, R410) -/

/-- At t₀: the clear, the switches by the last command frame, the latch of the levels. The image drives from the first t₀ after entry to
a state that drives (R410). -/
def Chip.dioTick (c : Chip) : Chip :=
  let c := c.dioClear
  let c := match c.dio.frame with
    | some w => c.modDio fun d => { d with drive := if c.dioState then w else 0, link := true, frame := none }
    | none => c
  c.setReg 0xD00024 c.dio.deb
/-- At the publish deadline the image goes to the Husk die. -/
def Chip.dioFrame (c : Chip) : Chip := c.modDio fun d => { d with frame := some (c.reg 0xD00018) }
/-- No well-formed command frame for 100 µs: every switch opens. -/
def Chip.dioTimeout (c : Chip) : Chip := c.modDio fun d => { d with link := false, frame := none }

/-- The safety supply is lost: the Husk die's part stands still and its switches are open (R268, R410). -/
def Chip.dioDown (c : Chip) : Chip := (c.modDio fun d => { d with power := false, link := false }).offLevel 7
/-- Power-up of the safety supply: all switches open, the registers take their reset values (R410). -/
def Chip.dioUp (c : Chip) : Chip :=
  { c with regs := c.regs.filter (fun e => decide (e.1 < 0xD00000) || decide (0xE00000 ≤ e.1)), dio := Dio.reset }

/-! ## Inputs (R397, R399, R411) -/

/-- The level at a pin changes: DIO_PIN shows it (R399). Held for DEB, it becomes the debounced level, and its events fire (R397, R411).
(Model: DEDUCED, log 84) -/
def Chip.dioEdge (c : Chip) (n : Nat) (x : PinEdge) : Chip :=
  let level := x.level
  let c0 := c
  let c := c.setB 0xD00028 n level
  if !c.dio.power then c0
  else if !x.held || bit c.dio.deb n = level then c
  else
    let c := c.modDio fun d => { d with deb := setBit d.deb n level }
    forN 14 (fun k c =>
      let w := c.reg (0xD00040 + 4 * k)
      if bit w 31 && fld w 4 0 == n && bit w (if level then 29 else 30) then c.fire (448 + k) else c) c

/-! ## Registers (R401, R412) -/

/-- A write to a word of the DIO block. (Model: DEDUCED, log 84) -/
def Chip.dioWrite (c : Chip) (x : Nat) (v : W32) : Chip :=
  let off := 0xD00000 + x
  if x = 4 then (if bit v 0 then c.modDio fun d => { d with clr := some none } else c)
  else if x = 0x1C then c.setReg 0xD00018 (c.reg 0xD00018 ||| v)
  else if x = 0x20 then c.setReg 0xD00018 (c.reg 0xD00018 &&& ~~~ v)
  else if 8 ≤ x ∧ x ≤ 0x14 then (if c.inConfig then c.mapWrite off v else c.dioIgn)
  else if 0x40 ≤ x ∧ x < 0x78 then
    if fld v 30 29 = 0 then (c.mapWrite off (setFld v 30 29 (c.regF off 30 29))).dioIgn else c.mapWrite off v
  else c.mapWrite off v

/-- The checks of R403 on leaving CONFIG. -/
def Chip.dioLeave (c : Chip) : Chip × Bool :=
  let g := c.reg 0xD00010
  let disjoint := (List.range 8).all fun q => !bit g (16 + q) || (!bit g (2 * q) && !bit g (2 * q + 1))
  let out := (List.range 32).all fun n => (c.gang n).length == 1 || c.regB 0xD00008 n
  if disjoint && out then (c, true) else (c.setB 0xD00000 0 true, false)

end Sys2Proof.Machine
end

