-- ==== Sys2Proof/Machine/Eth.lean ====
section
/-!
DEFINITION. The plant port: stamps, classes, token buckets, rings, forwarding with the transparent clock, and the checks
of command frames (R382 to R391, R393 to R395).
-/
namespace Sys2Proof.Machine

def Chip.modEth (c : Chip) (f : Eth → Eth) : Chip := { c with eth := f c.eth }
def ethPort (p w : Nat) : Nat := 0x900100 + 128 * p + 4 * w
def ethKey (k w : Nat) : Nat := 0x900400 + 64 * k + 4 * w
def ethRl (p w : Nat) : Nat := 0x900600 + 64 * p + 4 * w
def ethCnt (p w : Nat) : Nat := 0x900800 + 64 * p + 4 * w
def Chip.ethStat (c : Chip) (b : Nat) : Chip := c.setB 0x900000 b true
def Chip.ethIgn (c : Chip) : Chip := c.ethStat 1
/-- A counter of a port goes up, saturating: 0 RX_OK, 1 RX_ERR, 2 RX_FILT, 3 TX_OK, 4 TX_ERR, 5 FWD, 6 FWD_DROP,
7 AUTH_FAIL, 8 REPLAY. -/
def Chip.ethCount (c : Chip) (p w : Nat) : Chip := c.addSat (ethCnt p w) 31 0 1
/-- A bit of word 0 of a port: 31 EN, 28 BRIDGE, 27 TC, 26 P2P, 25 UNTAG_OK, 24 ICMP_EN, 23 LOCAL_EN. -/
def Chip.ethBit (c : Chip) (p b : Nat) : Bool := c.regB (ethPort p 0) b

/-! ## Frames -/

/-- Whether a frame carries an 802.1Q tag, its TCI, and the offset of its EtherType. -/
def isTagged (b : List Byte) : Bool := beAt b 12 2 == 0x8100
def frameTci (b : List Byte) : Nat := if isTagged b then beAt b 14 2 else 0
def typeAt (b : List Byte) : Nat := if isTagged b then 16 else 12
def etherType (b : List Byte) : Nat := beAt b (typeAt b) 2
def dstMac (b : List Byte) : Nat := beAt b 0 6
/-- Offset of the network header. -/
def netAt (b : List Byte) : Nat := typeAt b + 2
def isIp4 (b : List Byte) : Bool := etherType b == 0x0800 && beAt b (netAt b) 1 / 16 == 4
/-- Offset of the transport header, and the fields of an IPv4 frame. -/
def l4At (b : List Byte) : Nat := netAt b + 4 * (beAt b (netAt b) 1 % 16)
def ipProto (b : List Byte) : Nat := beAt b (netAt b + 9) 1
def ipDst (b : List Byte) : Nat := beAt b (netAt b + 16) 4
def isUdp (b : List Byte) : Bool := isIp4 b && ipProto b == 17
def udpPort (b : List Byte) : Nat := beAt b (l4At b + 2) 2
def udpData (b : List Byte) : List Byte := (b.drop (l4At b + 8)).take (beAt b (l4At b + 4) 2 - 8)
/-- Offset of the PTP header (R383). -/
def ptpAt (b : List Byte) : Option Nat :=
  if etherType b = 0x88F7 then some (netAt b)
  else if isUdp b ∧ (udpPort b = 319 ∨ udpPort b = 320) then some (l4At b + 8) else none
def linkLocal : Nat := 0x0180C200000E
def isIp6 (b : List Byte) : Bool := etherType b == 0x86DD

/-- The own MAC and IP of a port. -/
def Chip.ownMac (c : Chip) (p : Nat) : Nat := (c.reg (ethPort p 1)).toNat + c.regF (ethPort p 2) 15 0 * 2 ^ 32
def Chip.ownIp (c : Chip) (p : Nat) : Nat := (c.reg (ethPort p 3)).toNat

/-- The enabled domain of a PTP frame, as its base (R383). -/
def Chip.ptpBase (c : Chip) (b : List Byte) : Option Nat := match ptpAt b with
  | none => none
  | some o =>
    let d := beAt b (o + 4) 1
    let w := c.reg 0x900004
    if bit w 31 && fld w 23 16 == d then some 1 else if bit w 15 && fld w 7 0 == d then some 2 else none
/-- The base that stamps a frame. -/
def Chip.stampBase (c : Chip) (b : List Byte) : Nat := (c.ptpBase b).getD 3
/-- A base's present value in 2^-16 ns. -/
def Chip.base16 (c : Chip) (t : Nat) : Int := (((c.base t).val / 2 ^ 28 : Nat) : Int)
/-- Ingress and egress stamps, corrected by ING_LAT and EGR_LAT. -/
def Chip.ingress (c : Chip) (p t : Nat) : Int := c.base16 t - c.regF (ethPort p 4) 31 16 * 65536
def Chip.egressStamp (c : Chip) (p t : Nat) : Int := c.base16 t + c.regF (ethPort p 4) 15 0 * 65536
/-- Seconds, nanoseconds and fraction of a stamp. -/
def stampSec (s : Int) : Nat := s.toNat / 65536 / 1000000000
def stampNs (s : Int) : Nat := s.toNat / 65536 % 1000000000
def stampFrac (s : Int) : Nat := s.toNat % 65536
/-- The TS of a descriptor, 12 bytes (R389), and back. -/
def tsBytes (s : Int) : List Byte :=
  toBytes 2 (stampFrac s) ++ toBytes 2 (stampSec s / 2 ^ 32) ++ toBytes 4 (stampSec s) ++ toBytes 4 (stampNs s)
def tsValue (b : List Byte) : Int :=
  ((((leAt b 2 2 * 2 ^ 32 + leAt b 4 4) * 1000000000 + leAt b 8 4) * 65536 + leAt b 0 2 : Nat) : Int)

/-! ## Checksums and one-step changes (R384, R385) -/

/-- The ones' complement sum of a byte list as big-endian 16-bit words. -/
def onesSum (bs : List Byte) : Nat :=
  let s := ((List.range ((bs.length + 1) / 2)).map fun i => beAt (bs ++ [0]) (2 * i) 2).foldl (· + ·) 0
  let s := s % 65536 + s / 65536
  s % 65536 + s / 65536

/-- A checksum updated for bytes that changed from `old` to `new` (RFC 1624). -/
def checksumUpdate (sum : Nat) (old new : List Byte) : Nat :=
  let s := (65535 - sum) + (65535 - onesSum old) + onesSum new
  let s := s % 65536 + s / 65536
  let s := s % 65536 + s / 65536
  65535 - s

/-- Bytes at an even offset of a frame change; a non-zero UDP checksum follows. -/
def patchFrame (b : List Byte) (off : Nat) (new : List Byte) : List Byte :=
  let old := (b.drop off).take new.length
  let b1 := splice b off new
  if isUdp b ∧ beAt b (l4At b + 6) 2 ≠ 0 then
    splice b1 (l4At b + 6) (toBytes 2 (checksumUpdate (beAt b (l4At b + 6) 2) old new)).reverse
  else b1

/-- An amount in 2^-16 ns is added to correctionField. -/
def addCorrection (b : List Byte) (d : Int) : List Byte := match ptpAt b with
  | none => b
  | some o => patchFrame b (o + 8) (toBytes 8 (wrapN 64 (signed 64 (beAt b (o + 8) 8) + d))).reverse

/-- A PTP event message that the transparent clock corrects. -/
def isEventMsg (b : List Byte) : Bool := match ptpAt b with
  | some o => decide (beAt b o 1 % 16 ≤ 3) && dstMac b != linkLocal
  | none => false

/-! ## Classes (R386) -/

/-- What becomes of a received frame. -/
inductive EthAct where
  | drop
  | deliver
  | command
  | answer
  deriving DecidableEq, Repr

/-- A classified frame: class, action, whether it is also forwarded with BRIDGE 1. -/
structure EthClass where
  cls     : Nat
  act     : EthAct
  forward : Bool
  deriving DecidableEq, Repr

/-- Whether a tagged frame's VID is in a port's list, or an untagged frame is accepted. -/
def Chip.vidOk (c : Chip) (p : Nat) (b : List Byte) : Bool :=
  if isTagged b then (List.range 8).any fun i =>
    let h := c.regF (ethPort p (6 + i / 2)) (16 * (i % 2) + 15) (16 * (i % 2))
    h.testBit 15 && h % 4096 == frameTci b % 4096
  else c.ethBit p 25

/-- An ARP request for, or an ICMP echo request to, the own IP. -/
def Chip.isArp (c : Chip) (p : Nat) (b : List Byte) : Bool :=
  etherType b == 0x0806 && beAt b (netAt b + 6) 2 == 1 && beAt b (netAt b + 24) 4 == c.ownIp p
def Chip.isPing (c : Chip) (p : Nat) (b : List Byte) : Bool :=
  isIp4 b && ipProto b == 1 && ipDst b == c.ownIp p && beAt b (l4At b) 1 == 8 && c.ethBit p 24

/-- Rules 2 to 9 of R386. A frame to 01-80-C2-00-00-0E is never forwarded (R385); IPv6 is a frame of rules 8 and 9 alone (R382). -/
def Chip.classify (c : Chip) (p : Nat) (b : List Byte) : EthClass :=
  let d := dstMac b
  let multi := (d / 2 ^ 40) % 2 == 1
  if !c.vidOk p b || isIp6 b then { cls := if multi then 4 else 5, act := .drop, forward := d != linkLocal }
  else if d = linkLocal then { cls := 0, act := .deliver, forward := false }
  else if (c.ptpBase b).isSome && (d == c.ownMac p || d == 0x011B19000000 || (isIp4 b && (ipDst b == 0xE0000181 || ipDst b == 0xE000006B))) then
    { cls := 0, act := .deliver, forward := multi }
  else if isUdp b && ipDst b == c.ownIp p && udpPort b == c.regF 0x900008 15 0 && c.regB 0x900008 31 then
    { cls := 1, act := .command, forward := false }
  else if c.isArp p b || c.isPing p b then { cls := 2, act := .answer, forward := c.isArp p b && d == 0xFFFFFFFFFFFF }
  else if d = c.ownMac p then { cls := 3, act := if c.ethBit p 23 then .deliver else .drop, forward := false }
  else { cls := if multi then 4 else 5, act := .drop, forward := true }

/-! ## Token buckets (R387) -/

/-- A frame of a class takes a token; the Bool says there was one. A bucket is full at first. (Model: DEDUCED, log 82) -/
def Chip.takeToken (c : Chip) (p cls : Nat) : Chip × Bool :=
  let w := c.reg (ethRl p (2 * cls))
  let rate := fld w 31 12
  let burst := fld w 11 0 * 1000000000
  if rate = 0 then (c, true)
  else
    let now := c.tb3
    let level := match tabGet (fun _ => none) c.eth.buckets (8 * p + cls) with
      | some (n, t) => min burst (n + (now - t) * rate)
      | none => burst
    let put := fun (n : Nat) => c.modEth fun e => { e with buckets := tabPut (fun _ => none) e.buckets (8 * p + cls) (some (n, now)) }
    if level < 1000000000 then
      ((((put level).addSat (ethRl p (2 * cls + 1)) 31 0 1).ethStat 3).fire 189, false)
    else (put (level - 1000000000), true)

/-! ## Egress queues (R388) -/

def Chip.egrQueue (c : Chip) (p : Nat) : List EgrFrame := tabGet (fun _ => []) c.eth.egress p
def Chip.setEgr (c : Chip) (p : Nat) (l : List EgrFrame) : Chip :=
  c.modEth fun e => { e with egress := tabPut (fun _ => []) e.egress p l }
/-- A frame enters a queue of an egress port, or is dropped when the queue holds 64 KiB or the port is disabled. -/
def Chip.enqueue (c : Chip) (p : Nat) (f : EgrFrame) : Chip × Bool :=
  let held := ((c.egrQueue p).filter fun g => g.prio == f.prio).foldl (fun n g => n + g.bytes.length) 0
  if held ≥ 65536 || !c.ethBit p 31 then (c, false) else (c.setEgr p (c.egrQueue p ++ [f]), true)

/-- A received frame is forwarded to the other port. (Model: DEDUCED, log 82) -/
def Chip.forward (c : Chip) (p : Nat) (b : List Byte) : Chip :=
  let q := 1 - p
  let prio := if isTagged b then frameTci b / 2 ^ 13 else c.regF (ethPort p 0) 2 0
  let t := c.stampBase b
  let tc := c.ethBit 0 27 && c.ethBit 1 27 && isEventMsg b
  let sync := match ptpAt b with | some o => beAt b o 1 % 16 == 0 | none => false
  let extra : Int := if c.ethBit p 26 && sync then ((c.reg (ethPort p 5)).toNat : Int) else 0
  let r := c.enqueue q { prio := prio, bytes := b, fix := if tc then some (t, c.ingress p t, extra) else none }
  r.1.ethCount p (if r.2 then 5 else 6)

/-- The answer of hardware to an ARP or an echo request (R386): addresses swapped, in the request's tag. (Model: DEDUCED, log 82) -/
def Chip.answerFrame (c : Chip) (p : Nat) (b : List Byte) : List Byte :=
  let mac := (toBytes 6 (c.ownMac p)).reverse
  let o := netAt b
  let head := (b.drop 6).take 6 ++ mac ++ (b.drop 12).take (o - 12)
  if etherType b = 0x0806 then
    let r := head ++ (b.drop o).take 6 ++ [0, 2] ++ mac ++ (toBytes 4 (c.ownIp p)).reverse ++ (b.drop (o + 8)).take 10
    r ++ List.replicate (60 - r.length) 0
  else
    let l := l4At b
    let ip := (b.drop o).take 12 ++ (b.drop (o + 16)).take 4 ++ (b.drop (o + 12)).take 4 ++ (b.drop (o + 20)).take (l - o - 20)
    head ++ ip ++ [0] ++ (b.drop (l + 1)).take 1 ++
      (toBytes 2 (checksumUpdate (beAt b (l + 2) 2) ((b.drop l).take 2) ([0] ++ (b.drop (l + 1)).take 1))).reverse ++ b.drop (l + 4)

/-- A frame of the hardware's own enters the queue of its port, or is dropped there and counted in FWD_DROP (R388). -/
def Chip.answer (c : Chip) (p : Nat) (req ans : List Byte) : Chip :=
  let r := c.enqueue p { prio := if isTagged req then frameTci req / 2 ^ 13 else c.regF (ethPort p 0) 2 0, bytes := ans, fix := none }
  if r.2 then r.1 else r.1.ethCount p 6

/-! ## Rings (R389) -/

/-- Address of a ring's entry: the receive ring from word 10, the transmit ring from word 14. -/
def Chip.ringEntry (c : Chip) (p w i : Nat) : Nat := c.pair (ethPort p w) % 2 ^ 40 + 32 * i
def Chip.ringSize (c : Chip) (p w : Nat) : Nat := 2 ^ c.regF (ethPort p (w + 2)) 27 24
def Chip.ringTail (c : Chip) (p w : Nat) : Nat := c.regF (ethPort p (w + 2)) 11 0
def Chip.ringHead (c : Chip) (p w : Nat) : Nat := c.regF (ethPort p (w + 3)) 11 0
/-- A descriptor of a ring and whether it belongs to the port. -/
def Chip.ringDesc (c : Chip) (p w : Nat) : List Byte := c.engineBytes (c.ringEntry p w (c.ringHead p w)) 32
def Chip.ringOwned (c : Chip) (p w : Nat) : Bool :=
  c.ringHead p w != c.ringTail p w && (leAt (c.ringDesc p w) 0x0A 2).testBit 15
def Chip.ringNext (c : Chip) (p w : Nat) : Chip :=
  c.setF (ethPort p (w + 3)) 11 0 ((c.ringHead p w + 1) % c.ringSize p w)
/-- The port stores bytes through the internal agents' master (R469). -/
def Chip.ringStore (c : Chip) (a : Nat) (bs : List Byte) : Chip := (c.memStore 44 1 a bs).1

/-- A frame is delivered to the receive ring of its port. (Model: DEDUCED, log 82) -/
def Chip.deliver (c : Chip) (p cls : Nat) (b : List Byte) : Chip :=
  if !c.ringOwned p 10 then c.ethStat 2
  else
    let a := c.ringEntry p 10 (c.ringHead p 10)
    let c := c.engineMeets a 32
    let buf := leAt (c.ringDesc p 10) 0 8 % 2 ^ 40
    let t := c.stampBase b
    let flags := cls * 2 ^ 12 + t * 2 ^ 9 + (isTagged b).toNat * 256 + (ptpAt b).isSome.toNat * 128
    let c := c.ringStore buf b
    let c := c.ringStore (a + 8) (toBytes 2 b.length ++ toBytes 2 flags ++ toBytes 2 (frameTci b) ++ [0, 0] ++
      tsBytes (c.ingress p t) ++ [0, 0, 0, 0])
    (c.ringNext p 10).fire (184 + p)

/-- A received frame, from its destination address to its last byte before the FCS (R386, R387). (Model: DEDUCED, log 82) -/
def Chip.ethReceive (c : Chip) (p : Nat) (b : List Byte) (fcsOk : Bool) : Chip :=
  if !c.ethBit p 31 then c
  else if !fcsOk || decide (b.length < 60) || decide (b.length + 4 > 1522) then c.ethCount p 1
  else
    let k := c.classify p b
    let r := (c.ethCount p 0).takeToken p k.cls
    if !r.2 then r.1
    else
      let c := r.1
      let fwd := k.forward && c.ethBit p 28
      let c := if fwd then c.forward p b else c
      match k.act with
      | .drop => if fwd then c else c.ethCount p 2
      | .deliver => c.deliver p k.cls b
      | .command => c.modEth fun e => { e with cmds := e.cmds ++ [{ port := p, frame := b, data := udpData b }] }
      | .answer => c.answer p b (c.answerFrame p b)

/-! ## Transmission (R384, R388, R389) -/

/-- The highest priority waiting in a port's egress queues. -/
def Chip.egrTop (c : Chip) (p : Nat) : Option Nat := (c.egrQueue p).foldl (fun m f => match m with
  | some n => some (max n f.prio)
  | none => some f.prio) none

def Chip.sentFrame (c : Chip) (p : Nat) (b : List Byte) : Chip :=
  c.modEth fun e => { e with sent := tabPut (fun _ => []) e.sent p b }

/-- Whether a frame is a PTP message of a type. -/
def isPtpMsg (k : Nat) (b : List Byte) : Bool := match ptpAt b with
  | some o => beAt b o 1 % 16 == k
  | none => false
/-- A local frame with its one-step insertion: OSTS into a Sync, OSPD into a Pdelay_Resp (R384). -/
def oneStep (b : List Byte) (ctrl : Nat) (stamp ts : Int) : List Byte :=
  let b := if ctrl.testBit 14 && isPtpMsg 0 b then
      match ptpAt b with
      | some o =>
        let x := patchFrame b (o + 34) ((toBytes 6 (stampSec stamp)).reverse ++ (toBytes 4 (stampNs stamp)).reverse)
        addCorrection x (stampFrac stamp)
      | none => b
    else b
  if ctrl.testBit 13 && isPtpMsg 3 b then addCorrection b (stamp - ts) else b

/-- The egress stamp of a descriptor's TSB; a TSB that names no base leaves it open, and it is free. -/
def Chip.stampOf (c : Chip) (p t : Nat) : Int × Chip :=
  if t ≤ 5 then (c.egressStamp p t, c) else let r := c.draw; ((r.1.toNat : Int), r.2)
/-- A port sends the next owned descriptor, unless a frame of a higher priority waits; a wrong length is dropped.
(Model: DEDUCED, log 82) -/
def Chip.ethTransmit (c : Chip) (p : Nat) : Chip :=
  let fly := tabGet (fun _ => none) c.eth.fly p
  if !c.ethBit p 31 || !c.ringOwned p 14 || fly.isSome then c
  else
    let d := c.ringDesc p 14
    let a := c.ringEntry p 14 (c.ringHead p 14)
    let len := leAt d 8 2
    let ctrl := leAt d 0x0A 2
    let c := c.engineMeets a 32
    if (match c.egrTop p with | some n => decide (n > ctrl % 8) | none => false) then c
    else if len < 60 ∨ len > 1518 then
      ((c.ringStore (a + 0x0A) (toBytes 2 (ctrl % 2 ^ 15))).ringNext p 14).ethCount p 4
    else
      let t := ctrl / 2 ^ 9 % 8
      let r := c.stampOf p t
      let c := r.2
      let s := r.1
      let c := c.engineMeets (leAt d 0 8 % 2 ^ 40) len
      let b := oneStep (c.engineBytes (leAt d 0 8 % 2 ^ 40) len) ctrl s (tsValue (d.drop 0x10))
      let c := if ctrl.testBit 12 then c.ringStore (a + 0x10) (tsBytes s) else c
      c.modEth fun e => { e with fly := tabPut (fun _ => none) e.fly p (some b) }

/-- The frame has left: OWN is cleared, event 186. -/
def Chip.ethTxComplete (c : Chip) (p : Nat) : Chip := match tabGet (fun _ => none) c.eth.fly p with
  | none => c
  | some b =>
    let a := c.ringEntry p 14 (c.ringHead p 14)
    let ctrl := leAt (c.ringDesc p 14) 0x0A 2
    let c := c.ringStore (a + 0x0A) (toBytes 2 (ctrl % 2 ^ 15))
    let c := (c.ringNext p 14).modEth fun e => { e with fly := tabPut (fun _ => none) e.fly p none }
    ((c.sentFrame p b).ethCount p 3).fire 186

/-- The next frame of the egress queues leaves, with its residence time added (R385, R388). A local frame of a higher
priority goes first. -/
def Chip.forwardEgress (c : Chip) (p : Nat) : Chip := match c.egrTop p with
  | none => c
  | some top =>
    let l := c.egrQueue p
    let waits := (tabGet (fun _ => none) c.eth.fly p).isSome ||
      (c.ringOwned p 14 && decide (leAt (c.ringDesc p 14) 0x0A 2 % 8 > top))
    match l.find? fun f => f.prio == top with
    | none => c
    | some f =>
      if waits then c
      else
        let b := match f.fix with
          | some (t, s, x) => addCorrection f.bytes (c.egressStamp p t - s + x)
          | none => f.bytes
        ((c.setEgr p (l.erase f)).sentFrame p b).ethCount p 3

/-! ## Command frames (R390, R391) -/

/-- Checks 1 to 4 in order for the oldest waiting command; one that passes is ready to run. -/
def Chip.kppCheck (c : Chip) : Chip := match c.eth.cmds with
  | [] => c
  | f :: rest =>
    if c.eth.ready.isSome then c
    else
      let c := c.modEth fun e => { e with cmds := rest }
      let b := f.data
      let len := leAt b 0x10 4
      let k := leAt b 5 1
      let fmt := leAt b 0 4 == 0x3150504B && leAt b 4 1 == 1 && (b.drop 0x14).take 12 == List.replicate 12 0 &&
        decide (len ≤ 1040) && len % 4 == 0 && b.length == 48 + len
      if !fmt || decide (k > 3) || !c.regB (ethKey k 8) 31 then c
      else
        let key := ((List.range 8).map fun w => toBytes 4 (c.reg (ethKey k w)).toNat).flatten
        if (hmacSha256 key (b.take (32 + len))).take 16 != b.drop (32 + len) then
          ((c.ethCount f.port 7).ethStat 5).fire 188
        else if leAt b 8 8 ≤ c.pair (ethKey k 9) then (c.ethCount f.port 8).ethStat 4
        else (c.setPair (ethKey k 9) (leAt b 8 8)).modEth fun e => { e with ready := some f }

/-- The response to a command (R392): its payload in the frame that goes back, tagged; the transmit counter goes up.
What the spec does not state of the IPv4 and UDP headers is free. (Model: DESIGN CHOICE, log 13; DEDUCED, log 82) -/
def Chip.kppRespond (c : Chip) (f : KppFrame) (pay : List Byte) : Chip :=
  let b := f.data
  let k := leAt b 5 1
  let ctr := c.pair (ethKey k 11) + 1
  let c := c.setPair (ethKey k 11) ctr
  let key := ((List.range 8).map fun w => toBytes 4 (c.reg (ethKey k w)).toNat).flatten
  let body := b.take 6 ++ toBytes 2 (leAt b 6 2 ||| 0x8000) ++ toBytes 8 ctr ++ toBytes 4 pay.length ++ List.replicate 12 0 ++ pay
  let data := body ++ (hmacSha256 key body).take 16
  let d := c.draw
  let r := d.1.toNat
  let q := f.frame
  let o := netAt q
  let l := l4At q
  let be2 := fun n => (toBytes 2 n).reverse
  let ip0 := [0x45#8, 0] ++ be2 (28 + data.length) ++ be2 (r % 65536) ++ [0, 0] ++ [BitVec.ofNat 8 (r / 65536), 17] ++ [0, 0] ++
    (q.drop (o + 16)).take 4 ++ (q.drop (o + 12)).take 4
  let ip := splice ip0 10 (be2 (65535 - onesSum ip0))
  let udp := (q.drop (l + 2)).take 2 ++ (q.drop l).take 2 ++ be2 (8 + data.length) ++ be2 (r / 2 ^ 24 % 65536)
  let frame := (q.drop 6).take 6 ++ (toBytes 6 (d.2.ownMac f.port)).reverse ++ (q.drop 12).take (o - 12) ++ ip ++ udp ++ data
  (d.2.answer f.port q (frame ++ List.replicate (60 - frame.length) 0)).modEth fun e => { e with ready := none }

/-! ## Links and registers (R393 to R395) -/

/-- A plant port's link goes up or down. -/
def Chip.ethLink (c : Chip) (p : Nat) (up : Bool) : Chip :=
  if c.ethBit p 22 = up then c else ((c.setB (ethPort p 0) 22 up).ethStat 6).fire 190

/-- A write to a word of a port. -/
def Chip.ethPortWrite (c : Chip) (p w : Nat) (v : W32) : Chip :=
  let off := ethPort p w
  let en := c.ethBit p 31
  if w = 0 then
    let old := c.reg off
    let bad := fld v 30 29 == 3 || (en && fld v 30 29 != fld old 30 29)
    (if bad then c.ethIgn else c).mapWrite off (if bad then setFld v 30 29 (fld old 30 29) else v)
  else if w = 1 ∨ w = 2 ∨ w = 3 ∨ w = 10 ∨ w = 11 ∨ w = 14 ∨ w = 15 then (if en then c.ethIgn else c.mapWrite off v)
  else if w = 12 ∨ w = 16 then
    let old := c.reg off
    let log := fld v 27 24
    let bad := (en && log != fld old 27 24) || decide (log < 4) || decide (log > 12)
    (if bad then c.ethIgn else c).mapWrite off (if bad then setFld v 27 24 (fld old 27 24) else v)
  else c.mapWrite off v

/-- A write to a word of a key slot, made by master 40 (R393). -/
def Chip.ethKeyWrite (c : Chip) (k w : Nat) (v : W32) : Chip :=
  let en := c.regB (ethKey k 8) 31
  if w < 8 then (if en then c.ethIgn else c.setReg (ethKey k w) v)
  else if w = 8 then
    let c := c.mapWrite (ethKey k 8) v
    if bit v 31 && !en then (c.setPair (ethKey k 9) 0).setPair (ethKey k 11) 0 else c
  else c

/-- A write to RATE and BURST of a bucket: a BURST of 0 is ignored (R387). (Model: DEDUCED, log 15) -/
def Chip.ethRateWrite (c : Chip) (off : Nat) (v : W32) : Chip :=
  if fld v 11 0 = 0 then c.ethIgn.mapWrite off (setFld v 11 0 (c.regF off 11 0)) else c.mapWrite off v

/-- A write to a word of the ETH block. -/
def Chip.ethWrite (c : Chip) (x : Nat) (v : W32) : Chip :=
  if 0x600 ≤ x ∧ x < 0x680 ∧ x % 64 < 48 ∧ x % 8 = 0 then c.ethRateWrite (0x900000 + x) v else
  if 0x100 ≤ x ∧ x < 0x200 then c.ethPortWrite ((x - 0x100) / 128) (x % 128 / 4) v
  else if 0x400 ≤ x ∧ x < 0x500 then c.ethKeyWrite ((x - 0x400) / 64) (x % 64 / 4) v
  else c.mapWrite (0x900000 + x) v

/-- A read of a counter of a port, word 0 to 8, or of the DROP of a class, 9 + class, which clears it. -/
def Chip.ethCntRead (c : Chip) (p w : Nat) : Chip := c.setReg (if w < 9 then ethCnt p w else ethRl p (2 * (w - 9) + 1)) 0

end Sys2Proof.Machine
end

