-- ==== Sys2Proof/Machine/Health.lean ====
section
/-!
DEFINITION. The health monitors: the pod clock step and shed level, the critical reaction, derating and trend, supplies,
switches and links (R433 to R447).
-/
namespace Sys2Proof.Machine

def Chip.modHlt (c : Chip) (f : Hlt → Hlt) : Chip := { c with hlt := f c.hlt }
def Chip.hltStat (c : Chip) (b : Nat) : Chip := c.setB 0xB00000 b true
/-- The thresholds and the step floor of HLT_CTRL. -/
def Chip.slackLo (c : Chip) : Int := ((c.regF 0xB00004 31 24 : Nat) : Int)
def Chip.slackHi (c : Chip) : Int := ((c.regF 0xB00004 23 16 : Nat) : Int)
def Chip.slackCrit (c : Chip) : Int := ((c.regF 0xB00004 15 8 : Nat) : Int)
def Chip.stepFloor (c : Chip) : Nat := c.regF 0xB00004 2 0
/-- S_min in ps. (Model: DESIGN CHOICE, log 86) -/
def Chip.sMin (c : Chip) : Int := signed 16 (c.regF 0xB0000C 31 16)
/-- P[k] in 10^-3 ps. -/
def stepPeriod (k : Nat) : Int := [625000, 666667, 714286, 769231, 833333].getD k 833333
/-- S(k) in 10^-3 ps for a smallest slack in ps at step s. -/
def slackAt (smin : Int) (s k : Nat) : Int := 1000 * smin + stepPeriod k - stepPeriod s
/-- A slack in 10^-3 ps as a field in whole ps shows it. (Model: DESIGN CHOICE, log 86) -/
def picoseconds (s : Int) : Int := s / 1000 + (if s % 1000 = 0 then 0 else Config.freeResult 206 [s] % 2)
/-- The shed level in force. -/
def Chip.shedLevel (c : Chip) : Nat := c.regF 0x10002C 27 24
def Chip.levelCount (c : Chip) : Nat := match c.sched.plan with | some p => p.levels.length | none => 1
/-- fits(L, k); without a plan nothing has to fit. (Model: DEDUCED, log 85) -/
def Chip.fitsAt (c : Chip) (level step : Nat) : Bool := match c.sched.plan with | some p => c.fits p level step | none => true
/-- The lowest level that fits at a step. -/
def Chip.lowestFit (c : Chip) (step : Nat) : Option Nat := (List.range c.levelCount).find? fun l => c.fitsAt l step
/-- The i-th 16-bit reading of a packed word. -/
def reading (w i : Nat) : Nat := w / 2 ^ (16 * i) % 2 ^ 16

/-! ## Trend (R439) -/

/-- The time to limit in hours. -/
def Chip.ttl (c : Chip) : Nat :=
  let l := c.hlt.minima.take (c.regF 0xB00008 31 16)
  let n : Int := (l.length : Nat)
  let xs := (List.range l.length).map fun (i : Nat) => -(Int.ofNat i)
  let sx := xs.foldl (· + ·) 0
  let sy := l.foldl (· + ·) 0
  let sxx := (xs.map fun x => x * x).foldl (· + ·) 0
  let sxy := (List.zipWith (· * ·) xs l).foldl (· + ·) 0
  let num := n * sxy - sx * sy
  if l.length < 8 ∨ num ≥ 0 then 65535
  else min 65535 (((c.hlt.s4 - 1000 * c.slackCrit) * (n * sxx - sx * sx)) / -num).toNat

/-- HLT_TTL is loaded; event 443 when it falls below 8,760. -/
def Chip.setTtl (c : Chip) : Chip :=
  let old := c.regF 0xB00010 15 0
  let new := c.ttl
  let c := c.setF 0xB00010 15 0 new
  if new < 8760 ∧ 8760 ≤ old then c.fire 443 else c

/-- A new hourly minimum of S4. -/
def Chip.ttlUpdate (c : Chip) : Chip := match c.hlt.hourMin with
  | none => c
  | some m => ((c.modHlt fun h => { h with minima := (m :: h.minima).take 1024, hourMin := none }).setTtl).fire 444

/-! ## The critical reaction (R438) -/

def Chip.critical (c : Chip) : Chip :=
  let c := ((c.fire 435).hltStat 7).modHlt fun h => { h with crit := true }
  let c := { c with allFault := true, wantDegraded := true }
  if c.paired then c.modTwin fun t => { t with fault := true } else c

/-- While a critical reaction is in force and S_min lies below SLACK_LO, the fault actions are held. -/
def Chip.holdCritical (c : Chip) : Chip := if c.hlt.crit && decide (c.sMin < c.slackLo) then { c with allFault := true } else c

/-- Fault actions have been cleared: the reaction ends, and FAULT is declared no longer, once S_min is at least SLACK_LO and no joint
holds its fault action. (Model: DEDUCED, log 85) -/
def Chip.endCritical (c : Chip) : Chip :=
  if c.hlt.crit && decide (c.slackLo ≤ c.sMin) && !c.allFault && !(c.obsKeys.any fun k => c.obsFault k) then
    (c.modHlt fun h => { h with crit := false }).modTwin fun t => { t with fault := false }
  else c

/-- Whether a cause of the critical reaction stands: S_min below SLACK_CRIT, or a sensor at 125 °C or more for 1 ms.
(Model: DEDUCED, log 85) -/
def Chip.critCause (c : Chip) : Bool :=
  decide (c.sMin < c.slackCrit) || c.hlt.hot.any fun e => decide (e.2 + 1000000 ≤ c.tb3)
/-- The critical reaction, where a cause stands. -/
def Chip.criticalReaction (c : Chip) : Chip := if c.critCause then c.critical else c

/-! ## The evaluation (R434 to R437) -/

/-- MARGIN_PLAN. (Model: DEDUCED, log 85) -/
def Chip.marginPlan (c : Chip) : Chip := ((c.hltStat 6).setTtl).fire 432

/-- The target step t. -/
def Chip.targetStep (c : Chip) (smin : Int) (s : Nat) (held : Bool) : Nat :=
  let t := if smin < c.slackLo ∧ s < 4 then s + 1 else if s > c.stepFloor && held then s - 1 else s
  max t c.stepFloor

/-- The evaluation of every millisecond; `w` packs the slacks of the eight replicas in ps, signed. (Model: DEDUCED, log 85) -/
def Chip.evaluateHealth (c : Chip) (w : Nat) : Chip :=
  let sl := (List.range 8).map fun i => signed 16 (reading w i)
  let smin := sl.foldl min (signed 16 (reading w 0))
  let c := forN 8 (fun i c => c.setReg (0xB00200 + 4 * i) (BitVec.ofNat 32 (reading w i))) c
  let s := c.podStep
  let s4 := slackAt smin s 4
  let c := c.setReg 0xB0000C (BitVec.ofNat 32 (wrapN 16 smin * 65536 + wrapN 16 (picoseconds s4)))
  let hold := if s > 0 ∧ slackAt smin s (s - 1) ≥ 1000 * c.slackHi then c.hlt.hold + 1 else 0
  let c := c.modHlt fun h => { h with s4 := s4, hold := hold, hourMin := some (match h.hourMin with | some m => min m s4 | none => s4) }
  let c := if smin < c.slackCrit then c.critical else c
  let held := decide (hold ≥ 1000 * c.regF 0xB00008 15 0) && decide (hold > 0)
  let t := c.targetStep smin s held
  let level := c.shedLevel
  if c.paired then
    if c.fitsAt level t then c.modHlt fun h => { h with change := if t = s then none else some (t, level) }
    else
      let c := (c.setF 0xB00000 11 8 ((c.lowestFit t).getD 15)).modHlt fun h => { h with change := none }
      if t < s then c else c.marginPlan
  else match c.lowestFit t with
    | some l =>
      let c := c.modHlt fun h => { h with change := if t = s ∧ l = level then none else some (t, l) }
      if l > level then c.marginPlan else c
    | none =>
      let c := c.modHlt fun h => { h with change := none }
      if t < s then c else c.marginPlan

/-- The decided step and level take effect at a tick divisible by 16, when they still fit (R436). (Model: DEDUCED, log 85) -/
def Chip.shedApply (c : Chip) : Chip := match c.hlt.change with
  | none => c
  | some (t, decided) =>
    if !c.ticking || c.tick % 16 != 0 then c
    else
      let l := if c.paired then c.shedLevel else decided
      let c := c.modHlt fun h => { h with change := none }
      if !c.fitsAt l t then c
      else
        let stepped := t != c.podStep
        let leveled := l != c.shedLevel
        let c := ((c.setF 0x110 11 8 t).setF 0x10002C 27 24 l).reshed
        let c := if stepped then (c.modHlt fun h => { h with hold := 0 }).fire 433 else c
        if leveled then c.fire 434 else c

/-- A shed level is set; event 434 when it changes. -/
def Chip.setLevel (c : Chip) (l : Nat) : Chip :=
  let leveled := l != c.shedLevel
  let c := (c.setF 0x10002C 27 24 l).reshed
  if leveled then c.fire 434 else c

/-- The committed shed levels of the current tick take effect (R440). -/
def Chip.shedCommitApply (c : Chip) : Chip :=
  if !c.ticking then c
  else forL (c.hlt.shed.filter fun e => e.2 == c.tick) (fun e c => c.setLevel e.1)
    (c.modHlt fun h => { h with shed := h.shed.filter fun e => e.2 != c.tick })

/-- Whether a named tick has not started (R34). -/
def Chip.notStarted (c : Chip) (t : Nat) : Bool := decide (c.tick < t) || (!c.ticked && decide (c.tick ≤ t))

/-- A write to HLT_SHED_CMD (R440). -/
def Chip.shedCmd (c : Chip) (v : W32) : Chip :=
  if !bit v 31 then c
  else
    let t := c.pair 0xB00024
    if t % 16 != 0 || !c.notStarted t then c.hltStat 0 else c.modHlt fun h => { h with shed := h.shed ++ [(fld v 3 0, t)] }

/-- The step a module starts with (R437). (Model: DESIGN CHOICE, log 86) -/
def Chip.startStep (c : Chip) : Chip :=
  let s := c.podStep
  let k := ((List.range 5).find? fun k => decide (c.stepFloor ≤ k) && decide (slackAt c.sMin s k ≥ 1000 * c.slackLo)).getD 4
  c.setF 0x110 11 8 k

/-! ## Sensors (R433, R445, R446) -/

/-- The sensors at 125 °C or more, each since when; one that has stayed there for 1 ms is critical (R438). (Model: DEDUCED, log 85) -/
def Chip.hotSensors (c : Chip) (ts : List Int) : Chip :=
  let now := c.tb3
  let hot := (((List.range 16).zip ts).filter fun e => decide (e.2 ≥ 16 * 125)).map fun e =>
    (e.1, ((c.hlt.hot.find? fun o => o.1 == e.1).map (·.2)).getD now)
  let c := c.modHlt fun h => { h with hot := hot }
  if hot.any fun e => decide (e.2 + 1000000 ≤ now) then c.critical else c

/-- The warning threshold of the temperatures: events 436 and 437. (Model: DEDUCED, log 85) -/
def Chip.tempWarning (c : Chip) (tmax : Int) : Chip :=
  let warn : Int := ((c.regF 0xB0003C 23 16 : Nat) : Int)
  if tmax ≥ 16 * warn then
    let was := c.hlt.warm
    let c := (c.hltStat 5).modHlt fun h => { h with warm := true }
    if was then c else c.fire 436
  else if c.hlt.warm && decide (tmax ≤ 16 * (warn - 5)) then (c.modHlt fun h => { h with warm := false }).fire 437
  else c

/-- The sixteen temperatures in 1/16 °C, signed, packed. -/
def Chip.temperature (c : Chip) (w : Nat) : Chip :=
  let ts := (List.range 16).map fun i => signed 16 (reading w i)
  let tmax := ts.foldl max (signed 16 (reading w 0))
  let c := forN 16 (fun i c => c.setReg (0xB00300 + 4 * i) (BitVec.ofNat 32 (reading w i))) c
  ((c.setF 0xB0003C 15 0 (wrapN 16 tmax)).tempWarning tmax).hotSensors ts

/-- The twenty-four frequency losses in ppm, packed. -/
def Chip.ageing (c : Chip) (w : Nat) : Chip :=
  forN 24 (fun i c => c.setReg (0xB00100 + 4 * i) (BitVec.ofNat 32 (reading w i))) c

/-- The refresh rate a retention margin asks for (R439). -/
def refreshOf (ms : Nat) : Nat := if ms ≥ 128 then 0 else if ms ≥ 64 then 1 else 2
/-- HLT_DERATE.DERATE follows DERATE_SW and REFX. -/
def Chip.derate (c : Chip) : Chip :=
  c.setF 0xB00014 31 16 (satN 65535 (c.regF 0xB00014 15 0 + [0, 60, 180].getD (c.regF 0xB00040 1 0) 180))
/-- The retention margin in ms. -/
def Chip.retention (c : Chip) (ms : Nat) : Chip :=
  let want := refreshOf ms
  (c.setF 0xB00040 31 16 ms).modHlt fun h => { h with refx := if want = c.regF 0xB00040 1 0 then none else some want }
/-- The refresh rate changes at a ring-cycle boundary. (Model: DEDUCED, log 85) -/
def Chip.refreshChange (c : Chip) : Chip := match c.hlt.refx with
  | none => c
  | some r =>
    if !c.ticking || c.tick % c.ringCycle != 0 then c
    else (((c.setF 0xB00040 1 0 r).derate).modHlt fun h => { h with refx := none }).fire 442

/-- The eye of a link: height in mV and width in 1/64 UI. -/
def Chip.eye (c : Chip) (p h w : Nat) : Chip :=
  let c := c.setReg (0xB00600 + 4 * p) (BitVec.ofNat 32 (h * 65536 + w))
  if h < c.regF 0xB00044 31 16 ∨ w < c.regF 0xB00044 15 0 then (c.hltStat 1).fire 441 else c
/-- The on-resistance of a switch in mΩ. -/
def Chip.ron (c : Chip) (k r : Nat) : Chip :=
  let c := c.setF (0xB00500 + 4 * k) 15 0 r
  if r > c.regF (0xB00500 + 4 * k) 31 16 then (c.hltStat 2).fire 440 else c

/-! ## Supplies (R441 to R444) -/

/-- The warning level of a rail, and its reset or off level, in units of 0.1 mV (R441). -/
def railWarn (r : Nat) : Nat := [7275, 8245, 10670, 5820, 17460, 32010, 192000, 192000].getD r 0
def railOff (r : Nat) : Nat := [6975, 7905, 10230, 5580, 16740, 30690, 160000, 160000].getD r 0

/-- A rail falls: below its warning level a dip may begin, and non-volatile writes are inhibited. (Model: DEDUCED, log 85) -/
def Chip.dipStart (c : Chip) (r mv : Nat) : Chip :=
  if 10 * mv < railWarn r then
    c.modHlt fun h => { h with inhibit := true, dipping := if h.dipping.contains r then h.dipping else r :: h.dipping }
  else c

/-- A rail stands above its warning level again after `dur` µs below it with its minimum in mV: a dip, unless it reached its reset or
off level or was never below its warning level. (Model: DEDUCED, log 85) -/
def Chip.dipOver (c : Chip) (r dur vmin : Nat) : Chip :=
  if !c.hlt.dipping.contains r then c
  else
    let now := c.tb3
    let old := tabGet (fun _ => none) c.hlt.vmin r
    let low := match old with | some v => min v vmin | none => vmin
    let c := c.modHlt fun h => { h with
      dipping := h.dipping.filter (· != r), dipEnd := now, vmin := tabPut (fun _ => none) h.vmin r (some low) }
    if 10 * vmin ≤ railOff r ∨ railWarn r ≤ 10 * vmin then c
    else
      let c := c.modHlt fun h => { h with dips := now :: h.dips.filter fun t => decide (now < t + 60000000000) }
      let c := (c.setReg 0xB00030 (BitVec.ofNat 32 (r * 2 ^ 28 + satN 65535 dur))).setReg 0xB00034 (BitVec.ofNat 32 vmin)
      let c := (c.hltStat 4).fire 438
      if c.hlt.dips.length > c.regF 0xB00038 7 0 then
        let c := c.hltStat 3
        let due := match c.hlt.rateAt with | some t => decide (t + 60000000000 ≤ now) | none => true
        if due then (c.modHlt fun h => { h with rateAt := some now }).fire 439 else c
      else c

/-- 1 ms after the end of the last dip: held flash operations resume. -/
def Chip.inhibitEnd (c : Chip) : Chip :=
  if !c.hlt.inhibit || !c.hlt.dipping.isEmpty || decide (c.tb3 < c.hlt.dipEnd + 1000000) then c
  else
    let l := c.hlt.nvWait
    forL l (fun e c => c.confProgram e.1 e.2) (c.modHlt fun h => { h with inhibit := false, nvWait := [] })

/-! ## Registers (R447) -/

/-- A write of HLT_CTRL. (Model: DEDUCED, log 85) -/
def Chip.hltCtrl (c : Chip) (v : W32) : Chip :=
  let floorBad := decide (fld v 2 0 > 4)
  let c := if floorBad then c.hltStat 0 else c.setF 0xB00004 2 0 (fld v 2 0)
  let c := if fld v 15 8 < 10 then c.hltStat 0 else c
  let v := if fld v 15 8 < 10 then setFld v 15 8 (c.regF 0xB00004 15 8) else v
  let good := decide (fld v 23 16 > fld v 31 24) && decide (fld v 15 8 < fld v 31 24)
  if c.inConfig && good then c.setF 0xB00004 31 8 (fld v 31 8) else c.hltStat 0

/-- A write to a word of the HLT block. -/
def Chip.hltWrite (c : Chip) (x : Nat) (v : W32) : Chip :=
  let off := 0xB00000 + x
  if x = 4 then c.hltCtrl v
  else if x = 8 then
    let bad := decide (fld v 31 16 < 8) || decide (fld v 31 16 > 1024)
    (if bad then c.hltStat 0 else c).mapWrite off (if bad then setFld v 31 16 (c.regF off 31 16) else v)
  else if x = 0x14 then (c.mapWrite off v).derate
  else if x = 0x20 then c.shedCmd v
  else c.mapWrite off v

end Sys2Proof.Machine
end

