-- ==== Sys2Proof/Machine/MemBlk.lean ====
section
/-!
DEFINITION. The MEM block (R418, R425 to R432): configuration, reload, rebuild, the scrubber and the correction log.
-/
namespace Sys2Proof.Machine

/-- MEM_STAT.CFG_ERR. -/
def Chip.memCfgErr (c : Chip) : Chip := c.setB 0xA00000 0 true

/-- The lines of a region. -/
def Chip.regionLines (c : Chip) (r : Nat) : List Nat :=
  (List.range (c.regionLen r / 64)).map (· + c.regionBase r / 64)

/-- Entries of the line table inside a region that satisfy a test. -/
def Chip.linesIn (c : Chip) (r : Nat) (p : Line → Bool) : List Nat :=
  c.mem.lines.filterMap fun e => if c.regionHas r (64 * e.1) && p e.2 then some e.1 else none

/-- A write of MEM_RELOAD: the reload of the region starts (R426). -/
def Chip.memReload (c : Chip) (v : W32) : Chip :=
  let r := fld v 5 0
  if c.regB (memReg r 0) 31 && (c.regionKind r == 1 || bit v 31) then c.setB (memReg r 6) 30 true else c

/-- One line of a reload (R426): from its source, whose check finds `src`, or zeros into a poisoned line. A line without a source stays;
one whose source is lost is poisoned. (Model: DEDUCED, log 87) -/
def Chip.reloadLine (c : Chip) (l : Nat) (src : SrcCheck) : Chip :=
  match c.backing (64 * l) with
  | .backed g =>
    if g = .missing then c
    else if !c.sourceOk g src then ((c.sourceFailed g src).poisonLine l).memUncorr 6 3 0 (64 * l)
    else
      -- a DRAM source that flash restores is corrected first
      let c := match g, src with
        | .dram d, .bad _ => (((c.setBytes (d / 64 * 64) (match c.backing d with
            | .backed f => c.goldenBytes f
            | _ => c.bytesAt (d / 64 * 64) 64)).logCorrection (d / 64)).memCorr)
        | _, _ => c
      ((c.setBytes (64 * l) (c.goldenBytes g)).logDrop l).setLine l { c.line l with poisoned := false }
  | _ =>
    if (c.line l).poisoned then
      ((c.setBytes (64 * l) (List.replicate 64 0)).logDrop l).setLine l Line.good
    else c

/-- A reload ends: every line is done and RELOADING returns to 0. It waits while a line of the region is being
corrected (R423). `srcs` names the lines whose source fails its check. -/
def Chip.reloadDone (c : Chip) (r : Nat) (srcs : List (Nat × SrcCheck)) : Chip :=
  if c.regB (memReg r 6) 30 && !(c.mem.handling.any fun l => c.regionHas r (64 * l)) then
    let ls := if c.regionKind r = 1 then c.regionLines r else c.linesIn r fun x => x.poisoned
    (forL ls (fun l c => c.reloadLine l ((srcs.find? fun x => x.1 == l).elim .good (·.2))) c).setB (memReg r 6) 30 false
  else c

/-- The check of a line that a rebuild ends (R425, R426): it is good, a pending one with its correction logged, or it is poisoned.
A poisoned line whose check fails stays so. (Model: DEDUCED, log 87) -/
def Chip.rebuiltLine (c : Chip) (l : Nat) (bad : Bool) : Chip :=
  let x := c.line l
  if bad then (if x.pending then { c.poisonLine l with stf := true } else c)
  else
    let c := c.setLine l { x with pending := false, poisoned := false }
    if x.pending then (c.logCorrection l).memCorr else c

/-- The lines that a write of MEM_REBUILT checks: the pending and the poisoned ones of a recomputable region (R425, R426). -/
def Chip.rebuiltLines (c : Chip) (r : Nat) : List Nat :=
  c.linesIn r fun x => x.pending || (x.poisoned && c.regionKind r == 2)

/-- A write of MEM_REBUILT (R425, R426). `bad` lists the lines whose CRC was found invalid. -/
def Chip.memRebuilt (c : Chip) (v : W32) (bad : List Nat) : Chip :=
  forL (c.rebuiltLines (fld v 5 0)) (fun l c => c.rebuiltLine l (bad.contains l)) c

/-- A write of MEM_REBUILT by a command that does not say what the checks find: each finding is free. (Model: DESIGN CHOICE, log 13) -/
def Chip.memRebuiltFree (c : Chip) (v : W32) : Chip :=
  forL (c.rebuiltLines (fld v 5 0)) (fun l c =>
    let d := c.draw
    d.2.rebuiltLine l (d.1.toNat.testBit 0)) c

/-- A write of MEM_CFG (R432): an invalid period is ignored with CFG_ERR, a window of 0 is ignored. (Model: DEDUCED, log 15) -/
def Chip.memCfgWrite (c : Chip) (v : W32) : Chip :=
  let per := fld v 31 16
  let win := fld v 7 0
  let c := if 1 ≤ per ∧ per ≤ 3600 then c.setF 0xA00004 31 16 per else c.memCfgErr
  if win = 0 then c else c.setF 0xA00004 7 0 win

/-- A log entry older than WIN hours of TB3 goes (R427). -/
def Chip.logExpiry (c : Chip) (l : Nat) : Chip :=
  match c.mem.log.find? fun e => e.line == l with
  | some e => if e.first + c.regF 0xA00004 7 0 * 3600000000000 ≤ c.tb3 then c.logDrop l else c
  | none => c

/-! ## The scrubber (R430) -/

/-- The address of the i-th protected line, in scrub order: instruction memories, data memories, cell memory, DRAM. -/
def scrubAddr (i : Nat) : Nat :=
  if i < 32768 then podWin (i / 1024) + 0x40000 + i % 1024 * 64
  else if i < 163840 then podWin ((i - 32768) / 4096) + (i - 32768) % 4096 * 64
  else if i < 294912 then cellBase + (i - 163840) * 64
  else dramBase + (i - 294912) * 64

/-- Whether line `i` is the last of a pass. -/
def scrubLast (i : Nat) : Bool := decide (i ≥ 294912) && decide (dramBase + (i - 294911) * 64 ≥ crcBase)

/-- The scrubber reads and checks its next line; it waits while the line is being corrected (R423). -/
def Chip.scrubLine (c : Chip) (chk : LineCheck) : Chip :=
  let i := c.mem.scrubAt
  let wait := c.mem.handling.contains (scrubAddr i / 64)
  let c := (c.checkLine 4 0 (scrubAddr i) chk).1
  if wait then c
  else if scrubLast i then
    ({ c with mem := { c.mem with scrubAt := 0, scrubPer := c.regF 0xA00004 31 16 } }).fire 421
  else { c with mem := { c.mem with scrubAt := i + 1 } }

/-! ## The region table (R418) -/

/-- Whether a range lies in one memory a region may cover. -/
def regionPlaceOk (a n : Nat) : Bool :=
  inCell a n || inUsableDram a n ||
    (match spaceOf a with | .data p => decide (a + n ≤ podWin p + 0x40000) | _ => false)

/-- The check of one enabled region. -/
def Chip.regionOk (c : Chip) (r : Nat) : Bool :=
  let w := c.reg (memReg r 0)
  let a := c.regionBase r
  let n := c.regionLen r
  let k := c.regionKind r
  let s := c.regionSrc r
  k != 3 && a % 64 == 0 && n % 64 == 0 && regionPlaceOk a n
    && (k != 1 || (if inUsableDram a n then decide (s + n ≤ Config.flashSize) else inUsableDram s n))
    && (k != 2 || bit w 28 && !(fld w 20 16 == 31 && c.isTb (fld w 11 0)))

/-- The MEM block's check on leaving CONFIG. -/
def Chip.memLeave (c : Chip) : Chip × Bool :=
  let on := (List.range 64).filter fun r => c.regB (memReg r 0) 31
  if on.all c.regionOk && disjoint (on.map fun r => (c.regionBase r, c.regionLen r)) then (c, true)
  else (c.memCfgErr, false)

/-- A write to a word of the MEM block. -/
def Chip.memWrite (c : Chip) (x : Nat) (v : W32) : Chip :=
  if x = 4 then c.memCfgWrite v
  else if x = 8 then c.memReload v
  else if x = 0xC then c.memRebuiltFree v
  else if 0x100 ≤ x ∧ x < 0x2000 ∧ c.inConfig = false then c
  else c.mapWrite (0xA00000 + x) v

/-- The words of the MEM block that show line states. -/
def Chip.memView (c : Chip) (x : Nat) (w : W32) : W32 :=
  if 0x1000 ≤ x ∧ x < 0x1800 ∧ x % 32 = 24 then
    let r := (x - 0x1000) / 32
    let w := setBit w 31 (!(c.linesIn r fun l => l.pending).isEmpty)
    setFld w 15 0 (satN 0xFFFF (c.linesIn r fun l => l.poisoned).length)
  else w

end Sys2Proof.Machine
end

