-- ==== Sys2Proof/Machine/Homing.lean ====
section
/-!
DEFINITION. Switches, limits and homing of a profile channel (R221 to R231).
-/
namespace Sys2Proof.Machine

/-! ## Fields -/

def Chip.hstate (c : Chip) (k : Nat) : Nat := c.regF (homeReg k 16) 31 28
def Chip.setHstate (c : Chip) (k n : Nat) : Chip := c.setF (homeReg k 16) 31 28 n
def Chip.hmode (c : Chip) (k : Nat) : Nat := c.regF (homeReg k 0) 31 29
/-- Homing runs: HSTATE 1 to 5. -/
def Chip.homing (c : Chip) (k : Nat) : Bool := c.hstate k != 0
/-- The switch that HSW names: 0 the home switch, 1 LPOS, 2 LNEG. -/
def Chip.homeSw (c : Chip) (k : Nat) : Nat := c.regF (homeReg k 0) 27 26
/-- The qualified active level of switch `i`: LVL_H, LVL_P, LVL_N. -/
def Chip.swLevel (c : Chip) (k i : Nat) : Bool := c.regB (homeReg k 16) (7 - i)
def Chip.capt (c : Chip) (k : Nat) : Int := c.pairI (homeReg k 14)
def Chip.setCapt (c : Chip) (k : Nat) (p : Int) : Chip := c.setPairI (homeReg k 14) p
def Chip.modHome (c : Chip) (k : Nat) (f : HomeRun → HomeRun) : Chip := c.modChan k fun x => { x with home := f x.home }

/-! ## Switch inputs (R221, R222) -/

/-- The DIO levels in force for this tick: those latched at t₀ (R398), or the owner's (R354). -/
def Chip.dioLevels (c : Chip) : W32 := c.twin.dio.getD (c.reg 0xD00024)

/-- Whether switch `i` is active in this tick (R221). -/
def Chip.swActive (c : Chip) (k i : Nat) : Bool :=
  let w := c.reg (homeReg k (1 + i))
  let level := if bit w 29 then c.regB (recReg k 7) (24 + fld w 1 0) else bit c.dioLevels (fld w 4 0)
  bit w 31 && (level != bit w 30)

def Switch.zero : Switch := { level := false, count := 0, start := 0 }
def Chan.switch (x : Chan) (i : Nat) : Switch := tabGet (fun _ => Switch.zero) x.sw i
def Chan.setSwitch (x : Chan) (i : Nat) (s : Switch) : Chan := { x with sw := tabPut (fun _ => Switch.zero) x.sw i s }

/-- Whether a hysteresis window of the home switch is open (R228). (Model: DEDUCED, log 44) -/
def Chip.windowOpen (c : Chip) (k : Nat) : Bool := (c.chan k).home.window.isSome

/-- One tick of a switch: a qualified edge gives its new level and the position captured with it (R222). In a
hysteresis window the home switch only counts its raw changes (R228). (Model: DEDUCED, log 44) -/
def Chip.switchTick (c : Chip) (k i : Nat) : Chip × Option (Bool × Int) :=
  let x := c.chan k
  let s := x.switch i
  let lv := c.swActive k i
  if c.homing k && i == c.homeSw k && x.home.window.isSome then
    let n := if lv != s.level then x.home.changes + 1 else x.home.changes
    (c.setChan k { (x.setSwitch i { level := lv, count := 0, start := s.start }) with home := { x.home with changes := n } }, none)
  else
    let s := if s.count != 0 && lv == s.level then { s with count := satN 255 (s.count + 1) }
      else { level := lv, count := 1, start := c.obsPos k }
    let c := c.setChan k (x.setSwitch i s)
    if decide (s.count ≥ c.regF (homeReg k 0) 23 16) && lv != c.swLevel k i then
      (c.setB (homeReg k 16) (7 - i) lv, some (lv, s.start))
    else (c, none)

/-! ## Aborts and completion (R229, R230) -/

/-- An open hysteresis window ends with the sequence: CHAT_CNT shows its count (R228). (Model: DEDUCED, log 107) -/
def Chip.endWindow (c : Chip) (k : Nat) : Chip :=
  if c.windowOpen k then
    (c.modHome k fun h => { h with window := none }).setF (homeReg k 17) 7 0 (satN 255 (c.chan k).home.changes)
  else c

/-- An abort: FAIL, ABORT and the cause; the sequence ends (R230). (Model: DEDUCED, log 45) -/
def Chip.homeAbort (c : Chip) (k fail : Nat) : Chip :=
  let c := c.endWindow k
  ((((c.setHstate k 0).setF (homeReg k 16) 27 24 fail).setB (homeReg k 16) 1 true).modHome k fun h =>
    { h with window := none, stall := 0, zRaw := none }).chCause k 10

/-- An abort with the class A stop (R230: FAIL 1 to 4 and 6). -/
def Chip.homeAbortStop (c : Chip) (k fail : Nat) : Chip := (c.homeAbort k fail).stopNow k

/-- An abort at rest, where no stop remains to be made (R230: FAIL 6 on entry to CREEP). -/
def Chip.homeAbortRest (c : Chip) (k fail : Nat) : Chip := ((c.homeAbort k fail).effWritten k).setChState k stStopping

/-- Completion in this phase: Δ waits for the next tick (R229). -/
def Chip.homeComplete (c : Chip) (k : Nat) : Chip :=
  ((c.endWindow k).modHome k fun h => { h with delta := some (wrapQ (c.pairI (homeReg k 4) - c.capt k)) }).setChState k stIdle

/-- The profile part of a completion, in the next tick: the held position, compare units, HOMED (R229). -/
def Chip.homeSettle (c : Chip) (k : Nat) : Chip := match (c.chan k).home.delta with
  | none => c
  | some d =>
    let c := c.modChan k fun x => { x with hold := wrapQ (x.hold + d), home := HomeRun.zero }
    let shift := fun (e : Nat × CmpUnit) =>
      if fld (c.reg (cmpReg e.1 0)) 7 0 = k then
        (e.1, { e.2 with last := e.2.last.map fun l => (l.1, wrapQ (l.2 + d)) }) else e
    let c := c.modPrf fun p => { p with cmps := p.cmps.map shift }
    ((c.setHstate k 0).setB (homeReg k 16) 10 true).chCause k 9

/-- A velocity plan of homing, from the present plan state (R227). -/
def Chip.homeVel (c : Chip) (k : Nat) (v : W32) (neg : Bool) : Chip :=
  let v := if neg then fneg v else v
  c.modChan k fun x => { x with plan := some (planVel (c.limits k) x.v x.a v) }

/-- HDIR: the search direction is negative. -/
def Chip.hdir (c : Chip) (k : Nat) : Bool := c.regB (homeReg k 0) 28

/-- Whether HOME is refused (R225). (Model: DEDUCED, log 45) -/
def Chip.homeRefused (c : Chip) (k : Nat) : Bool :=
  let m := c.hmode k
  let vs := c.reg (homeReg k 6)
  let vc := c.reg (homeReg k 7)
  let vmax := c.reg (prfCh k 1)
  !c.obsActive k
    || ((m == 1 || m == 3) && !c.regB (homeReg k (1 + c.homeSw k)) 31)
    || !positive32 vs || f32Lt vmax vs || !nonneg32 vc || f32Lt vmax vc
    || ((m == 2 || m == 3) && !(c.obsSrc k == 3 && (c.lchMode (c.obsLch k) == 0 || c.lchMode (c.obsLch k) == 2)
        && c.reg (obsReg k 7) != 0))
    || (m == 4 && (decide (k > 127) || !c.xfEn k || !positive32 (c.reg (homeReg k 8)) || !positive32 (c.reg (homeReg k 9))))
    || (if c.hdir k then c.blkNeg k else c.blkPos k)

/-- HOME (R225 to R227, R229). -/
def Chip.cmdHome (c : Chip) (k : Nat) : Chip :=
  if c.chState k != stIdle then c.cmdIgn k
  else if c.homeRefused k then c.planErr k
  else
    let c := (c.setB (homeReg k 16) 10 false).modHome k fun _ => HomeRun.zero
    if c.hmode k = 0 then (c.setCapt k (c.obsPos k)).homeComplete k
    else (((c.fold k).setHstate k 1).homeVel k (c.reg (homeReg k 6)) (c.hdir k)).setChState k stHoming

/-- CLR_LIM (R224, R225). -/
def Chip.cmdClrLim (c : Chip) (k : Nat) : Chip :=
  if c.chState k = stOff then c.cmdIgn k
  else if c.swLevel k 1 || c.swLevel k 2 then c.planErr k
  else c.setF (homeReg k 16) 9 8 0

/-! ## Unexpected limits (R223) -/

/-- Whether switch `i` serves the running homing mode as its home switch. -/
def Chip.swIsHome (c : Chip) (k i : Nat) : Bool :=
  c.homing k && (c.hmode k == 1 || c.hmode k == 3) && c.homeSw k == i

/-- An unexpected limit; the Bool says whether it changed the channel's state. (Model: DEDUCED, log 44) -/
def Chip.limitHit (c : Chip) (k i : Nat) : Chip × Bool :=
  let c := ((c.setB (homeReg k 16) (if i = 1 then 9 else 8) true).setB (homeReg k 16) 0 true).chCause k 11
  let st := c.chState k
  if st = stHoming then (c.homeAbortStop k 4, true)
  else if st = stRunA ∨ st = stRunB ∨ st = stPausing ∨ st = stPaused then (c.cmdStop k, true)
  else if st = stArmed then ((c.modChan k fun x => { x with armed := none }).setChState k stIdle, true)
  else (c, false)

/-! ## The sequence (R226 to R228) -/

/-- Opens a hysteresis window (R228). -/
def Chip.openWindow (c : Chip) (k : Nat) : Chip :=
  let n := c.regF (homeReg k 10) 15 0
  c.modHome k fun h => { h with window := if n = 0 then none else some n, changes := 0 }

/-- The window counts a tick and, when it closes, its count is shown; the Bool says that the count exceeds CHAT_MAX (R228).
(Model: DEDUCED, log 107) -/
def Chip.windowTick (c : Chip) (k : Nat) : Chip × Bool :=
  let h := (c.chan k).home
  match h.window with
  | none => (c, false)
  | some n =>
    let d := if n > 1 then c.modHome k fun h => { h with window := some (n - 1) } else c.endWindow k
    (d, decide (h.changes > c.regF (homeReg k 0) 15 8))

/-- Chatter aborts homing (R228). -/
def Chip.homeChatter (c : Chip) (k : Nat) : Chip :=
  (((c.setB (homeReg k 16) 2 true).chCause k 12)).homeAbortStop k 3

/-- A tick of homing time; the Bool says TIMEOUT has elapsed (R230). -/
def Chip.homeClock (c : Chip) (k : Nat) : Chip × Bool :=
  let c := c.modHome k fun h => { h with elapsed := h.elapsed + 1 }
  let t := (c.reg (homeReg k 11)).toNat
  (c, t != 0 && decide ((c.chan k).home.elapsed ≥ t))

/-- The final stop of a capture. -/
def Chip.homeFinal (c : Chip) (k : Nat) (p : Int) : Chip := ((c.setCapt k p).makeStop k).setHstate k 5

/-- A capture at a Z edge (R226). -/
def Chip.homeIndex (c : Chip) (k : Nat) (z : Int) : Chip :=
  (c.modHome k fun h => { h with zRaw := some z }).homeFinal k (c.rawPosW k z)

/-- The hard-stop condition of this tick (R226). -/
def Chip.stallNow (c : Chip) (k : Nat) : Bool :=
  f32Le (c.reg (homeReg k 8)) (fabs (c.reg (xfReg k 3))) && f32Le (fabs (c.obsVel k)) (c.reg (homeReg k 9))

/-- Completion by the hard stop: the captured POS is held (R227). -/
def Chip.homeStalled (c : Chip) (k : Nat) : Chip :=
  let p := c.obsPos k
  ((c.setCapt k p).modChan k fun x => { x with hold := p, plan := none, v := 0, a := 0 }).homeComplete k

/-- One tick of the hard-stop condition (R226). -/
def Chip.stallTick (c : Chip) (k : Nat) : Chip :=
  let n := if c.stallNow k then (c.chan k).home.stall + 1 else 0
  let c := c.modHome k fun h => { h with stall := n }
  if n ≥ max 1 (c.regF (homeReg k 0) 7 0) then c.homeStalled k else c

/-- The home-switch edge, Z edge or stall of this tick acts on the sequence (R227). -/
def Chip.homeCapture (c : Chip) (k : Nat) (edge : Option (Bool × Int)) : Chip :=
  let m := c.hmode k
  let creep := c.reg (homeReg k 7)
  let z := ((c.lch (c.obsLch k)).zTick).head?
  match c.hstate k, m, edge, z with
  | 1, 1, some (true, p), _ =>
    if isZero32 creep then (c.homeFinal k p).openWindow k
    else ((c.makeStop k).setHstate k 2).openWindow k
  | 1, 3, some (true, _), _ =>
    let c := if isZero32 creep then c else c.homeVel k creep (c.hdir k)
    (c.setHstate k 4).openWindow k
  | 1, 2, _, some e => c.homeIndex k e
  | 1, 4, _, _ => c.stallTick k
  | 3, _, some (false, p), _ => (c.homeFinal k p).openWindow k
  | 4, _, _, some e => c.homeIndex k e
  | _, _, _, _ => c

/-- The motion of one tick of homing, and arrival at rest (R227). CREEP waits for the window to close (R228). (Model: DEDUCED, log 107) -/
def Chip.homeMotion (c : Chip) (k : Nat) : Chip :=
  let still := (c.chan k).plan.isNone
  let r := c.runStop k
  let c := r.1
  if c.hstate k = 2 then
    if !(r.2 || still) || c.windowOpen k then c
    else if c.swLevel k (c.homeSw k) then (c.setHstate k 3).homeVel k (c.reg (homeReg k 7)) (!c.hdir k)
    else c.homeAbortRest k 6
  else if r.2 && c.hstate k == 5 then c.homeComplete k
  else c

end Sys2Proof.Machine
end

