-- ==== Sys2Proof/Machine/ProfPhase.lean ====
section
/-!
DEFINITION. The profile phase (R190, R200): writes and their rules, the events of a channel in rank order, position
compare (R214 to R218), stepper channels (R232 to R236), and the causes (R219).
-/
namespace Sys2Proof.Machine

/-! ## Writes as they take effect (R192, R204, R218, R236, R237, R244, R262) -/

/-- EN 0: the channel enters OFF at once (R192, R230). A homing that completed in the tick before takes its effect.
(Model: DEDUCED, log 45) -/
def Chip.channelOff (c : Chip) (k : Nat) : Chip :=
  let c := if (c.chan k).home.delta.isSome then c.homeSettle k else if c.homing k then c.homeAbort k 7 else c
  let c := ((c.kappaBack k).unbind k).effWritten k
  ((c.modChan k fun x => { x with armed := none, plan := none, move := none }).setB (chst k 0) 6 false).setChState k stOff

/-- A write to a word of PRF_CH. -/
def Chip.chanWrite (c : Chip) (k w : Nat) (v : W32) : Chip :=
  let old := c.reg (prfCh k w)
  if w = 0 then
    let st := c.chState k
    let bad := fld old 28 24 != fld v 28 24 && !(st == stIdle || st == stOff)
    let c := if bad then c.prfIgn else c
    let c := c.mapWrite (prfCh k 0) (if bad then setFld v 28 24 (fld old 28 24) else v)
    if bit old 31 && !bit v 31 then c.channelOff k else c
  else if w ≤ 8 then
    if !positive32 v || (7 ≤ w && !c.inConfig && c.sepHolds k) then c.prfIgn
    else
      let c := c.setReg (prfCh k w) v
      let c := if (w = 3 ∨ w = 4) ∧ c.chState k ≠ stRunA then c.effWritten k else c
      if w ≤ 4 && old != v then c.modChan k fun x => { x with limW := true } else c
  else if w = 9 then
    if !(nonneg32 v && f32Le v f32One) || (!c.inConfig && c.sepHolds k) then c.prfIgn
    else (c.setReg (prfCh k 9) v).modChan k fun x => { x with kapW := true }
  else if w = 13 then c.modPrf fun p => { p with cmds := p.cmds ++ [PrfCmd.cmd k v] }
  else c.mapWrite (prfCh k w) v

/-- A write to a word of PRF_TBL (R210). -/
def Chip.tblWrite (c : Chip) (t w : Nat) (v : W32) : Chip :=
  if w = 5 then c.tabCommitWrite t v
  else if w < 5 && c.tabBound t then c.prfIgn
  else c.mapWrite (tblReg t w) v

/-- A write to PRF_GFIRE (R213). A fire whose tick has passed is refused. (Model: DEDUCED, log 46) -/
def Chip.gfireWrite (c : Chip) (v : W32) : Chip :=
  let g := fld v 4 0
  if !bit v 31 then c.modPrf fun p => { p with cmds := p.cmds ++ [PrfCmd.fire g] }
  else
    let t := c.pair (prfGrp g 2)
    if t < c.tick || (t == c.tick && c.ticked && !c.ticking) then c.prfStat 2
    else (c.setB (prfGrp g 4) 31 true).modPrf fun p => { p with fireAt := tabPut (fun _ => none) p.fireAt g (some t) }

def CmpUnit.zero : CmpUnit := { last := none, fresh := false, formed := 0 }
def Chip.cmpUnit (c : Chip) (u : Nat) : CmpUnit := tabGet (fun _ => CmpUnit.zero) c.prf.cmps u
def Chip.setCmpUnit (c : Chip) (u : Nat) (x : CmpUnit) : Chip :=
  c.modPrf fun p => { p with cmps := tabPut (fun _ => CmpUnit.zero) p.cmps u x }

/-- The rule for STEP and DIR (R218). (Model: DEDUCED, log 46) -/
def stepOk (dir : Nat) (step : Int) : Bool :=
  (dir == 1 && decide (0 ≤ step)) || (dir == 2 && decide (step ≤ 0)) || (dir == 3 && step == 0)

/-- A write to a word of PRF_CMP, made at TB0 time `now` in ns (R215, R218). STEP 0 steps nothing and breaks no rule.
(Model: DEDUCED, log 46) -/
def Chip.cmpWrite (c : Chip) (u w : Nat) (v : W32) (now : Nat) : Chip :=
  let fresh := fun (c : Chip) => c.setCmpUnit u { c.cmpUnit u with fresh := true, formed := now }
  if w = 0 then
    let old := c.reg (cmpReg u 0)
    let check := bit v 31 && (!bit old 31 || fld old 29 28 != fld v 29 28)
    if check && !stepOk (fld v 29 28) (c.pairI (cmpReg u 3)) then c.prfIgn
    else
      let c := c.mapWrite (cmpReg u 0) v
      if bit v 31 then c.setCmpUnit u { c.cmpUnit u with fresh := true } else c
  else if w = 1 ∨ w = 2 then fresh (c.setReg (cmpReg u w) v)
  else c.mapWrite (cmpReg u w) v

/-- A write to a word of PRF_HOME (R237). -/
def Chip.homeWrite (c : Chip) (k w : Nat) (v : W32) : Chip :=
  if c.homing k then c.prfIgn
  else if w = 0 then
    let old := c.reg (homeReg k 0)
    let badM := decide (fld v 31 29 > 4)
    let badS := fld v 27 26 == 3
    let v := if badM then setFld v 31 29 (fld old 31 29) else v
    let v := if badS then setFld v 27 26 (fld old 27 26) else v
    (if badM || badS then c.prfIgn else c).mapWrite (homeReg k 0) v
  else if (w = 12 ∨ w = 13) ∧ c.inConfig = false then c.prfIgn
  else c.mapWrite (homeReg k w) v

def Stepper.zero : Stepper :=
  { prev := none, rest := 0, next := [], now := [], step := false, dir := false, dirNext := false }
def Chip.stepper (c : Chip) (s : Nat) : Stepper := tabGet (fun _ => Stepper.zero) c.prf.steps s
def Chip.setStepper (c : Chip) (s : Nat) (x : Stepper) : Chip :=
  c.modPrf fun p => { p with steps := tabPut (fun _ => Stepper.zero) p.steps s x }

/-- EN 0 on a stepper channel: pins low, reference +0 with DIS, and FLT ends (R232, R233). -/
def Chip.stepperOff (c : Chip) (s : Nat) : Chip :=
  let c := ((c.setStepper s Stepper.zero).setB (stpReg s 10) 1 false).setB (stpReg s 10) 3 false
  (((c.setReg (strefReg s 0) 0).setReg (strefReg s 1) 0).setReg (strefReg s 2) 0).setReg (strefReg s 3) 1

/-- EN 1: the first count is taken without emission (R232). -/
def Chip.stepperOn (c : Chip) (s : Nat) : Chip :=
  ((c.setStepper s Stepper.zero).setReg (stpReg s 7) 0).setB (stpReg s 10) 3 false

/-- A write to a word of PRF_STP (R237). Fields out of range, and locked fields that a write would change, are ignored.
(Model: DEDUCED, log 107) -/
def Chip.stpWrite (c : Chip) (s w : Nat) (v : W32) : Chip :=
  let old := c.reg (stpReg s w)
  let locked := !c.inConfig && c.regB (stpReg s 0) 31
  if w = 0 then
    let lost := locked && (old &&& 0x7FE000FF#32) != (v &&& 0x7FE000FF#32)
    let bad := !locked && decide (fld v 29 27 > 4)
    let c := if lost || bad then c.prfIgn else c
    let c := c.mapWrite (stpReg s 0)
      (if lost then (v &&& 0x80000000#32) ||| (old &&& 0x7FE000FF#32) else if bad then setFld v 29 27 (fld old 29 27) else v)
    if bit old 31 && !bit v 31 then c.stepperOff s
    else if !bit old 31 && bit v 31 then c.stepperOn s else c
  else if w = 4 ∨ w = 5 then c.setReg (stpReg s w) v
  else if w = 6 then
    if locked && fld old 15 0 != fld v 15 0 then c.prfIgn.setF (stpReg s 6) 31 16 (fld v 31 16)
    else c.setReg (stpReg s 6) v
  else if locked && w ≤ 3 then c.prfIgn
  else if w = 2 then
    let ms := fld v 8 0
    if ms = 0 ∨ ms > 256 then (c.prfIgn).mapWrite (stpReg s 2) (setFld v 8 0 (fld old 8 0)) else c.mapWrite (stpReg s 2) v
  else c.mapWrite (stpReg s w) v

/-- A write to a word of a microstep table (R236). -/
def Chip.mstabWrite (c : Chip) (t w : Nat) (v : W32) : Chip :=
  let used := (List.range 32).any fun s => c.regB (stpReg s 0) 31 && c.regB (stpReg s 0) 30 && c.regF (stpReg s 0) 29 27 == t
  if t = 0 then (if used then c.prfIgn else c)
  else if used then c.prfIgn
  else c.setReg (0x33D000 + 512 * t + 4 * w) v

/-- A write to a word of the PRF block, as it takes effect; `now` is the TB0 time in ns of the write. (Model: DEDUCED, log 36) -/
def Chip.prfApply (c : Chip) (x : Nat) (v : W32) (now : Nat) : Chip :=
  if x = 4 then c.gfireWrite v
  else if 0x10000 ≤ x ∧ x < 0x14000 then c.chanWrite ((x - 0x10000) / 64) (x % 64 / 4) v
  else if 0x31000 ≤ x ∧ x < 0x31800 then c.tblWrite ((x - 0x31000) / 32) (x % 32 / 4) v
  else if 0x32000 ≤ x ∧ x < 0x33000 then c.cmpWrite ((x - 0x32000) / 64) (x % 64 / 4) v now
  else if 0x34000 ≤ x ∧ x < 0x3C000 then c.homeWrite ((x - 0x34000) / 128) (x % 128 / 4) v
  else if 0x3C000 ≤ x ∧ x < 0x3C800 then c.stpWrite ((x - 0x3C000) / 64) (x % 64 / 4) v
  else if 0x3D000 ≤ x ∧ x < 0x3DA00 then c.mstabWrite ((x - 0x3D000) / 512) (x % 512 / 4) v
  else c.mapWrite (0x300000 + x) v

/-- A write to the PRF block arrives (R190): it waits for the next profile phase; while no ticks run it takes effect at
once. (Model: DEDUCED, log 36) -/
def Chip.prfWrite (c : Chip) (x : Nat) (v : W32) : Chip :=
  if c.ticking then c.modPrf fun p => { p with writes := p.writes ++ [(x, v, c.tb0Ns)] }
  else c.prfApply x v c.tb0Ns

/-- The block with the waiting writes taken: what its RW fields read back (R220, R239). (Model: DEDUCED, log 36) -/
def Chip.prfAhead (c : Chip) : Chip := forL c.prf.writes (fun e c => c.prfApply e.1 e.2.1 e.2.2) c

/-- The words of the PRF block that show the engine's stores; RW fields read back the value written. (Model: DEDUCED,
log 48) (Model: DEDUCED, log 48) -/
def Chip.prfView (c : Chip) (x : Nat) (w : W32) : W32 :=
  let w := if c.prf.writes.any (fun e => e.1 == x) then rwOver (0x300000 + x) w (c.prfAhead.reg (0x300000 + x)) else w
  if 0x20000 ≤ x ∧ x < 0x22000 then
    let k := (x - 0x20000) / 32
    let ch := c.chan k
    if x % 32 = 20 then match ch.tab with
      | some r => BitVec.ofNat 32 (c.tabActive r.table * 65536 + r.seg)
      | none => 0
    else if x % 32 = 24 then match ch.move with
      | some (.pos t) => toF (wrapQ (t - c.spPos k))
      | _ => 0
    else w
  else if 0x31800 ≤ x ∧ x < 0x31C00 ∧ x % 32 = 16 then
    let g := (x - 0x31800) / 32
    setFld w 8 0 ((c.chanKeys.filter fun k => c.chState k == stArmed && c.chGrp k == g).length)
  else w

/-! ## The events of one channel (R190, R200, R231) -/

/-- What the commands of a phase hold for a channel, in order: a command word, or a fire of its group. -/
inductive ChEvent where
  | word (w : W32)
  | fire
  /-- The RESUME of a released arm (R261). -/
  | release
  | latched
  deriving DecidableEq, Repr

/-- The rank of R200: STOP before PAUSE before the rest. -/
def ChEvent.rank : ChEvent → Nat
  | .word w => if fld w 31 28 = 6 ∧ bit w 27 = false then 3 else if fld w 31 28 = 4 ∧ bit w 27 = false then 4 else 5
  | _ => 5

/-- The event that prevails: the best rank, and of equal ranks the last. -/
def bestEvent : List ChEvent → Option ChEvent
  | [] => none
  | e :: l => match bestEvent l with
    | none => some e
    | some f => if e.rank < f.rank then some e else some f

/-- One command acts (R199, R225). -/
def Chip.runCommand (c : Chip) (k : Nat) (w : W32) : Chip :=
  let cmd := fld w 31 28
  let arm := bit w 27
  let st := c.chState k
  if st = stOff then c.cmdIgn k
  else if arm && !(cmd == 1 || cmd == 2 || cmd == 3) then c.cmdIgn k
  else if cmd = 9 then c.cmdClrLim k
  else if st = stHoming then (if cmd = 6 then c.homeAbortStop k 1 else c.cmdIgn k)
  else if st = stStopping ∨ st = stFault then c.cmdIgn k
  else match cmd with
    | 0 => c.cmdDisarm k
    | 1 | 2 | 3 => c.cmdMove k cmd (fld w 5 0) arm
    | 4 => c.cmdPause k
    | 5 => c.cmdResume k
    | 6 => c.cmdStop k
    | 8 => c.cmdHome k
    | _ => c.cmdIgn k

/-- The RESUME of a released arm: a PAUSED class B channel runs from rest with κ at the new GOAL (R198, R261). -/
def Chip.releaseResume (c : Chip) (k : Nat) : Chip :=
  let d := c.runCommand k 0x50000000#32
  if c.chState k = stPaused ∧ d.chState k = stRunB then
    (d.modChan k fun x => { x with kplan := none }).setKappa k (d.kappaTgt k) 0
  else d

def Chip.runEvent (c : Chip) (k : Nat) : ChEvent → Chip
  | .word w => c.runCommand k w
  | .fire => c.fireMember k
  | .release => c.releaseResume k
  | .latched => c.cmdResume k

/-- The events of a channel: the prevailing one acts, the others are ignored. -/
def Chip.runEvents (c : Chip) (k : Nat) (l : List ChEvent) : Chip := match bestEvent l with
  | none => c
  | some e => (if l.length > 1 then c.cmdIgn k else c).runEvent k e

/-- Every event is discarded: an earlier rank changed the state (R200). -/
def Chip.discardEvents (c : Chip) (k : Nat) (l : List ChEvent) : Chip := if l.isEmpty then c else c.cmdIgn k

/-- A channel that stands in OFF with EN 1 enters IDLE, or FAULT, unless its observer is uninitialised (R192). -/
def Chip.enterIdle (c : Chip) (k : Nat) : Chip :=
  if c.chState k = stOff && c.chEn k && !(c.obsActive k && !c.obsInit k) then
    let c := (c.modChan k fun x => { x with hold := c.obsPos k, plan := none, move := none }).setChState k stIdle
    if c.obsFault k then c.enterFault k else c
  else c

/-- A homing channel's events below a limit: STOP, chatter, timeout, capture (R231). -/
def Chip.homingEvents (c : Chip) (k : Nat) (l : List ChEvent) (edge : Option (Bool × Int)) : Chip :=
  let c := c.runEvents k l
  if c.chState k != stHoming then c
  else
    let win := c.windowTick k
    let c := win.1
    if win.2 then c.homeChatter k
    else
      let t := c.homeClock k
      if t.2 then t.1.homeAbortStop k 2 else t.1.homeCapture k edge

/-- The events of ranks 1 to 5 (R200). -/
def Chip.chanEvents (c : Chip) (k : Nat) (cmds : List PrfCmd) : Chip :=
  let c := (c.homeSettle k).enterIdle k
  let st := c.chState k
  let held := c.obsFault k
  let c := if st = stFault && !held && ((c.chan k).fact || (c.chan k).plan.isNone) then c.leaveFault k else c
  let h0 := c.switchTick k 0
  let h1 := h0.1.switchTick k 1
  let h2 := h1.1.switchTick k 2
  let c := h2.1
  let edges := [h0.2, h1.2, h2.2]
  let homeEdge := (edges[c.homeSw k]?).getD none
  let hits := [1, 2].filter fun i => (match edges[i]? with | some (some (true, _)) => true | _ => false) && !c.swIsHome k i
  let st := c.chState k
  let ev := cmds.filterMap fun x => match x with
    | .cmd j w => if j = k then some (ChEvent.word w) else none
    | .release j => if j = k then some ChEvent.release else none
    | .fire g => if st = stArmed ∧ c.chGrp k = g then some ChEvent.fire else none
  let late := st == stPaused && c.regB (chst k 0) 6
  let ev := if late then ChEvent.latched :: ev else ev
  let c := if late then c.setB (chst k 0) 6 false else c
  if held && st != stOff && st != stFault then
    let c := if c.homing k then c.homeAbort k 5 else c
    let c := forL hits (fun i c => (c.limitHit k i).1) (c.enterFault k)
    c.discardEvents k ev
  else
    let al := c.allowanceTick k
    let lim := hits.foldl (fun r i => let x := r.1.limitHit k i; (x.1, r.2 || x.2)) (al.1, false)
    let c := lim.1
    if al.2 || lim.2 then c.discardEvents k ev
    else if st = stHoming then c.homingEvents k ev homeEdge
    else
      let c := c.runEvents k ev
      -- an unexpected limit of this phase aborts a mode 0 homing applied in it (R223)
      if !hits.isEmpty && (c.chan k).home.delta.isSome then
        (c.modHome k fun _ => HomeRun.zero).homeAbortStop k 4
      else c

/-- Rank 6: limit writes and a new goal of κ (R197, R204). A goal written while PAUSING or PAUSED is stored alone (R202), one
written while homing runs waits for its end (R227). `made` tells that a plan was made in this phase. -/
def Chip.chanLimits (c : Chip) (k : Nat) (made : Bool) : Chip :=
  let x := c.chan k
  let st := c.chState k
  let waits := c.homing k
  let c := c.modChan k fun x => { x with limW := false, kapW := x.kapW && waits }
  let c := if x.kapW && !waits && st != stPausing && st != stPaused then c.kappaRamp k (c.kappaTgt k) else c
  if x.limW && st == stRunA && !made then c.applyLimits k else c

/-- The set-point of a channel for t₀ + one tick, by its state (R191). -/
def Chip.chanMotion (c : Chip) (k : Nat) : Chip :=
  let st := c.chState k
  let x := c.chan k
  let c := if st = stRunA || x.tab.isSome then c else c.kappaTick k
  if st = stOff then c.setSp k (c.obsPos k) (c.obsVel k) (c.obsAcc k)
  else if st = stRunA then c.runA k
  else if x.tab.isSome then c.runB k
  else if st = stPausing then
    let r := c.runStop k
    if r.2 then (r.1.setChState k stPaused).chCause k 2 else r.1
  else if st = stStopping then c.stoppingTick k
  else if st = stFault then
    if x.fact then c.setSp k (c.obsPos k) (c.obsVel k) (c.obsAcc k)
    else
      let r := c.runStop k
      if r.2 then
        let c := r.1.chCause k 8
        if c.obsFault k then c else c.setChState k stIdle
      else r.1
  else if st = stHoming then c.homeMotion k
  else c.setSp k x.hold 0 0

/-- One channel in one profile phase. -/
def Chip.chanPhase (c : Chip) (cmds : List PrfCmd) (k : Nat) : Chip :=
  let before := c.chan k
  let c := c.chanEvents k cmds
  let made := (c.chan k).plan != before.plan
  ((c.chanLimits k made).chanMotion k).showPhase k

/-! ## Position compare (R214 to R218) -/

/-- p(τ) of R214. -/
def predict (p : Int) (v a t : W32) : Int := wrapQ (p + toQ (ea (em v t) (em (em a f32Half) (em t t))))

/-- After a fire or MISSED (R218). -/
def Chip.cmpAfter (c : Chip) (u : Nat) (formed : Nat) : Chip :=
  let step := c.pairI (cmpReg u 3)
  if step = 0 then c.setB (cmpReg u 0) 31 false
  else if !stepOk (c.regF (cmpReg u 0) 29 28) step then (c.setB (cmpReg u 0) 31 false).prfIgn
  else (c.setPairI (cmpReg u 1) (wrapQ (c.pairI (cmpReg u 1) + step))).setCmpUnit u
    { c.cmpUnit u with fresh := true, formed := formed }

/-- A unit fires (R217): the pulse at `tc` in ns, STAMP, counters. (Model: DEDUCED, log 46) -/
def Chip.cmpFire (c : Chip) (u tc stamp : Nat) (late : Bool) : Chip :=
  let w := c.reg (cmpReg u 0)
  let c := if bit w 25 then
      let r := c.pulseRequest (fld w 20 16) (tc * 2 ^ 16) (c.regF (cmpReg u 5) 15 0)
      if r.2 then r.1 else (r.1.setB (cmpReg u 6) 3 true).prfStat 4
    else c
  let c := if bit w 26 then c.modPrf fun p => { p with cmds := p.cmds ++ [PrfCmd.fire (fld w 12 8)] } else c
  let s := c.reg (cmpReg u 6)
  let s := setBit (setBit (setFld s 31 16 ((fld s 31 16 + 1) % 65536)) 2 late) 0 true
  (((c.setReg (cmpReg u 6) s).setReg (cmpReg u 7) (BitVec.ofNat 32 (stamp / 1000000000))).setReg (cmpReg u 8)
    (BitVec.ofNat 32 (stamp % 1000000000))).cmpAfter u tc

/-- One armed unit in tick n (R214 to R216); the Bool asks for event 288 + u. -/
def Chip.cmpPhase (c : Chip) (u : Nat) : Chip × Bool :=
  let w := c.reg (cmpReg u 0)
  if !bit w 31 then (c, false)
  else
    let k := fld w 7 0
    let ts := c.tS
    let obs := bit w 30
    let p := if obs then c.obsPos k else c.spPos k
    let v := if obs then c.obsVel k else c.spVel k
    let a := if obs then c.obsAcc k else c.spAcc k
    let pe := predict p v a (if obs then ea ts ts else ts)
    let x := c.cmpUnit u
    let stored := match x.last with | some (n, l) => if n + 1 = c.tick ∧ x.fresh = false then some l else none | none => none
    let ps := stored.getD (predict p v a (if obs then ts else 0))
    let c := c.setCmpUnit u { x with last := some (c.tick, pe), fresh := false }
    let cmp := c.pairI (cmpReg u 1)
    let dir := fld w 29 28
    let behind := stored.isNone && ((dir == 1 && decide (cmp < ps)) || (dir == 2 && decide (cmp > ps)))
    if behind then
      if bit w 27 then
        -- the pulse may start at once; STAMP is the time at which CMP was formed (R215)
        (c.cmpFire u c.tb0Ns x.formed true, bit w 24)
      else ((c.setB (cmpReg u 6) 1 true).cmpAfter u x.formed, true)
    else
      let up := dir.testBit 0 && decide (ps ≤ cmp ∧ cmp < pe)
      let down := dir.testBit 1 && decide (ps ≥ cmp ∧ cmp > pe)
      if up || down then
        let frac := ed (toF (wrapQ (cmp - ps))) (toF (wrapQ (pe - ps)))
        let tn := ed (em (natF c.period) 0x447A0000#32) 0x42800000#32
        let tc := c.fbk.t0 + c.tickNs + (f32Fix 0 (em frac tn)).toNat + c.regF (cmpReg u 5) 31 16
        (c.cmpFire u tc tc false, bit w 24)
      else (c, false)

/-! ## Stepper channels (R232 to R235) -/

/-- S(e) of a microstep table (R235). -/
def Chip.microS (c : Chip) (t e : Nat) : Int :=
  let q := e / 256 % 4
  let i := if q % 2 = 0 then e % 256 else 255 - e % 256
  let w := c.reg (0x33D000 + 512 * t + 4 * (i / 2))
  let v := signed 16 (if i % 2 = 0 then fld w 15 0 else fld w 31 16)
  if q ≥ 2 then -v else v

/-- NMAX (R233); `turn` tells that the direction differs from the previous emission's. -/
def Chip.stepMax (c : Chip) (s : Nat) (turn : Bool) : Nat :=
  let tn := c.tickNs
  let pw := c.regF (stpReg s 3) 31 16
  if c.regB (stpReg s 0) 30 then tn * 256 / 5000
  else
    let n := min (tn * c.regF (stpReg s 2) 8 0 / 5000) (tn / (2 * pw))
    if turn then min n ((tn - c.regF (stpReg s 3) 15 0) / (2 * pw)) else n

/-- The reference record of OUTK 1 for the target count of R232 (R235). (Model: DEDUCED, log 107) -/
def Chip.stepRef (c : Chip) (s : Nat) (count : Int) (hold : Bool) : Chip :=
  let e := wrapN 10 count
  let t := c.regF (stpReg s 0) 29 27
  let cur := c.reg (stpReg s (if hold then 5 else 4))
  let one := fun n => em (em cur (intToF32 (c.microS t n))) 0x38000000#32
  (((c.setReg (strefReg s 0) (one e)).setReg (strefReg s 1) (one ((e + 256) % 1024))).setReg (strefReg s 2)
    (BitVec.ofNat 32 e)).setReg (strefReg s 3) (if hold then 2 else 0)

/-- HOLDING follows the ticks at rest of a channel with OUTK 1, the only one that has currents (R235). -/
def Chip.holdCurrent (c : Chip) (s : Nat) : Chip :=
  let h := c.regF (stpReg s 6) 31 16
  c.setB (stpReg s 10) 3 (c.regB (stpReg s 0) 30 && h != 0 && decide ((c.stepper s).rest ≥ h))

/-- The pulse offsets of n counts in ns (R234). -/
def pulseTimes (n tn lead : Nat) : List Nat := (List.range n).map fun i => lead + (2 * i + 1) * (tn - lead) / (2 * n)

/-- Emission of owed counts (R233, R234). -/
def Chip.stepEmit (c : Chip) (s : Nat) (delta : Int) : Chip :=
  let owed := (c.reg (stpReg s 7)).toInt + delta
  let pos := decide (owed > 0)
  let turn := owed != 0 && pos != c.regB (stpReg s 10) 2
  let n := min owed.natAbs (c.stepMax s turn)
  let sent : Int := if pos then (n : Int) else -(n : Int)
  let left := owed - sent
  let x := c.stepper s
  let c := c.setPairI (stpReg s 8) (wrapQ (c.pairI (stpReg s 8) + sent))
  let c := c.setReg (stpReg s 7) (BitVec.ofInt 32 left)
  let dirNow := if n = 0 then c.regB (stpReg s 10) 2 else pos
  let c := c.setB (stpReg s 10) 2 dirNow
  let step := !c.regB (stpReg s 0) 30
  let lead := if turn && n != 0 then c.regF (stpReg s 3) 15 0 else 0
  let c := c.setStepper s
    { x with rest := if n = 0 then x.rest + 1 else 0
             next := if step then pulseTimes n c.tickNs lead else []
             dirNext := if step then dirNow != c.regB (stpReg s 0) 26 else false }
  let g := c.regF (stpReg s 0) 25 21
  let c := if left != 0 then (c.setB (stpReg s 10) 0 true).grpCause g 13 else c
  let lag := c.regF (stpReg s 6) 15 0
  if lag != 0 && decide (left.natAbs > lag) then (c.setB (stpReg s 10) 1 true).grpCause g 14 else c

/-- A stopped channel goes on owing what it does not emit; COUNT and the reference hold (R233). -/
def Chip.stepOwe (c : Chip) (s : Nat) (delta : Int) : Chip :=
  let owed := (c.reg (stpReg s 7)).toInt + delta
  let c := (c.setReg (stpReg s 7) (BitVec.ofInt 32 owed)).setStepper s { c.stepper s with next := [] }
  if owed != 0 then (c.setB (stpReg s 10) 0 true).grpCause (c.regF (stpReg s 0) 25 21) 13 else c

/-- One stepper channel at the end of the profile phase. -/
def Chip.stepPhase (c : Chip) (s : Nat) : Chip :=
  let w := c.reg (stpReg s 0)
  if !bit w 31 then c
  else
    let t := shrI (c.spPos (fld w 7 0) * (c.reg (stpReg s 1)).toInt) (c.regF (stpReg s 2) 21 16)
    let x := c.stepper s
    let c := c.setStepper s { x with prev := some t }
    if c.regB (stpReg s 10) 1 then c.stepOwe s (t - x.prev.getD t)
    else
    let c := match x.prev with
      | none => c.setPairI (stpReg s 8) (wrapQ t)
      | some p => c.stepEmit s (t - p)
    if c.regB (stpReg s 10) 1 && bit w 30 then c
    else
    let c := c.holdCurrent s
    if bit w 30 then c.stepRef s t (c.regB (stpReg s 10) 3)
    else (((c.setReg (strefReg s 0) 0).setReg (strefReg s 1) 0).setReg (strefReg s 2) 0).setReg (strefReg s 3) 0

/-- At t₀: the pulses prepared for this tick, and the direction pin (R234). -/
def Chip.stepTick (c : Chip) (s : Nat) : Chip :=
  if !c.regB (stpReg s 0) 31 then c
  else let x := c.stepper s; c.setStepper s { x with now := x.next, next := [], dir := x.dirNext }

/-- A step pulse rises at its instant, or falls after PW (R234). -/
def Chip.stepPulse (c : Chip) (s : Nat) (rise : Bool) : Chip :=
  let x := c.stepper s
  if rise then
    match x.now with
    | _ :: rest => if x.step then c else c.setStepper s { x with now := rest, step := true }
    | [] => c
  else c.setStepper s { x with step := false }

/-! ## The phase (R190, R219) -/

/-- A pending fire of a group whose FIRE_TICK has come joins the fires of this phase; one that is past is dropped (R213).
(Model: DESIGN CHOICE, log 4) -/
def Chip.dueFire (c : Chip) (g : Nat) : Chip := match tabGet (fun _ => none) c.prf.fireAt g with
  | some t =>
    if c.tick < t then c
    else
      let c' := (c.setB (prfGrp g 4) 31 false).modPrf fun p => { p with fireAt := tabPut (fun _ => none) p.fireAt g none }
      if t = c.tick then c'.modPrf fun p => { p with cmds := p.cmds ++ [PrfCmd.fire g] } else c'
  | none => c

/-- Fires of this tick are written after every other write (R190). -/
def Chip.dueFires (c : Chip) : Chip := forL (c.prf.fireAt.map (·.1)) (fun g c => c.dueFire g) c

/-- The writes that waited take effect (R190). -/
def Chip.applyPrfWrites (c : Chip) : Chip :=
  let ws := c.prf.writes
  forL ws (fun e c => c.prfApply e.1 e.2.1 e.2.2) (c.modPrf fun p => { p with writes := [] })

/-- LAST_CYC: within the 400 ns of the phase (R15); the spec gives no exact value. (Model: DESIGN CHOICE, log 13) -/
def Chip.prfCycles (c : Chip) : Chip :=
  let r := c.draw
  r.2.setF 0x300000 31 16 (r.1.toNat % 321)

/-- The group sources, then the compare sources (R219). (Model: DEDUCED, log 48) -/
def Chip.prfEvents (c : Chip) (units : List Nat) : Chip :=
  let now := c.prf.now
  let c := forL now (fun x c => if x.2 &&& c.regF (prfGrp x.1 0) 15 0 != 0 then c.fire (256 + x.1) else c)
    (c.modPrf fun p => { p with now := [] })
  forL units (fun u c => c.fire (288 + u)) c

/-- The channel that a command names. -/
def PrfCmd.chan : PrfCmd → Option Nat
  | .cmd k _ => some k
  | .release k => some k
  | .fire _ => none

/-- The evaluation of a running table meets the poisoned lines of its segment. -/
def Chip.segMeets (c : Chip) (k : Nat) : Chip := match (c.chan k).tab with
  | some r => c.engineMeets (c.bankAddr r.table (c.tabActive r.table) + 32 + 16 * r.seg) 16
  | none => c

/-- The levels of pins STn_STEP and STn_DIR (R234, R492). -/
def Chip.stepPin (c : Chip) (s : Nat) : Bool := !c.pinsLow && (c.stepper s).step
def Chip.dirPin (c : Chip) (s : Nat) : Bool := !c.pinsLow && (c.stepper s).dir

/-- The profile phase of a tick (R190). -/
def Chip.profilePhase (c : Chip) : Chip :=
  let c := (c.applyPrfWrites).dueFires
  let cmds := c.prf.cmds
  let c := c.modPrf fun p => { p with cmds := [] }
  let ks := sortBy id ((c.chanKeys ++ cmds.filterMap PrfCmd.chan).eraseDups)
  let c := forL ks (fun k c => c.segMeets k) c
  let c := forL ks (fun k c => c.chanPhase cmds k) c
  let c := forL ks (fun k c => c.publishSp k) c
  let r := (List.range 64).foldl (fun (r : Chip × List Nat) u =>
    let x := r.1.cmpPhase u; (x.1, if x.2 then r.2 ++ [u] else r.2)) (c, [])
  let c := forN 32 (fun s c => c.stepPhase s) r.1
  (c.prfCycles).prfEvents r.2

end Sys2Proof.Machine
end

