-- ==== Sys2Proof/Machine/SepGeo.lean ====
section
/-!
DEFINITION. The geometry of the shared workspace (R240, R248 to R252, R254): headers, progress, poses, the grid and
distances. Every operator is one f32 operation with S set.
-/
namespace Sys2Proof.Machine

/-! ## Vectors and distances (R240, R252) -/

/-- A point or a vector, f32 components. -/
structure Vec where
  x : W32
  y : W32
  z : W32
  deriving DecidableEq, Repr

def Vec.map2 (f : W32 → W32 → W32) (a b : Vec) : Vec := { x := f a.x b.x, y := f a.y b.y, z := f a.z b.z }
def Vec.add (a b : Vec) : Vec := Vec.map2 ea a b
def Vec.sub (a b : Vec) : Vec := Vec.map2 es a b
def Vec.scale (a : Vec) (k : W32) : Vec := { x := em a.x k, y := em a.y k, z := em a.z k }
def Vec.dot (u v : Vec) : W32 := ea (ea (em u.x v.x) (em u.y v.y)) (em u.z v.z)
def Vec.norm (a : Vec) : W32 := esqrt (a.dot a)

/-- EPS. -/
def sepEps : W32 := 0x2B800000#32
/-- clamp(v, 0, 1.0). -/
def clamp01 (v : W32) : W32 := emin (emax v 0) f32One

/-- The parameters of the closest points of two axes. -/
def segParams (aa ee ff : W32) (c bb : W32) : W32 × W32 :=
  if f32Le aa sepEps && f32Le ee sepEps then (0, 0)
  else if f32Le aa sepEps then (0, clamp01 (ed ff ee))
  else if f32Le ee sepEps then (clamp01 (ed (fneg c) aa), 0)
  else
    let den := es (em aa ee) (em bb bb)
    let s := if f32Lt 0 den then clamp01 (ed (es (em bb ff) (em c ee)) den) else 0
    let t := ed (ea (em bb s) ff) ee
    if f32Lt t 0 then (clamp01 (ed (fneg c) aa), 0)
    else if f32Lt f32One t then (clamp01 (ed (es bb c) aa), f32One)
    else (s, t)

/-- seg_seg. (Model: DESIGN CHOICE, log 62) -/
def segSeg (a1 b1 a2 b2 : Vec) : W32 :=
  let d1 := b1.sub a1
  let d2 := b2.sub a2
  let r := a1.sub a2
  let st := segParams (d1.dot d1) (d2.dot d2) (d2.dot r) (d1.dot r) (d1.dot d2)
  ((a1.add (d1.scale st.1)).sub (a2.add (d2.scale st.2))).norm

/-- pt_box. -/
def ptBox (p c h : Vec) : W32 :=
  let one := fun (p c h : W32) => emax (es (fabs (es p c)) h) 0
  (Vec.mk (one p.x c.x h.x) (one p.y c.y h.y) (one p.z c.z h.z)).norm

/-- The 24 steps of seg_box. (Model: DESIGN CHOICE, log 62) -/
def segBoxSearch (a ab c h : Vec) : (n : Nat) → (lo hi : W32) → W32 × W32
  | 0, lo, hi => (lo, hi)
  | n + 1, lo, hi =>
    let third := em (es hi lo) 0x3EAAAAAA#32
    let m1 := ea lo third
    let m2 := es hi third
    if f32Le (ptBox (a.add (ab.scale m1)) c h) (ptBox (a.add (ab.scale m2)) c h) then segBoxSearch a ab c h n lo m2
    else segBoxSearch a ab c h n m1 hi

/-- seg_box. (Model: DESIGN CHOICE, log 62) -/
def segBox (a b c h : Vec) : W32 :=
  let ab := b.sub a
  let r := segBoxSearch a ab c h 24 0 f32One
  emin (emin (ptBox a c h) (ptBox b c h)) (ptBox (a.add (ab.scale (em (ea r.1 r.2) f32Half))) c h)

/-! ## Sets (R241) -/

def vecAt (b : List Byte) (o : Nat) : Vec :=
  { x := BitVec.ofNat 32 (leAt b o 4), y := BitVec.ofNat 32 (leAt b (o + 4) 4), z := BitVec.ofNat 32 (leAt b (o + 8) 4) }

/-- An arm header. -/
structure ArmHdr where
  flags    : W32
  deadline : W32
  ksw      : W32
  kf       : W32
  kd       : W32
  ka       : W32
  kj       : W32
  clear    : W32
  sweep    : W32
  tr       : W32
  ts       : W32
  as_      : W32
  c        : W32
  range    : W32
  deriving DecidableEq, Repr

def ArmHdr.en (h : ArmHdr) : Bool := bit h.flags 31
def ArmHdr.held (h : ArmHdr) : Bool := bit h.flags 30
def ArmHdr.rigid (h : ArmHdr) : Bool := bit h.flags 29
def ArmHdr.rel (h : ArmHdr) : Bool := bit h.flags 27
def ArmHdr.hasdl (h : ArmHdr) : Bool := bit h.flags 26
def ArmHdr.prio (h : ArmHdr) : Nat := fld h.flags 7 0

/-- The header of cell arm `x` as its position's set holds it. -/
def Chip.armHdr (c : Chip) (x : Nat) : ArmHdr :=
  let b := c.engineBytes (c.viewAddr (x / 16) + 0x400 + 128 * (x % 16)) 128
  let w := fun o => BitVec.ofNat 32 (leAt b o 4)
  { flags := w 0, deadline := w 4, ksw := w 8, kf := w 0xC, kd := w 0x10, ka := w 0x14, kj := w 0x18, clear := w 0x1C
    sweep := w 0x20, tr := w 0x30, ts := w 0x34, as_ := w 0x38, c := w 0x3C, range := w 0x40 }

/-- A capsule: axis, radius, VALID, NOOBS. -/
structure Capsule where
  a     : Vec
  b     : Vec
  r     : W32
  valid : Bool
  noobs : Bool
  deriving DecidableEq, Repr

/-- The pose record of cell arm `x`, sample `j`, capsule `k`. -/
def Chip.poseAt (c : Chip) (x j k : Nat) : Capsule :=
  let b := c.engineBytes (c.viewAddr (x / 16) + 0x2000 + 0x2000 * (x % 16) + 0x100 * j + 0x20 * k) 32
  let f := leAt b 0x1C 4
  { a := vecAt b 0, b := vecAt b 0xC, r := BitVec.ofNat 32 (leAt b 0x18 4), valid := f.testBit 0, noobs := f.testBit 2 }

/-! ## Progress and poses (R246, R248, R249) -/

def Chip.sepH (c : Chip) : Nat := c.regF 0x500004 5 0
def Chip.sepSpacing (c : Chip) : Nat := c.regF 0x500004 28 16
/-- τ_i. -/
def Chip.sepTau (c : Chip) (i : Nat) : W32 := em (natF (i * c.sepSpacing)) c.tS

/-- The three pieces of R248: each adds its part of the plan time. The Nat counts pieces passed. -/
def progPieces : List (W32 × W32) → (n : Nat) → Motion → (rem : W32) → Nat × Motion × W32
  | [], n, s, rem => (n, s, rem)
  | (len, jk) :: l, n, s, rem =>
    if !f32Lt 0 rem then (n, s, rem)
    else
      let piece := emin len rem
      let s := { p := wrapQ (s.p + toQ (segDist s.v s.a jk piece)), v := segVel s.v s.a jk piece, a := segAcc s.a jk piece }
      let s := if f32Lt s.v 0 || f32Lt f32One s.v then { s with v := clamp01 s.v, a := 0 } else s
      progPieces l (n + 1) s (es rem piece)

/-- progress of R248 under goal `g`; a stopped arm gains nothing. -/
def progress (h : ArmHdr) (stopped : Bool) (g tau : W32) : Int :=
  if h.held || stopped then 0
  else
    let k0 := if h.rel then g else h.kf
    let d0 := if h.rel then 0 else h.kd
    let r := ramp k0 d0 g h.ka h.kj
    let x := progPieces [(r.t1, r.j1), (r.t2, 0), (r.t3, fneg (em r.sg h.kj))] 0 { p := 0, v := k0, a := d0 } tau
    let v := if x.1 = 3 then g else x.2.1.v
    if f32Lt 0 x.2.2 then wrapQ (x.2.1.p + toQ (em v x.2.2)) else x.2.1.p

/-- The sample index and weight at an instant (R249). (Model: DEDUCED, log 60) -/
def Chip.sampleAt (c : Chip) (h : ArmHdr) (stopped : Bool) (g : W32) (i : Nat) : Nat × W32 :=
  let x := ed (toF (progress h stopped g (c.sepTau i))) (em (natF c.sepSpacing) c.tS)
  let j0 := min (f32Fix 0 (floor32 x)).toNat (c.sepH - 2)
  (j0, if c.sepH = 1 then 0 else emin (es x (natF j0)) f32One)

def mixVec (p q : Vec) (w : W32) : Vec := p.add ((q.sub p).scale w)
/-- The interpolated capsule `k` of cell arm `x`. (Model: DESIGN CHOICE, log 62) -/
def Chip.capsuleAt (c : Chip) (x k : Nat) (jw : Nat × W32) : Capsule :=
  let p := c.poseAt x jw.1 k
  let q := c.poseAt x (jw.1 + 1) k
  { a := mixVec p.a q.a jw.2, b := mixVec p.b q.b jw.2, r := emax p.r q.r, valid := p.valid && q.valid
    noobs := p.noobs || q.noobs }

/-! ## The grid (R251) -/

/-- A cell range: low and high index on each axis. -/
structure CellRange where
  lo : List Nat
  hi : List Nat
  deriving DecidableEq, Repr

/-- The cell of a coordinate on an axis. -/
def Chip.cellOf (c : Chip) (axis : Nat) (v : W32) : Nat :=
  let q := ed (es v (c.reg (0x500010 + 4 * axis))) (c.reg 0x50001C)
  (clampI 0 (if axis = 2 then 31 else 63) (f32Fix 0 (floor32 q))).toNat

/-- The cell range of bounds given by two corners, inflated. -/
def Chip.rangeOf (c : Chip) (lo hi : Vec) (inflate : W32) : CellRange :=
  { lo := [c.cellOf 0 (es lo.x inflate), c.cellOf 1 (es lo.y inflate), c.cellOf 2 (es lo.z inflate)]
    hi := [c.cellOf 0 (ea hi.x inflate), c.cellOf 1 (ea hi.y inflate), c.cellOf 2 (ea hi.z inflate)] }
/-- The cell range of an axis. -/
def Chip.axisRange (c : Chip) (a b : Vec) (inflate : W32) : CellRange :=
  c.rangeOf (Vec.map2 emin a b) (Vec.map2 emax a b) inflate

/-- Two ranges overlap on all three axes. -/
def CellRange.overlaps (r s : CellRange) : Bool :=
  (List.range 3).all fun i => decide (r.lo.getD i 0 ≤ s.hi.getD i 0) && decide (s.lo.getD i 0 ≤ r.hi.getD i 0)

/-! ## Obstacles, zones, tracks -/

def obsW (o w : Nat) : Nat := 0x502000 + 32 * o + 4 * w
def zoneW (z w : Nat) : Nat := 0x504000 + 32 * z + 4 * w
def Chip.vecReg (c : Chip) (off : Nat) : Vec := { x := c.reg off, y := c.reg (off + 4), z := c.reg (off + 8) }

/-- The cell range of an obstacle, and its distance from an axis, less its radius. -/
def Chip.obstacleRange (c : Chip) (o : Nat) : CellRange :=
  let p := c.vecReg (obsW o 1)
  let q := c.vecReg (obsW o 4)
  if c.regB (obsW o 0) 30 then c.rangeOf (p.sub q) (p.add q) (c.reg (obsW o 7)) else c.axisRange p q (c.reg (obsW o 7))
/-- Distance of a capsule from an obstacle (R250). (Model: DESIGN CHOICE, log 62) -/
def Chip.obstacleDist (c : Chip) (o : Nat) (k : Capsule) : W32 :=
  let p := c.vecReg (obsW o 1)
  let q := c.vecReg (obsW o 4)
  es (es (if c.regB (obsW o 0) 30 then segBox k.a k.b p q else segSeg k.a k.b p q) k.r) (c.reg (obsW o 7))

/-- The cell range of a zone, and the distance of a capsule from it. -/
def Chip.zoneRange (c : Chip) (z : Nat) : CellRange :=
  let p := c.vecReg (zoneW z 1)
  let q := c.vecReg (zoneW z 4)
  c.rangeOf (p.sub q) (p.add q) 0
/-- Distance of a capsule from a zone. (Model: DESIGN CHOICE, log 62) -/
def Chip.zoneDist (c : Chip) (z : Nat) (k : Capsule) : W32 :=
  es (segBox k.a k.b (c.vecReg (zoneW z 1)) (c.vecReg (zoneW z 4))) k.r

end Sys2Proof.Machine
end

