-- ==== Sys2Proof/Machine/Sep.lean ====
section
/-!
DEFINITION. The separation engine: tracks, seal, check, results, protective stop and release, and the writes of its
registers (R242 to R247, R253 to R265).
-/
namespace Sys2Proof.Machine

def Chip.modSep (c : Chip) (f : Sep → Sep) : Chip := { c with sep := f c.sep }
def sepArm (a w : Nat) : Nat := 0x501000 + 64 * a + 4 * w
def sepRes (x w : Nat) : Nat := 0x505000 + 16 * x + 4 * w
def sepTrk (t : Nat) : Nat := 0x500100 + 4 * t
/-- A status bit of SEP_STAT, and CFG_IGN. -/
def Chip.sepStat (c : Chip) (b : Nat) : Chip := c.setB 0x500000 b true
def Chip.sepIgn (c : Chip) : Chip := c.sepStat 2
def Chip.poseTick (c : Chip) : Nat := c.regF 0x500008 11 0
def Chip.chkTick (c : Chip) : Nat := c.regF 0x500008 27 16
/-- The first tick of the present planning frame. -/
def Chip.frameFirst (c : Chip) : Nat := c.tick - c.tick % c.planFrame
def Chip.sepTrack (c : Chip) (t : Nat) : Option Track := tabGet (fun _ => none) c.sep.tracks t
/-- Whether an own arm is under the workspace, and its protective stop and pending release. -/
def Chip.sepArmEn (c : Chip) (a : Nat) : Bool := c.regB (sepArm a 0) 31
def Chip.sepPstop (c : Chip) (a : Nat) : Bool := c.regB (sepArm a 0) 24
def Chip.sepRel (c : Chip) (a : Nat) : Bool := c.regB (sepArm a 0) 25

/-- The channels of the joints of an arm, ascending (R243). -/
def Chip.armChans (c : Chip) (a : Nat) : List Nat :=
  c.chanKeys.filter fun k => match c.jointArm k with | some (b, _) => b == a | none => false

/-! ## Tracks (R241) -/

/-- The track records released in this tick reach the track slots this position owns. -/
def Chip.trackTick (c : Chip) : Chip :=
  forL (c.unitsIn 0x500100 0x500200 4) (fun t c =>
    let w := c.reg (sepTrk t)
    if bit w 31 && fld w 26 24 == c.position then
      match (tabGet (fun _ => []) c.star.tracks (fld w 12 8))[fld w 2 0]? with
      | some r => c.modSep fun s => { s with tracks := tabPut (fun _ => none) s.tracks t (some { record := r, tick := c.tick }) }
      | none => c
    else c) c

/-! ## The seal (R242, R243) -/

/-- κ and plan time predicted over `n` ticks with the ramp in force: κ, κ̇ and the plan time gained. (Model: DEDUCED, log 60) -/
def kappaAhead (ts : W32) : (n : Nat) → Option ProfPlan → (k kd : W32) → Int → W32 × W32 × Int
  | 0, _, k, kd, adv => (k, kd, adv)
  | n + 1, pl, k, kd, adv =>
    let r := kappaStep pl k kd ts
    kappaAhead ts n r.1 r.2.1 r.2.2 (adv + toQ (em (em (ea k r.2.1) f32Half) ts))

/-- Whether plan time passes in a channel's state (R195); a table run against a master has none (R197). -/
def Chip.chanMoves (c : Chip) (k : Nat) : Bool :=
  let st := c.chState k
  st == stRunA || ((st == stRunB || st == stPausing) &&
    (match (c.chan k).tab with | some r => !c.tabIndep r.table | none => false))

/-- HELD of an arm's channels. -/
def Chip.armHeld (c : Chip) (ks : List Nat) : Bool :=
  ks.any (fun k => let st := c.chState k; st == stOff || st == stStopping || st == stFault || st == stHoming) ||
  ks.all (fun k => let st := c.chState k; st == stIdle || st == stArmed)

/-- RIGID of an arm's channels. -/
def Chip.armRigid (c : Chip) (ks : List Nat) : Bool := ks.any fun k =>
  (match (c.chan k).tab with | some r => c.tabIndep r.table | none => false) ||
  (match (c.chan k).armed with | some (.tab t) => c.tabIndep t | _ => false)

/-- An arm header (R241, R243). An arm to be released publishes HELD 0 (R261). (Model: DEDUCED, log 60) -/
def Chip.armHeader (c : Chip) (a : Nat) : List Byte :=
  let ks := c.armChans a
  let w0 := c.reg (sepArm a 0)
  let ps := bit w0 24
  let rel := bit w0 25
  let held := if ps then !rel else c.armHeld ks
  let flags := (bit w0 31).toNat * 2 ^ 31 + held.toNat * 2 ^ 30 + (c.armRigid ks).toNat * 2 ^ 29 + ps.toNat * 2 ^ 28 +
    rel.toNat * 2 ^ 27 + (bit w0 30).toNat * 2 ^ 26 + fld w0 7 0
  let n := c.planFrame - 1 - c.poseTick
  let dyn : List Byte × List Byte := match ks with
    | [] => (List.replicate 16 0, List.replicate 12 0)
    | k :: _ =>
      let x := c.chan k
      let r := kappaAhead c.tS n x.kplan (c.kappa k) (c.kdot k) 0
      let adv := x.adv + (if c.chanMoves k then r.2.2 else 0)
      (toBytes 4 r.1.toNat ++ toBytes 4 r.2.1.toNat ++ c.wordsAt (prfCh k 7) 2,
        toBytes 4 (c.kappaTgt k).toNat ++ toBytes 8 (wrapN 64 adv))
  toBytes 4 flags ++ c.wordsAt (sepArm a 1) 2 ++ dyn.1 ++ c.wordsAt (sepArm a 3) 2 ++ dyn.2 ++ c.wordsAt (sepArm a 5) 5 ++ List.replicate 60 0

/-- The holder byte of a zone this position homes (R256). -/
def Chip.holderByte (c : Chip) (z : Nat) : Byte :=
  let w := c.reg (zoneW z 0)
  match tabGet (fun _ => none) c.sched.holders (fld w 22 12) with
  | some (task, _) =>
    let a := task - fld w 11 0
    if fld w 11 0 ≤ task ∧ a < 16 ∧ c.sepArmEn a = true then BitVec.ofNat 8 (0x80 + a) else 0
  | none => 0

/-- A track record with its AGE. (Model: DEDUCED, log 60) -/
def Chip.trackBytes (c : Chip) (t : Nat) : List Byte := match c.sepTrack t with
  | some x => x.record.take 30 ++ toBytes 2 (satN 65535 (c.tick - x.tick))
  | none => List.replicate 32 0

/-- An arm in protective stop with AUTO 1 for AUTOREL frames requests its release (R261). (Model: DEDUCED, log 97) -/
def Chip.autoRelease (c : Chip) : Chip := forN 16 (fun a c =>
  let w := c.reg (sepArm a 0)
  if bit w 24 && bit w 29 && !bit w 25 && decide (fld w 23 8 ≤ tabGet (fun _ => 0) c.sep.stopped a) then
    c.setB (sepArm a 0) 25 true
  else c) c

/-- The own set is sealed, once, at the publish deadline of POSE_TICK (R242). -/
def Chip.seal (c : Chip) : Chip :=
  if !c.ticking || c.tick % c.planFrame != c.poseTick || c.sep.sealedAt == some c.tick then c
  else
    let c := c.autoRelease
    let base := c.viewAddr c.position
    let c := c.engineStore base (toBytes 4 0x54455357 ++ [BitVec.ofNat 8 c.position, 0, 0, 0] ++ toBytes 4 c.frameFirst)
    let c := forN 16 (fun a c => c.engineStore (base + 0x400 + 128 * a) (c.armHeader a)) c
    let c := forN 32 (fun z c =>
      if fld (c.reg (zoneW z 0)) 26 24 = c.position then c.engineStore (base + 0x40 + z) [c.holderByte z] else c) c
    let c := forN 64 (fun t c =>
      if c.regF (sepTrk t) 26 24 = c.position then c.engineStore (base + 0xC00 + 32 * t) (c.trackBytes t) else c) c
    let c := c.engineMeets (base + 0x40) (0x22000 - 0x40)
    let c := c.engineStore (base + 12) (toBytes 4 (crc32c (c.engineBytes (base + 0x40) (0x22000 - 0x40))))
    (c.modSep fun s => { s with
      sealedAt := some c.tick
      published := (List.range 16).filter fun a => c.sepPstop a && c.sepRel a }).fire 391

/-! ## The check (R245, R253 to R259) -/

/-- Whether the set of a position counts in this frame's check. -/
def Chip.setUsable (c : Chip) (p : Nat) : Bool :=
  let a := c.viewAddr p
  if p = c.position then c.sep.sealedAt == some (c.frameFirst + c.poseTick)
  else coversAll (tabGet (fun _ => []) c.ring.wsGot p) 139264 && c.linesGood a 0x22000 && c.engineNum a 4 == 0x54455357 && c.engineNum (a + 4) 1 == p &&
    c.engineNum (a + 8) 4 == c.frameFirst % 2 ^ 32 && c.engineNum (a + 12) 4 == crc32c (c.engineBytes (a + 0x40) (0x22000 - 0x40))

/-- The positions integrated in the ring, this one among them (R245). -/
def Chip.positionsIn (c : Chip) : List Nat := (List.range 8).filter fun p =>
  p == c.position || (c.ringEn && (let m := c.regF 0x700018 15 0; m.testBit (2 * p) || m.testBit (2 * p + 1)))

/-- An arm as the rounds see it. -/
structure SepArm where
  x       : Nat
  h       : ArmHdr
  base    : W32
  ssm     : Bool
  lvl     : Nat
  stop    : Bool
  g       : W32
  capHit  : Bool
  zoned   : Bool
  /-- Kind, partner and instant of the first conflict of round 0. -/
  first   : Option (Nat × Nat × Nat)
  deriving DecidableEq, Repr

/-- A conflict: instant, kind (1 arm, 2 obstacle, 3 zone), entities, and whether it stands for an unevaluated candidate. -/
structure Conflict where
  inst : Nat
  kind : Nat
  x    : Nat
  y    : Nat
  missed : Bool
  deriving DecidableEq, Repr

/-- An evaluation under way: units charged, whether the cap was reached, conflicts in order. -/
structure Eval where
  units : Nat
  cap   : Bool
  list  : List Conflict
  deriving DecidableEq, Repr

/-- A conflict is recorded once per pair of entities. -/
def Eval.record (e : Eval) (f : Conflict) : Eval :=
  if e.list.any (fun g => g.kind == f.kind && g.x == f.x && g.y == f.y) then e else { e with list := e.list ++ [f] }

/-- One candidate: charged and evaluated, or counted as a conflict once the cap is reached (R253). (Model: DEDUCED, log 60) -/
def Eval.candidate (e : Eval) (cap : Nat) (f : Conflict) (hit : Bool) : Eval :=
  if e.cap || decide (e.units + 1 > cap) then { e with cap := true }.record { f with missed := true }
  else
    let e := { e with units := e.units + 1 }
    if hit then e.record f else e

/-- The valid capsules of an arm at an instant with their cell ranges. -/
def Chip.armCaps (c : Chip) (s : SepArm) (i : Nat) : List (Capsule × CellRange) :=
  let jw := c.sampleAt s.h s.stop s.g i
  (List.range 8).filterMap fun k =>
    let q := c.capsuleAt s.x k jw
    if q.valid then some (q, c.axisRange q.a q.b (ea (ea q.r s.h.clear) s.h.sweep)) else none

/-- Every pair of two capsule lists, in order. -/
def pairs2 {α β : Type} (l : List α) (m : List β) : List (α × β) := (l.map fun a => m.map fun b => (a, b)).flatten

/-- Arm and arm pairs of an instant. (Model: DEDUCED, log 60) -/
def evalArms (cap i : Nat) : List (SepArm × List (Capsule × CellRange)) → Eval → Eval
  | [], e => e
  | (s, cs) :: l, e =>
    evalArms cap i l (forL l (fun t e =>
      let q := ea (ea (emax s.h.clear t.1.h.clear) s.h.sweep) t.1.h.sweep
      forL (pairs2 cs t.2) (fun p e =>
        if p.1.2.overlaps p.2.2 then
          let d := es (es (segSeg p.1.1.a p.1.1.b p.2.1.a p.2.1.b) p.1.1.r) p.2.1.r
          e.candidate cap { inst := i, kind := 1, x := s.x, y := t.1.x, missed := false } (f32Lt d q)
        else e) e) e)

/-- The holder of a zone: the cell arm its home's set names. (Model: DEDUCED, log 97) -/
def Chip.zoneHolder (c : Chip) (usable : List Nat) (z : Nat) : Option Nat :=
  let home := c.regF (zoneW z 0) 26 24
  if usable.contains home then
    let b := c.engineNum (c.viewAddr home + 0x40 + z) 1
    if b.testBit 7 then some (16 * home + b % 16) else none
  else none

/-- Every candidate of an instant (R250, R251, R257). -/
def Chip.evalInstant (c : Chip) (cap : Nat) (usable obs zones : List Nat) (arms : List SepArm) (i : Nat) (e : Eval) : Eval :=
  let al := arms.map fun s => (s, c.armCaps s i)
  let e := evalArms cap i al e
  let e := forL al (fun t e => forL obs (fun o e => forL t.2 (fun q e =>
    if !q.1.noobs && q.2.overlaps (c.obstacleRange o) then
      e.candidate cap { inst := i, kind := 2, x := t.1.x, y := o, missed := false }
        (f32Lt (c.obstacleDist o q.1) (ea t.1.h.clear t.1.h.sweep))
    else e) e) e) e
  forL al (fun t e => forL zones (fun z e =>
    if c.zoneHolder usable z == some t.1.x then e
    else forL t.2 (fun q e =>
      if q.2.overlaps (c.zoneRange z) then
        e.candidate cap { inst := i, kind := 3, x := t.1.x, y := z, missed := false } (f32Lt (c.zoneDist z q.1) t.1.h.sweep)
      else e) e) e) e

/-- evaluate of R259; `hit` tells that the check stopped before it. -/
def Chip.evaluate (c : Chip) (cap : Nat) (usable obs zones : List Nat) (arms : List SepArm) (units : Nat) (hit : Bool) : Eval :=
  (List.range c.sepH).foldl (fun e i => c.evalInstant cap usable obs zones arms i e)
    { units := units + 8000, cap := hit, list := [] }

/-- yielder of R258: whether the first arm yields. -/
def firstYields (a b : ArmHdr) : Bool :=
  if a.held != b.held then b.held
  else if a.rigid != b.rigid then b.rigid
  else if a.prio != b.prio then decide (a.prio < b.prio)
  else if a.hasdl != b.hasdl then b.hasdl
  else if a.hasdl && a.deadline != b.deadline then !decide ((a.deadline - b.deadline).toInt < 0)
  else false

def findArm (arms : List SepArm) (x : Nat) : Option SepArm := arms.find? fun s => s.x == x
def putArm (arms : List SepArm) (s : SepArm) : List SepArm := arms.map fun t => if t.x == s.x then s else t

/-- The arm that yields in a conflict. -/
def yields (arms : List SepArm) (f : Conflict) : Option SepArm :=
  if f.kind = 1 then
    match findArm arms f.x, findArm arms f.y with
    | some a, some b => some (if firstYields a.h b.h then a else b)
    | _, _ => none
  else findArm arms f.x

/-- g_base_frac. -/
def baseFrac (b : W32) (n : Nat) : W32 := em b (em (natF (16 - n)) 0x3D800000#32)

/-- One round's processing of its conflicts; the second list holds the arms that are done. -/
def roundStep (r : List SepArm × List Nat) (f : Conflict) : List SepArm × List Nat :=
  match yields r.1 f with
  | none => r
  | some s =>
    if r.2.contains s.x then r
    else
      let d := s.x :: r.2
      if s.stop then (r.1, d)
      else
        let s := { s with zoned := s.zoned || f.kind == 3 }
        if s.h.rigid || s.lvl == 15 then (putArm r.1 { s with stop := true }, d)
        else (putArm r.1 { s with lvl := s.lvl + 1, g := baseFrac s.base (s.lvl + 1) }, d)

/-- The final step: every arm that yields in a remaining conflict stops. -/
def finalStep (arms : List SepArm) (f : Conflict) : List SepArm := match yields arms f with
  | none => arms
  | some s => putArm arms { s with stop := true, zoned := s.zoned || f.kind == 3, capHit := s.capHit || f.missed }

/-- The first conflict of round 0, for each arm. -/
def noteFirst (arms : List SepArm) (l : List Conflict) : List SepArm := arms.map fun s =>
  match l.find? (fun f => f.x == s.x || (f.kind == 1 && f.y == s.x)) with
  | some f => { s with first := some (f.kind, (if f.x == s.x then f.y else f.x), f.inst) }
  | none => s

/-- The rounds of R259: arms, units, rounds evaluated, whether the cap was reached. (Model: DEDUCED, log 60) -/
def Chip.rounds (c : Chip) (cap : Nat) (usable obs zones : List Nat) :
    (left : Nat) → (round : Nat) → List SepArm → (units : Nat) → (hit : Bool) → List SepArm × Nat × Nat × Bool
  | 0, round, arms, units, hit => (arms, units, round, hit)
  | n + 1, round, arms, units, hit =>
    let e := c.evaluate cap usable obs zones arms units hit
    let arms := if round = 0 then noteFirst arms e.list else arms
    if e.list.isEmpty || round == 16 || e.cap then (e.list.foldl finalStep arms, e.units, round + 1, e.cap)
    else c.rounds cap usable obs zones n (round + 1) (e.list.foldl roundStep (arms, [])).1 e.units e.cap

/-! ## The base goal (R254) -/

/-- A person: axis at time 0, radius, velocity, and the time from its sample to T_F. -/
structure Person where
  x   : W32
  y   : W32
  lo  : W32
  hi  : W32
  rad : W32
  vx  : W32
  vy  : W32
  dt  : W32
  deriving DecidableEq, Repr

/-- The valid tracks of the usable sets. (Model: DEDUCED, log 97) -/
def Chip.persons (c : Chip) (usable : List Nat) : List Person :=
  (c.unitsIn 0x500100 0x500200 4).filterMap fun t =>
    let w := c.reg (sepTrk t)
    let p := fld w 26 24
    let b := c.engineBytes (c.viewAddr p + 0xC00 + 32 * t) 32
    let f := fun o => BitVec.ofNat 32 (leAt b o 4)
    if bit w 31 && usable.contains p && (leAt b 0x1C 2).testBit 15 && decide (leAt b 0x1E 2 < 256) then
      let lo := ea (f 8) (f 0x10)
      some { x := f 0, y := f 4, lo := lo, hi := emax (es (ea (f 8) (f 0xC)) (f 0x10)) lo, rad := f 0x10, vx := f 0x14
             vy := f 0x18, dt := em (natF (c.planFrame - c.poseTick + leAt b 0x1E 2)) c.tS }
    else none

/-- The scale a person permits an arm's capsule `k` between samples `j0` and `j0 + 1`, with the distance `d`. -/
def Chip.ssmScale (c : Chip) (s : SepArm) (p : Person) (k j0 : Nat) (d kssm : W32) : W32 :=
  let h := s.h
  let vh := emax (esqrt (ea (em p.vx p.vx) (em p.vy p.vy))) (c.reg 0x500024)
  let rr := es (es d (em vh (ea h.tr h.ts))) h.c
  let vall := if f32Le rr 0 then 0
    else em h.as_ (es (esqrt (ea (em h.tr h.tr) (ed (em f32Two rr) h.as_))) h.tr)
  let q0 := c.poseAt s.x j0 k
  let q1 := c.poseAt s.x (j0 + 1) k
  let vnom := ed (emax (q1.a.sub q0.a).norm (q1.b.sub q0.b).norm) (em (natF c.sepSpacing) c.tS)
  if f32Lt 0 vnom then emin kssm (ed vall vnom) else kssm

/-- An arm's base goal under way: the arm, whose `capHit` tells that a track candidate of it stayed unevaluated, and kssm. -/
structure ArmSsm where
  s    : SepArm
  kssm : W32
  deriving DecidableEq, Repr

/-- Units charged so far, and whether the cap stopped the check. -/
structure Charge where
  units : Nat
  cap   : Bool
  deriving DecidableEq, Repr

/-- The track candidates of one arm at one instant: track, then capsule, ascending (R253, R254, R257). -/
def Chip.armTracks (c : Chip) (ps : List Person) (cap i : Nat) (r : ArmSsm × Charge) : ArmSsm × Charge :=
  let jw := c.sampleAt r.1.s.h false r.1.s.h.ksw i
  forL ps (fun p r =>
    let t := ea p.dt (c.sepTau i)
    let x := ea p.x (em p.vx t)
    let y := ea p.y (em p.vy t)
    let pa : Vec := { x := x, y := y, z := p.lo }
    let pb : Vec := { x := x, y := y, z := p.hi }
    let pr := c.axisRange pa pb p.rad
    forN 8 (fun k r =>
      let q := c.capsuleAt r.1.s.x k jw
      if q.valid && (c.axisRange q.a q.b (ea q.r r.1.s.h.range)).overlaps pr then
        if r.2.cap || decide (r.2.units + 1 > cap) then
          ({ r.1 with s := { r.1.s with capHit := true } }, { r.2 with cap := true })
        else
          ({ r.1 with kssm := c.ssmScale r.1.s p k jw.1 (es (es (segSeg q.a q.b pa pb) q.r) p.rad) r.1.kssm },
            { r.2 with units := r.2.units + 1 })
      else r) r) r

/-- The track candidates of every arm at one instant, arms ascending (R257). -/
def Chip.instantTracks (c : Chip) (ps : List Person) (cap i : Nat) : List ArmSsm → Charge → List ArmSsm × Charge
  | [], u => ([], u)
  | a :: l, u =>
    let r := c.armTracks ps cap i (a, u)
    let q := c.instantTracks ps cap i l r.2
    (r.1 :: q.1, q.2)

/-- An arm before the check. -/
def Chip.sepInit (c : Chip) (x : Nat) : ArmSsm :=
  let h := c.armHdr x
  { kssm := f32One
    s := { x := x, h := h, base := 0, ssm := false, lvl := 0, stop := h.held, g := 0, capHit := false, zoned := false, first := none } }

/-- An arm with its base goal (R254). -/
def ArmSsm.start (a : ArmSsm) : SepArm :=
  let b := emin (emin a.s.h.ksw a.kssm) f32One
  { a.s with base := b, g := b, ssm := f32Lt b (emin a.s.h.ksw f32One) }

/-- The arms of a check before the first round, in ascending order, and the units charged: the track candidates of all arms
are taken instant by instant (R253, R254, R257). -/
def Chip.sepStarts (c : Chip) (ps : List Person) (cap : Nat) (xs : List Nat) : List SepArm × Charge :=
  let r := (List.range c.sepH).foldl (fun r i => c.instantTracks ps cap i r.1 r.2)
    (xs.map c.sepInit, { units := 4000, cap := false })
  (r.1.map ArmSsm.start, r.2)

/-! ## Results (R259, R262, R264) -/

/-- The SEP_RES words of an arm. (Model: DEDUCED, log 60) -/
def SepArm.res (s : SepArm) : List W32 :=
  let new := s.stop && !s.h.held
  let w2 := (bit s.h.flags 28).toNat * 2 ^ 31 + new.toNat * 2 ^ 30 + s.h.held.toNat * 2 ^ 29 + s.h.rigid.toNat * 2 ^ 28 +
    s.ssm.toNat * 2 ^ 27 + s.capHit.toNat * 2 ^ 26 + s.lvl * 2 ^ 16
  let w3 := match s.first with | some (k, p, i) => k * 2 ^ 30 + p * 2 ^ 12 + i | none => 0
  [s.g, s.base, BitVec.ofNat 32 w2, BitVec.ofNat 32 w3]

/-- PAIR_CAP (R253). -/
def Chip.pairCap (c : Chip) : Int :=
  2 * (((c.planFrame : Int) - (c.chkTick : Int)) * (c.tickNs : Int) - 2000) - 4000

/-- The check of CHK_TICK (R259). Its results wait for CHK_DONE. (Model: DEDUCED, log 60; DEDUCED, log 61) -/
def Chip.sepCheck (c : Chip) : Chip :=
  if !c.ticking || c.tick % c.planFrame != c.chkTick || c.sep.checkedAt == some c.tick || !c.setUsable c.position then c
  else
    let sets := c.positionsIn
    let usable := sets.filter c.setUsable
    let miss := sets.length != usable.length
    let xs := ((usable.map fun p => (List.range 16).map fun a => 16 * p + a).flatten).filter fun x => (c.armHdr x).en
    let ps := c.persons usable
    let st := c.sepStarts ps c.pairCap.toNat xs
    let obs := (c.unitsIn 0x502000 0x504000 32).filter fun o => c.regB (obsW o 0) 31
    let zones := (c.unitsIn 0x504000 0x504400 32).filter fun z => c.regB (zoneW z 0) 31
    let r := c.rounds c.pairCap.toNat usable obs zones 17 0 st.1 st.2.units st.2.cap
    let own := fun (s : SepArm) => s.x / 16 == c.position
    let arms := if miss then r.1.map fun s => if own s then { s with g := emin s.g (em s.base 0x3D800000#32), lvl := 15 } else s
      else r.1
    -- a track candidate left unevaluated counts as a conflict in which its arm yields (R253, R258)
    let arms := arms.map fun s => { s with stop := s.stop || s.capHit }
    let mine := arms.filter own
    let new := fun (s : SepArm) => s.stop && !s.h.held
    let events := (if mine.any fun s => f32Lt s.g s.base then [1] else []) ++ (if mine.any new then [2] else []) ++
      (if mine.any (·.ssm) then [3] else []) ++ (if mine.any (·.zoned) then [4] else []) ++
      (if r.2.2.2 then [5] else []) ++ (if miss then [6] else [])
    (forL sets (fun p c => c.engineMeets (c.viewAddr p) 0x22000) c).modSep fun s => { s with
      checkedAt := some c.tick
      viewMiss := miss
      result := some (arms.map (fun s => (s.x, s.res)), events, r.2.1, r.2.2.1)
      apply := mine.map fun t => (t.x % 16, t.g, new t, s.published.contains (t.x % 16) && !t.stop) }

/-- The end of the check: results stand, and 384 fires with its followers (R264). -/
def Chip.checkDone (c : Chip) : Chip := match c.sep.result with
  | none => c
  | some (rows, events, units, rounds) =>
    let c := forN 512 (fun i c => c.setReg (0x505000 + 4 * i) 0) c
    let c := forL rows (fun r c => (List.range 4).foldl (fun c w => c.setReg (sepRes r.1 w) (r.2.getD w 0)) c) c
    let c := (c.setF 0x500000 20 16 rounds).setReg 0x50002C (BitVec.ofNat 32 units)
    let c := c.setReg 0x500030 (BitVec.ofNat 32 (max units (c.reg 0x500030).toNat))
    let c := if events.contains 5 then c.sepStat 4 else c
    let c := if events.contains 6 then c.sepStat 5 else c
    (events.foldl (fun c n => c.fire (384 + n)) (c.fire 384)).modSep fun s => { s with result := none }

/-- One own arm's results in the profile phase of the first tick of the next frame (R260 to R262). (Model: DEDUCED, log 61) -/
def Chip.applyArm (c : Chip) (a : Nat) (g : W32) (stop resume : Bool) : Chip :=
  let ks := c.armChans a
  let send := fun (f : Nat → PrfCmd) (c : Chip) => forL ks (fun k c => c.modPrf fun p => { p with cmds := p.cmds ++ [f k] }) c
  let cmd := fun (n : Nat) => send fun k => PrfCmd.cmd k (BitVec.ofNat 32 (n * 2 ^ 28))
  let c := if c.sepArmEn a then
      forL ks (fun k c => (c.setReg (prfCh k 9) g).modChan k fun x => { x with kapW := true }) c
    else c
  let c := if stop then
      let c := if c.armRigid ks then cmd 6 c else cmd 4 c
      let c := if c.sepPstop a then c else c.modSep fun s => { s with stopped := tabPut (fun _ => 0) s.stopped a 0 }
      ((c.setB (sepArm a 0) 24 true).setB (sepRes (16 * c.position + a) 2) 31 true).sepStat 3
    else c
  if resume then
    (((send PrfCmd.release c).setB (sepArm a 0) 24 false).setB (sepRes (16 * c.position + a) 2) 31 false).setB (sepArm a 0) 25 false
  else if c.sep.published.contains a then c.setB (sepArm a 0) 25 false else c

/-- The results of the last check are applied (R262). -/
def Chip.resultApply (c : Chip) : Chip :=
  if !c.ticking || c.tick % c.planFrame != 0 then c
  else
    let l := c.sep.apply
    (forL l (fun e c => c.applyArm e.1 e.2.1 e.2.2.1 e.2.2.2) c).modSep fun s => { s with apply := [], published := [] }

/-- The first tick of a planning frame: plan times start again, frames in protective stop count, and the sets of the
new frame are still to come. -/
def Chip.sepFrame (c : Chip) : Chip :=
  if c.tick % c.planFrame != 0 then c
  else
    let c := forL (c.prf.chans.map (·.1)) (fun k c => c.modChan k fun x => { x with adv := 0 }) c
    let c := forN 16 (fun a c =>
      if c.sepPstop a then c.modSep fun s => { s with stopped := tabPut (fun _ => 0) s.stopped a (tabGet (fun _ => 0) s.stopped a + 1) }
      else c) c
    (c.modSep fun s => { s with viewMiss := false }).modRing fun r => { r with wsGot := [] }

/-! ## Writes and the checks on leaving CONFIG (R244, R247, R261, R265) -/

/-- A write of SEP_PSREL. (Model: DEDUCED, log 61) -/
def Chip.psrelWrite (c : Chip) (v : W32) : Chip :=
  let a := fld v 3 0
  if c.sepPstop a then c.setB (sepArm a 0) 25 true else c.sepIgn

/-- A write of a word of SEP_ARM. (Model: DEDUCED, log 61) -/
def Chip.sepArmWrite (c : Chip) (a w : Nat) (v : W32) : Chip :=
  if w = 0 then
    if c.inConfig then c.mapWrite (sepArm a 0) v
    else
      let old := c.reg (sepArm a 0)
      let c := (c.setB (sepArm a 0) 30 (bit v 30)).setF (sepArm a 0) 7 0 (fld v 7 0)
      if (old &&& 0xA0FFFF00#32) != (v &&& 0xA0FFFF00#32) then c.sepIgn else c
  else if w = 1 then c.setReg (sepArm a 1) v
  else if w = 2 then if nonneg32 v && f32Le v f32One then c.setReg (sepArm a 2) v else c.sepIgn
  else if w < 10 then
    if c.sepArmEn a || ((w == 3 || w == 4) && !nonneg32 v) || (w == 7 && !positive32 v) then c.sepIgn else c.setReg (sepArm a w) v
  else c

/-- A write of a word of the SEP block. -/
def Chip.sepWrite (c : Chip) (x : Nat) (v : W32) : Chip :=
  let off := 0x500000 + x
  if x = 0 then c.mapWrite off v
  else if x = 0x34 then c.psrelWrite v
  else if 0x1000 ≤ x ∧ x < 0x1400 then c.sepArmWrite ((x - 0x1000) / 64) (x % 64 / 4) v
  else match regDesc off with
    | some d => if d.rw = 0 ∨ c.inConfig then c.mapWrite off v else c.sepIgn
    | none => c

/-- The checks of the SEP block on leaving CONFIG; the Bool says the module may leave. (Model: DEDUCED, log 61) -/
def Chip.sepLeave (c : Chip) : Chip × Bool :=
  let eq := (List.range 16).all fun a => !c.sepArmEn a || (match c.armChans a with
    | [] => true
    | k :: l => l.all fun j => c.reg (prfCh j 7) == c.reg (prfCh k 7) && c.reg (prfCh j 8) == c.reg (prfCh k 8))
  let first := c.regF 0x50000C 11 0
  let last := c.regF 0x50000C 27 16
  let rc := c.ringCycle
  let phase := decide (c.poseTick < first * rc) && decide (first ≤ last) && decide ((last + 1) * rc ≤ c.chkTick) &&
    decide (c.chkTick < c.planFrame) && decide (c.chkTick % rc = 0) && decide (c.pairCap > 0)
  let view := decide (c.regF 0x500020 22 0 + 0x110000 ≤ 0x800000) && decide (c.regF 0x500020 11 0 = 0)
  let hzn := decide (1 ≤ c.sepH) && decide (c.sepH ≤ 32) && decide (1 ≤ c.sepSpacing) && decide (c.sepSpacing ≤ 4096)
  let ok := eq && phase && view && hzn && positive32 (c.reg 0x50001C)
  let c := c.setReg 0x500028 (BitVec.ofInt 32 (if c.pairCap > 0 then c.pairCap else 0))
  (if ok then c else c.sepStat 1, ok)

/-- A read of SEP_PEAK clears it. -/
def Chip.peakRead (c : Chip) : Chip := c.setReg 0x500030 0

end Sys2Proof.Machine
end

