-- ==== Sys2Proof/Machine/Startup.lean ====
section
/-!
DEFINITION. The SYS block's tick registers, the module states and the requests for them, AUTORUN and the host watchdog
(R9 to R16, R21, R456 to R461, R463).
-/
namespace Sys2Proof.Machine

/-! ## Tick registers (R21) -/

def Chip.winErr (c : Chip) : Chip := c.setB 0x110 0 true
/-- A field that is stored when its value is valid, and sets WIN_ERR when not. -/
def Chip.tickField (c : Chip) (off hi lo v : Nat) (ok : Bool) : Chip := if ok then c.setF off hi lo v else c.winErr
/-- A write outside CONFIG is ignored with WR_IGN. -/
def Chip.tickIgn (c : Chip) : Chip := c.setB 0x110 1 true
/-- A write to SYS_TICK_PERIOD. -/
def Chip.tickPeriodWrite (c : Chip) (v : W32) : Chip :=
  if !c.inConfig then c.tickIgn
  else c.tickField 0x100 13 0 (fld v 13 0) (decide (512 ≤ fld v 13 0) && decide (fld v 13 0 ≤ 16000))
/-- A write to SYS_TICK_UL or SYS_TICK_DL: every value is stored. -/
def Chip.tickEdgeWrite (c : Chip) (off : Nat) (v : W32) : Chip := if !c.inConfig then c.tickIgn else c.mapWrite off v
/-- A write to SYS_TICK_TIER: each field is checked by itself. (Model: DEDUCED, log 15) -/
def Chip.tickTierWrite (c : Chip) (v : W32) : Chip :=
  if !c.inConfig then c.tickIgn
  else
    let pf := fld v 28 16
    let rc := fld v 6 0
    (c.tickField 0x10C 28 16 pf (decide (1 ≤ pf) && decide (pf ≤ 4096))).tickField 0x10C 6 0 rc
      (decide (1 ≤ rc) && decide (rc ≤ 64))

/-! ## Requests (R457 to R459) -/

/-- SYS_STATE.REFUSE is loaded. -/
def Chip.refuse (c : Chip) (k : Nat) : Chip := c.setF 0x204 11 8 k

/-- The SYS block's check on leaving CONFIG (R11, R16). -/
def Chip.sysLeave (c : Chip) : Chip × Bool := if c.tickValid then (c, true) else (c.winErr, false)

/-- The checks of one block after another, up to the first that fails; that block's number is answered (R457, R468).
(Model: DEDUCED, log 74) -/
def firstFail : List (Nat × (Chip → Chip × Bool)) → Chip → Chip × Option Nat
  | [], c => (c, none)
  | (n, f) :: l, c => match f c with
    | (c, true) => firstFail l c
    | (c, false) => (c, some n)

/-- The blocks that check something on leaving CONFIG, in ascending number. (Model: DEDUCED, log 74) -/
def leaveChecks : List (Nat × (Chip → Chip × Bool)) :=
  [ (0, Chip.sysLeave), (1, Chip.planLeave), (2, Chip.lpeLeave), (4, Chip.fbkLeave), (5, Chip.sepLeave),
    (6, Chip.strLeave), (7, Chip.crnLeave), (10, Chip.memLeave), (13, Chip.dioLeave) ]

/-- The tick number at which a standalone module starts (R9). -/
def Chip.firstTick (c : Chip) : Nat := if c.ticked then c.tick + 1 else 0

/-- TO = SYNC in CONFIG (R457): the checks, then the ports, and either the ring or standalone ticks. (Model: DEDUCED, log 74) -/
def Chip.syncRequest (c : Chip) : Chip :=
  if c.modState != .config then c.refuse 0xF
  else match firstFail leaveChecks c.startStep with
    | (c', some n) => (c'.setF 0x110 11 8 c.podStep).refuse n
    | (c, none) =>
      let c := (c.setModState .sync).strStart
      if c.ringEn then c.listenStart else c.startTicks c.firstTick

/-- Whether a fault action is held by any joint, or a critical reaction by the module (R438). -/
def Chip.faultHeld (c : Chip) : Bool := c.hlt.crit || c.allFault || !c.armFaults.isEmpty || c.obsKeys.any fun k => c.obsFault k

/-- Whether a module may enter RUN from its state (R458). -/
def Chip.runnable (c : Chip) : Bool := c.modState == .standby || (c.modState == .degraded && !c.faultHeld)

/-- RUN is requested for tick `t` (R458). -/
def Chip.runAt (c : Chip) (t : Nat) : Chip :=
  if !c.runnable || c.cfgFrom.isSome then c.refuse 0xF
  else if c.paired && c.regB 0x700020 28 then c.refuse 0xE
  else if t % c.ringCycle != 0 || !c.notStarted t then c.refuse 0xF
  else { c with wantRun := some t }
/-- TO = RUN: the tick is SYS_RUN_TICK. (Model: DEDUCED, log 74) -/
def Chip.runRequest (c : Chip) : Chip := c.runAt (c.pair 0x20C)

/-- TO = CONFIG (R459): every joint enters its fault action at the next tick. -/
def Chip.configRequest (c : Chip) : Chip :=
  if !(c.modState == .standby || c.modState == .run || c.modState == .degraded) then c.refuse 0xF
  else { c with allFault := true, cfgFrom := some (c.cfgFrom.getD c.tb3) }

/-- A write to SYS_STATE_REQ. (Model: DEDUCED, log 74) -/
def Chip.stateRequest (c : Chip) (v : W32) : Chip := match fld v 2 0 with
  | 2 => c.configRequest
  | 3 => c.syncRequest
  | 5 => c.runRequest
  | _ => c.refuse 0xF

/-! ## Entries (R345, R458 to R460) -/

/-- A channel stands in FAULT at rest, or holds FACT 1; a disabled channel is at rest. (Model: DEDUCED, log 73) -/
def Chip.faultRest (c : Chip) (k : Nat) : Bool :=
  !c.chEn k || c.chState k == stOff || (c.chState k == stFault && ((c.chan k).fact || (c.chan k).plan.isNone))

/-- Whether a requested CONFIG falls due (R459). (Model: DEDUCED, log 73) -/
def Chip.configDue (c : Chip) : Bool := match c.cfgFrom with
  | none => false
  | some t => c.ticking && ((c.chanKeys.all fun k => c.faultRest k) || decide (t + 200000000 ≤ c.tb3))

/-- The writes that wait for a phase take effect, since no phase follows (R158, R190, R472). (Model: DEDUCED, log 36) -/
def Chip.takeWaiting (c : Chip) : Chip :=
  (forL c.fbk.writes (fun x c => c.obsTake x) (c.modFbk fun f => { f with writes := [] })).applyPrfWrites

/-- The module is back in CONFIG: no ticks, ports off, the ring station off. (Model: DEDUCED, log 74) -/
def Chip.enterConfig (c : Chip) : Chip :=
  let c := c.takeWaiting
  let c := { c with ticking := false, nextTick := none, cfgFrom := none, wantRun := none, wantDegraded := false
                    allFault := false, armFaults := [], standbyAt := none, dio := { c.dio with drive := 0 } }
  let c := forN 32 (fun n c => if c.portState n = psOff then c else c.setF (pstReg n 0) 31 29 psOff) c
  let c := if c.ringEn then ((c.setRstate rsOff).dropOwner).setElig false else c
  c.setModState .config
/-- Whether a demand for SAFE or DEGRADED waits for the boundary; it comes before any requested change (R460). (Model: DEDUCED, log 77) -/
def Chip.demandFirst (c : Chip) : Bool := c.wantSafe || (c.wantDegraded && c.modState != .degraded)
/-- Entry to CONFIG when it falls due. (Model: DEDUCED, log 73; DEDUCED, log 77) -/
def Chip.configEntry (c : Chip) : Chip := if c.configDue && !c.demandFirst then c.enterConfig else c

/-- RUN is entered at t₀ of the named tick, unless a fault action is held by then (R458). (Model: DEDUCED, log 74) -/
def Chip.runEntry (c : Chip) : Chip :=
  if c.ticking && c.wantRun == some c.tick then
    let c : Chip := { c with wantRun := none }
    if c.runnable then (c.setModState .run).twinRun else c
  else c

/-- SYNC ends when the ring state is ACTIVE, or at once without a ring (R345). -/
def Chip.standbyEntry (c : Chip) : Chip :=
  if c.modState == .sync && c.ticking && (!c.ringEn || c.rstate == rsActive) then
    { (c.setModState .standby) with standbyAt := some (c.nextTick.getD c.tick) }
  else c

/-- What falls due at a tick boundary besides requests: SAFE, then DEGRADED, which discard what comes after (R460). A demand
for DEGRADED waits until the module has left SYNC. (Model: DEDUCED, log 77) -/
def Chip.boundary (c : Chip) : Chip :=
  if c.modState == .safe then { c with wantSafe := false, wantDegraded := false, wantRun := none, cfgFrom := none }
  else if c.wantSafe then
    ({ c with wantSafe := false, wantDegraded := false, wantRun := none, cfgFrom := none } : Chip).enterSafe
  else if c.wantDegraded && c.modState != .sync then
    let was := c.modState == .degraded
    let c := { c with wantDegraded := false, wantRun := if c.wantRun == some c.tick then none else c.wantRun }
    if was then c else ({ c with cfgFrom := if c.configDue then none else c.cfgFrom } : Chip).setModState .degraded
  else c

/-! ## AUTORUN (R461) -/

/-- After BOOT. -/
def Chip.autoSync (c : Chip) : Chip := if c.autorun = 1 ∨ c.autorun = 2 then c.syncRequest else c
/-- The next ring-cycle boundary at least 2 ticks away. (Model: DESIGN CHOICE, log 76) -/
def Chip.nextBoundary (c : Chip) : Nat := (c.tick + 2 + c.ringCycle - 1) / c.ringCycle * c.ringCycle
/-- 64 ticks after entry to STANDBY: RUN, or a hot join when the partner owns. (Model: DESIGN CHOICE, log 76) -/
def Chip.autoRun (c : Chip) : Chip := match c.standbyAt with
  | none => c
  | some s =>
    if c.autorun = 2 && c.modState == .standby && c.ticking && decide (s + 64 ≤ c.tick) then
      let c := { c with standbyAt := none }
      if c.paired && c.regB 0x700020 28 then c.joinStart else c.runAt c.nextBoundary
    else c

/-! ## The host watchdog (R463) -/

/-- A write to SYS_HOSTWD: TIMEOUT starts the count where it was 0, and stops it where it becomes 0. (Model: DEDUCED, log 75) -/
def Chip.hostWdWrite (c : Chip) (v : W32) : Chip :=
  let off := decide (c.regF 0x220 15 0 = 0)
  let c := c.mapWrite 0x220 v
  { c with wdFrom := if fld v 15 0 = 0 then none else if off then some c.tb3 else c.wdFrom }
/-- A kick restarts the timeout. (Model: DEDUCED, log 75) -/
def Chip.hostKick (c : Chip) (v : W32) : Chip :=
  if bit v 0 && c.regF 0x220 15 0 != 0 then { c with wdFrom := some c.tb3 } else c
/-- The watchdog expires. (Model: DEDUCED, log 75) -/
def Chip.hostWdExpiry (c : Chip) : Chip := match c.wdFrom with
  | none => c
  | some t =>
    if t + c.regF 0x220 15 0 * 1000000 ≤ c.tb3 then
      let act := c.regB 0x220 30 && c.modState != .safe
      let c := { (c.setB 0x220 31 true) with wdFrom := none }
      if act then { c with allFault := true, wantDegraded := true } else c
    else c

/-! ## Resets (R454, R462) -/

/-- A write to SYS_RESET: the reset follows the command (R462). -/
def Chip.resetWrite (c : Chip) (v : W32) : Chip :=
  if fld v 15 8 = 0x5A ∧ (fld v 1 0 = 1 ∨ fld v 1 0 = 2) then { c with resetReq := fld v 1 0 } else c

/-- A reset of Corukan with its cause (R462): everything returns to its reset value but the flash, the Husk die's part of
the digital I/O, and on a warm reset the DRAM. The model's own count of free values goes on. (Model: DESIGN CHOICE, log 72) -/
def Chip.resetChip (c : Chip) (cause : Nat) (warm : Bool) : Chip :=
  let r := Chip.reset
  let c' : Chip := { r with
    flash := c.flash, draws := c.draws, dio := { c.dio with frame := none, clr := none, link := false }
    cells := if warm then c.cells.filter fun e => decide (dramBase ≤ e.1) else []
    mem := { r.mem with lines := if warm then c.mem.lines.filter fun e => decide (dramBase ≤ 64 * e.1) else [] } }
  let c' := (c'.setReg 0xD00000 (c.reg 0xD00000 &&& 0x34)).setReg 0xD00028 (c.reg 0xD00028)
  c'.setF 0x214 31 28 cause

/-- A write to SYS_BOOT_CTRL: GO starts the read of a host-written image in BOOT (R454). -/
def Chip.bootCtrl (c : Chip) (v : W32) : Chip :=
  if bit v 0 && c.modState == .boot && c.regF 0x200 5 4 == 2 then { c with bootGo := true } else c

end Sys2Proof.Machine
end

