-- ==== Sys2Proof/Machine/RegRead.lean ====
section
/-!
DEFINITION. What a register word reads as (R3, R470 to R474, R77, R78): the stored word, the fields the units show, and
zero in write-only fields. Reading through these definitions changes nothing.
-/
namespace Sys2Proof.Machine

/-! ## Words that units show -/

/-- SYS: identity, the tick number, straps. -/
def Chip.sysView (c : Chip) (x : Nat) (w : W32) : W32 := match x with
  | 0x008 => if Config.sa8 then BitVec.ofNat 32 (7680 * 65536 + 2) else BitVec.ofNat 32 (3840 * 65536 + 1)
  | 0x010 => BitVec.ofNat 32 Config.uid.toNat
  | 0x014 => BitVec.ofNat 32 (Config.uid.toNat / 2 ^ 32)
  | 0x118 => BitVec.ofNat 32 c.tick
  | 0x11C => BitVec.ofNat 32 (c.tick / 2 ^ 32)
  | _ => w

/-- POD_STAT.STATE. -/
def PodState.num : PodState → Nat
  | .halted => 0 | .running => 1 | .sleeping => 2 | .handler => 3 | .doubleTrap => 4
/-- Whether a pod stands halted. -/
def Pod.stands (p : Pod) : Bool := p.state == .halted || p.state == .doubleTrap

/-- The scalar and vector registers; s0 reads zero (R41). -/
def Pod.sget (p : Pod) (r : Nat) : W64 := if r = 0 then 0 else tabGet (fun _ => 0) p.sreg r
def Pod.vget (p : Pod) (r : Nat) : W128 := tabGet (fun _ => 0) p.vreg r

/-- A special register (R52). -/
def Pod.srGet (p : Pod) (k : Nat) : W64 := match k with
  | 0 => p.pstat
  | 1 => p.trapen
  | 2 => p.epc
  | 3 => p.ecause
  | 4 => p.eaddr
  | 5 => p.erep
  | 6 => p.esprout
  | 7 => p.cyc
  | 8 => p.agstat
  | 9 => repCounts p.levels
  | _ => 0

/-- A word of a pod's frame (R77, R78). -/
def Chip.podView (c : Chip) (x : Nat) (w : W32) : W32 :=
  let n := x / 0x1000
  let o := x % 0x1000
  let p := c.pod n
  let half := fun (v : W64) => BitVec.ofNat 32 (if o % 8 = 4 then v.toNat / 2 ^ 32 else v.toNat)
  if o = 0 then setBit 0 0 p.run
  else if o = 4 then BitVec.ofNat 32 (p.held.length * 2 ^ 16 + p.lastCause % 256 * 2 ^ 8 + p.state.num)
  else if o = 8 then p.pc.zeroExtend 32
  else if !p.stands then 0
  else if 0x100 ≤ o ∧ o < 0x150 then half (p.counted.srGet ((o - 0x100) / 8))
  else if 0x200 ≤ o ∧ o < 0x300 then half (p.sget ((o - 0x200) / 8))
  else if 0x400 ≤ o ∧ o < 0x600 then BitVec.ofNat 32 ((p.vget ((o - 0x400) / 16)).toNat / 2 ^ (32 * (o % 16 / 4)))
  else w

/-- HST: the number of commits held, and the pending bits of the vectors. -/
def Chip.hstView (c : Chip) (x : Nat) (w : W32) : W32 :=
  if x = 0x24 then setFld w 22 20 c.host.commits.length
  else if x = 0x81000 ∨ x = 0x81004 then
    let base := (x - 0x81000) * 8
    BitVec.ofNat 32 ((List.range 32).foldl (fun a i => a + (c.regB (0xF00100 + 16 * (base + i)) 31).toNat * 2 ^ i) 0)
  else w

/-- A rail's voltage is a measured value, and its minimum since the last read that cleared it is at most that voltage, at most what an
earlier read since then showed, and at most the minimum of a dip since then (R447). (Model: DESIGN CHOICE, log 86) -/
def Chip.railNow (c : Chip) (r : Nat) : Nat := (Config.freeResult 204 [Int.ofNat c.draws, Int.ofNat r] % 65536).toNat
/-- The minimum of a rail since the last read that cleared it (R447): never above the voltage shown. (Model: DESIGN CHOICE, log 86) -/
def Chip.railMin (c : Chip) (r : Nat) : Nat :=
  let low := min (c.railNow r) (Config.freeResult 205 [Int.ofNat c.draws, Int.ofNat r] % 65536).toNat
  match tabGet (fun _ => none) c.hlt.vmin r with | some v => min v low | none => low
/-- HLT: the rails. (Model: DESIGN CHOICE, log 86) -/
def Chip.hltView (c : Chip) (x : Nat) (w : W32) : W32 :=
  if 0x400 ≤ x ∧ x < 0x420 then BitVec.ofNat 32 (c.railMin (x / 4 % 8) * 65536 + c.railNow (x / 4 % 8)) else w
/-- A read of a rail by a master: its next voltage is another, and VMIN starts again where the read clears it. -/
def Chip.railRead (c : Chip) (m r : Nat) : Chip :=
  { c with draws := c.draws + 1
           hlt := { c.hlt with vmin := tabPut (fun _ => none) c.hlt.vmin r (if m = 44 then some (c.railMin r) else none) } }

/-- The stored word as its block shows it. -/
def Chip.shown (c : Chip) (off : Nat) : W32 :=
  let x := off % 0x100000
  let w := c.reg off
  match off / 0x100000 with
  | 0 => c.sysView x w
  | 1 => c.schView x w
  | 2 => c.lpeView x w
  | 3 => c.prfView x w
  | 4 => c.fbkView x w
  | 7 => c.crnView x w
  | 8 => c.timView x w
  | 10 => c.memView x w
  | 11 => c.hltView x w
  | 14 => c.podView x w
  | 15 => c.hstView x w
  | _ => w

/-- What a read of an offset returns: write-only fields read zero, an unassigned offset reads zero (R3, R471). -/
def Chip.readWord (c : Chip) (off : Nat) : W32 := match regDesc off with
  | some d => c.shown off &&& ~~~ (BitVec.ofNat 32 d.wo)
  | none => 0

/-! ## Reads with their effects (R473) -/

/-- Offsets of the LO words of read-only values split across a pair, by block. -/
def isLoWord (off : Nat) : Bool :=
  let x := off % 0x100000
  match off / 0x100000 with
  | 0 => x == 0x10 || x == 0x20 || x == 0x118
  | 3 => (decide (0x30000 ≤ x ∧ x < 0x31000) && x % 16 == 0) ||
      (decide (0x34000 ≤ x ∧ x < 0x3C000) && (x - 0x34000) % 128 == 56) ||
      (decide (0x3C000 ≤ x ∧ x < 0x3C800) && (x - 0x3C000) % 64 == 32)
  | 4 => decide (0x10000 ≤ x ∧ x < 0x12000) && x % 32 == 0
  | 8 => (decide (0x100 ≤ x ∧ x < 0x280) && ((x - 0x100) % 64 == 40 || (x - 0x100) % 64 == 56)) ||
      (decide (0x2000 ≤ x ∧ x < 0x2200) && x % 32 == 12)
  | 9 => decide (0x400 ≤ x ∧ x < 0x500) && (x % 64 == 36 || x % 64 == 44)
  | 10 => x == 0x10
  | 14 => decide (0x100 ≤ x % 0x1000 ∧ x % 0x1000 < 0x300) && x % 8 == 0
  | 15 => decide (0x2000 ≤ x ∧ x < 0x2200) && x % 64 == 28
  | _ => false

/-- The latched HI word of a master. -/
def Chip.hiOf (c : Chip) (m off : Nat) : Option W32 := tabGet (fun _ => none) c.hiLatch (m * 2 ^ 24 + off)
def Chip.setHi (c : Chip) (m off : Nat) (v : Option W32) : Chip :=
  { c with hiLatch := tabPut (fun _ => none) c.hiLatch (m * 2 ^ 24 + off) v }

/-- The effect of a read on the register itself: RC fields clear, except for master 44; the read of a capture's NS
removes its entry. (Model: DESIGN CHOICE, log 109) -/
def Chip.readClear (c : Chip) (m off : Nat) : Chip := match regDesc off with
  | none => c
  | some d =>
    if m = 44 ∨ d.rc = 0 then c
    else if off / 0x1000 = 0x802 ∧ off % 32 = 8 then (c.cpNsRead ((off - 0x802000) / 32)).1
    else c.setReg off (c.reg off &&& ~~~ (BitVec.ofNat 32 d.rc))

/-- What a read by a master returns: a latched HI word, the oldest capture, or the word. -/
def Chip.readValue (c : Chip) (m off : Nat) : W32 :=
  if 4 ≤ off ∧ isLoWord (off - 4) then (c.hiOf m off).getD (c.readWord off)
  else if off / 0x1000 = 0x802 ∧ off % 32 = 8 then (c.cpNsRead ((off - 0x802000) / 32)).2
  else c.readWord off

/-- The state after a read by a master. -/
def Chip.afterRead (c : Chip) (m off : Nat) : Chip :=
  let c := if isLoWord off then c.setHi m (off + 4) (some (c.readWord (off + 4)))
    else if 4 ≤ off ∧ isLoWord (off - 4) then c.setHi m off none else c
  let c := if 0xB00400 ≤ off ∧ off < 0xB00420 then c.railRead m (off / 4 % 8) else c
  c.readClear m off

/-- One 32-bit read of the register space. -/
def Chip.regRead (c : Chip) (m off : Nat) : Chip × W32 := (c.afterRead m off, c.readValue m off)

end Sys2Proof.Machine
end

