-- ==== Sys2Proof/Machine/HostIf.lean ====
section
/-!
DEFINITION. The HST block (R478 to R485): doorbells, submission of commits, MSI-X messages, DMA start, endpoint reset.
What writes through the register space on its own, the commit engine and the DMA channels, stands in Bus.
-/
namespace Sys2Proof.Machine

def hst (x : Nat) : Nat := 0xF00000 + x
def dmaReg (n w : Nat) : Nat := hst 0x2000 + 64 * n + 4 * w

/-- A write of D to HST_DOORBELL (R482). -/
def Chip.doorbell (c : Chip) (v : W32) : Chip := c.fire (16 + fld v 3 0)

/-! ## Commits (R479) -/

/-- A submission is refused: LAST and REF. -/
def Chip.commitRefuse (c : Chip) (k : Nat) : Chip := (c.setF (hst 0x24) 19 16 k).setB (hst 0x24) 0 true

/-- GO of HST_CMT_STAT: the copy starts. -/
def Chip.commitGo (c : Chip) : Chip :=
  if c.host.copying.isSome then c.commitRefuse 6
  else
    let src := c.pair (hst 0x10) % 2 ^ 40
    let c := c.setB (hst 0x24) 4 true
    { c with host := { c.host with copying := some (src, c.regF (hst 0x18) 6 0, c.pair (hst 0x1C)) } }

/-- A write to HST_CMT_STAT. -/
def Chip.commitWrite (c : Chip) (v : W32) : Chip :=
  let c := c.mapWrite (hst 0x24) v
  if bit v 31 then c.commitGo else c

/-- The entries of a list: address and value. -/
def Chip.commitEntries (c : Chip) (src n : Nat) : List (Nat × W32) :=
  (List.range n).map fun i => (c.numAt (src + 16 * i) 8, BitVec.ofNat 32 (c.numAt (src + 16 * i + 8) 4))

/-- Whether an entry's address is one a commit may write: 4-aligned, in cell memory or in the register space outside SYS
and HST. -/
def commitAddrOk (a : Nat) : Bool :=
  a % 4 == 0 && (inCell a 4 ||
    (spaceOf a == .regs && (a - regBase) / 0x100000 != 0 && (a - regBase) / 0x100000 != 15))

/-- The lines of the list are checked, each with what its check finds; a check that is not named passes. (Model: DESIGN CHOICE, log 88) -/
def Chip.checkLines (c : Chip) (kind pod : Nat) : List Nat → List LineCheck → Chip × Access
  | [], _ => (c, .ok)
  | l :: ls, chks => match c.checkLine kind pod (64 * l) (chks.headD .pass) with
    | (c, .ok) => c.checkLines kind pod ls chks.tail
    | r => r

/-- The copy completes and the commit is checked (R479). While a line of the list is being corrected the copy goes on.
(Model: DEDUCED, log 78) -/
def Chip.commitCopied (c : Chip) (chks : List LineCheck) : Chip := match c.host.copying with
  | none => c
  | some (src, n, t) =>
    let placed := src % 16 == 0 && (inCell src (16 * n) || inUsableDram src (16 * n))
    let r := if placed then c.checkLines 3 0 (linesOf src (16 * n)) chks else (c, .ok)
    if r.2 = .wait then r.1
    else
      let c := (r.1.setB (hst 0x24) 4 false)
      let c := { c with host := { c.host with copying := none } }
      let es := c.commitEntries src n
      let held := (c.host.commits.filter fun x => x.tick == t).foldl (fun a x => a + x.entries.length) 0
      if !(c.modState == .sync || c.modState == .standby || c.modState == .run || c.modState == .degraded) then c.commitRefuse 7
      else if n = 0 || decide (n > 64) || !placed || !es.all (fun e => commitAddrOk e.1) then c.commitRefuse 1
      else if r.2 = .bad then c.commitRefuse 4
      else if !c.notStarted t then c.commitRefuse 2
      else if c.host.commits.length ≥ 4 then c.commitRefuse 3
      else if held + n > 64 then c.commitRefuse 5
      else
        { c.setF (hst 0x24) 19 16 0 with
          host := { c.host with commits := c.host.commits ++ [{ tick := t, entries := es }] } }

/-! ## The configuration space (R475) -/

/-- The host writes its configuration space: of a base address the bits that place 16 MiB, and the two bits of the MSI-X capability. -/
def Chip.pciWrite (c : Chip) (x : PciSpace) : Chip :=
  let base := fun (b : W64) => b &&& ~~~ 0xFFFFFF#64
  { c with host := { c.host with pci := { x with bar0 := base x.bar0, bar2 := base x.bar2 } } }

/-- What the configuration space reads as (R475): identity, revision and class, the base addresses with their types (64 bits wide,
BAR2 prefetchable), and the MSI-X capability, which the model puts at 0x40: 64 entries, table and PBA in BAR0. The other words the
spec leaves to the standard. (Model: DEDUCED, log 79) -/
def Chip.pciWord (c : Chip) (off : Nat) : Option W32 := match off with
  | 0x00 => some 0x00961FB7
  | 0x08 => some 0x0B4000B0
  | 0x10 => some (BitVec.ofNat 32 (c.host.pci.bar0.toNat + 4))
  | 0x14 => some (BitVec.ofNat 32 (c.host.pci.bar0.toNat / 2 ^ 32))
  | 0x18 => some (BitVec.ofNat 32 (c.host.pci.bar2.toNat + 12))
  | 0x1C => some (BitVec.ofNat 32 (c.host.pci.bar2.toNat / 2 ^ 32))
  | 0x20 => some 0
  | 0x24 => some 0
  | 0x40 => some (BitVec.ofNat 32 (0x11 + 63 * 2 ^ 16 + c.host.pci.fnMask.toNat * 2 ^ 30 + c.host.pci.msixEn.toNat * 2 ^ 31))
  | 0x44 => some 0xF80000
  | 0x48 => some 0xF81000
  | _ => none

/-! ## Vectors (R483) -/

/-- A pending vector sends its message when nothing masks it and its hold-off has passed. -/
def Chip.msix (c : Chip) (v : Nat) : Chip :=
  let w := hst 0x100 + 16 * v
  let free := match tabGet (fun _ => none) c.host.lastMsg v with
    | none => true
    | some t => decide (t + c.regF w 15 0 * 1000 ≤ c.tb3)
  if c.regB w 31 && !c.regB (hst 0x8000C + 16 * v) 0 && !c.host.pci.fnMask && free then
    { (c.setB w 31 false).addWrap (w + 4) 1 with
      host := { c.host with lastMsg := tabPut (fun _ => none) c.host.lastMsg v (some c.tb3) } }
  else c

/-! ## DMA (R484) -/

/-- A vector signalled directly, without an event source, when IRQ is 1. -/
def Chip.dmaSignal (c : Chip) (n : Nat) : Chip :=
  if c.regB (dmaReg n 0) 29 then c.vecPend (c.regF (dmaReg n 0) 21 16) else c
def Chip.dmaBusy (c : Chip) (n : Nat) : Bool := c.regB (dmaReg n 6) 31
/-- What a running channel moves: its first internal address, its bytes, and whether they leave the module. -/
def Chip.dmaMoves (c : Chip) (n : Nat) : Nat × Nat × Bool := tabGet (fun _ => (0, 0, false)) c.host.dmaJob n

/-- Whether a channel's settings obey the alignment rules. (Model: DEDUCED, log 78) -/
def Chip.dmaAligned (c : Chip) (n : Nat) : Bool :=
  c.regF (dmaReg n 1) 5 0 == 0 && c.regF (dmaReg n 3) 5 0 == 0 && c.regF (dmaReg n 5) 5 0 == 0 && c.reg (dmaReg n 5) != 0

/-- A channel starts with the address, length and direction that its words then hold. (Model: DEDUCED, log 78) -/
def Chip.dmaStart (c : Chip) (n : Nat) : Chip :=
  let job := (c.pair (dmaReg n 3) % 2 ^ 40, (c.reg (dmaReg n 5)).toNat, c.regB (dmaReg n 0) 30)
  let c := { c with host := { c.host with dmaJob := tabPut (fun _ => (0, 0, false)) c.host.dmaJob n job } }
  (c.setB (dmaReg n 6) 31 true).setReg (dmaReg n 9) 0
/-- A write to word 0 of a channel: GO starts it; GO while BUSY is ignored. (Model: DEDUCED, log 78) -/
def Chip.dmaGo (c : Chip) (n : Nat) (v : W32) : Chip :=
  let c := c.mapWrite (dmaReg n 0) v
  if bit v 31 && !c.dmaBusy n && c.dmaAligned n then c.dmaStart n else c

/-- A channel halts (R484). -/
def Chip.dmaHalt (c : Chip) (n cause addr : Nat) : Chip :=
  let c := ((c.setB (dmaReg n 6) 31 false).setB (dmaReg n 6) 29 true).setF (dmaReg n 6) 27 24 cause
  ((c.setReg (dmaReg n 7) (BitVec.ofNat 32 addr)).setReg (dmaReg n 8) (BitVec.ofNat 32 (addr / 2 ^ 32 % 256))).dmaSignal n

/-- A channel completes once all its bytes are moved. -/
def Chip.dmaDone (c : Chip) (n : Nat) : Chip :=
  if c.dmaBusy n && (c.reg (dmaReg n 9)).toNat == (c.dmaMoves n).2.1 then
    ((c.setB (dmaReg n 6) 31 false).setB (dmaReg n 6) 30 true).dmaSignal n
  else c

/-- The channel the round robin serves next. -/
def Chip.dmaTurn (c : Chip) : Option Nat :=
  ((List.range 8).map fun j => (c.host.dmaNext + j) % 8).find? fun n => c.dmaBusy n && (c.reg (dmaReg n 9)).toNat != (c.dmaMoves n).2.1

/-! ## Endpoint reset (R478) -/

/-- A hot reset or link-down: the endpoint's registers, running DMA with CAUSE 3 at its next address, and pending vectors, those of
the halts among them. (Model: DEDUCED, log 79) -/
def Chip.endpointReset (c : Chip) : Chip :=
  let busy := (List.range 8).filter fun n => c.dmaBusy n
  let c := forN 8 (fun n c => c.setF (dmaReg n 6) 31 29 0) c
  let c := forL busy (fun n c => c.dmaHalt n 3 ((c.dmaMoves n).1 + (c.reg (dmaReg n 9)).toNat)) c
  let c := forN 64 (fun v c => c.setB (hst 0x100 + 16 * v) 31 false) c
  { c with
    regs := c.regs.filter fun e => !(decide (hst 0x80000 ≤ e.1) || decide (hst 0x40 ≤ e.1 ∧ e.1 < hst 0x80) || e.1 == hst 4)
    host := { c.host with pci := PciSpace.reset } }

/-- A write to a word of the HST block. -/
def Chip.hstWrite (c : Chip) (x : Nat) (v : W32) : Chip :=
  if x = 8 then c.doorbell v
  else if x = 0x24 then c.commitWrite v
  else if 0x2000 ≤ x ∧ x < 0x2200 ∧ x % 64 = 0 then c.dmaGo ((x - 0x2000) / 64) v
  else c.mapWrite (hst x) v

end Sys2Proof.Machine
end

