-- ==== Sys2Proof/Machine/Snapshot.lean ====
section
/-!
DEFINITION. The snapshot (R464 to R466): its request, its image as it stands at t₀ of its tick, and its completion.
-/
namespace Sys2Proof

/-- The internal state a block adds to a snapshot, whose layout the spec fixes for each stepping and does not give
(R465); empty for a block that adds none. (Model: DESIGN CHOICE, log 56; DESIGN CHOICE, log 80) -/
opaque Config.internalBytes : (block : Nat) → Machine.Chip → List Byte

namespace Machine

/-! ## The image -/

/-- The blocks of a snapshot, ascending (R465). -/
def snapBlocks : List Nat := [0, 1, 2, 3, 4, 5, 6, 7, 8, 10, 11, 13]
/-- The ranges a snapshot omits: LPE_SINTAB, table 0 of PRF_MSTAB, STR_RXBUF. -/
def snapOmits (off : Nat) : Bool :=
  decide (0x240000 ≤ off ∧ off < 0x280000) || decide (0x33D000 ≤ off ∧ off < 0x33D200) || decide (0x610000 ≤ off ∧ off < 0x618000)
/-- Whether a word of the register space belongs to a snapshot. -/
def snapHas (off : Nat) : Bool := (regDesc off).isSome && !snapOmits off

/-- The runs of words that follow one another, as start and length in words; the list is ascending. (Model: DESIGN CHOICE, log 80) -/
def runsOf : List Nat → List (Nat × Nat)
  | [] => []
  | x :: l => match runsOf l with
    | (y, n) :: r => if y = x + 4 then (x, n + 1) :: r else (x, 1) :: (y, n) :: r
    | [] => [(x, 1)]
/-- The mapped ranges of a block below the internal sections: offset within the block and words. -/
def snapRuns (b : Nat) : List (Nat × Nat) :=
  runsOf (((List.range 0x3C000).map (4 * ·)).filter fun x => snapHas (b * 0x100000 + x))

/-- A section: block, offset within it, data. (Model: DESIGN CHOICE, log 80) -/
def Chip.snapSections (c : Chip) : List (Nat × Nat × List Byte) :=
  snapBlocks.flatMap fun b =>
    (snapRuns b).map (fun r => (b, r.1, ((List.range r.2).map fun i =>
      toBytes 4 (c.readWord (b * 0x100000 + r.1 + 4 * i)).toNat).flatten)) ++
    (if (Config.internalBytes b c).isEmpty then [] else [(b, 0xF0000, Config.internalBytes b c)])

/-- The section table for sections whose data begins at `at_`. -/
def snapTable : List (Nat × Nat × List Byte) → (at_ : Nat) → List Byte
  | [], _ => []
  | (b, x, d) :: l, at_ => toBytes 4 b ++ toBytes 4 x ++ toBytes 4 d.length ++ toBytes 4 at_ ++ snapTable l (at_ + d.length)

/-- The header of an image, with a CRC field. -/
def Chip.snapHeader (c : Chip) (n len crc : Nat) : List Byte :=
  toBytes 4 0x50414E53 ++ toBytes 2 1 ++ toBytes 2 n ++ toBytes 4 len ++ toBytes 4 crc ++ toBytes 8 c.tick
    ++ toBytes 1 c.modState.num ++ toBytes 1 (c.regF 0x200 3 0) ++ toBytes 2 (c.readWord 4).toNat ++ List.replicate 36 0

/-- The snapshot image of the present state. Section data follow the table without gaps. -/
def Chip.snapImage (c : Chip) : List Byte :=
  let s := c.snapSections
  let data := (s.map fun x => x.2.2).flatten
  let start := 64 + 16 * s.length
  let body := snapTable s start ++ data
  let len := start + data.length
  c.snapHeader s.length len (crc32c (c.snapHeader s.length len 0 ++ body)) ++ body

/-! ## Request and completion -/

/-- Whether the buffer at an address obeys R466. -/
def Chip.snapPlaced (c : Chip) (a : Nat) : Bool :=
  a % 65536 == 0 && inUsableDram a 0x800000 && decide (dramBase + c.golden.1 ≤ a) &&
    (List.range 64).all fun r => !(c.regB (memReg r 0) 31 && c.regionKind r == 1) ||
      disjoint [(a, 0x800000), (c.regionBase r, c.regionLen r)]

def Chip.snapRefuse (c : Chip) : Chip := c.setB 0x244 2 true

/-- A write to SYS_SNAP_CTRL. (Model: DESIGN CHOICE, log 80) -/
def Chip.snapCtrl (c : Chip) (v : W32) : Chip :=
  if !bit v 0 then c
  else
    let t := if bit v 1 then c.pair 0x23C else c.nextTick.getD c.firstTick
    let a := c.pair 0x230 % 2 ^ 40
    if c.regB 0x244 0 || !c.snapPlaced a || (bit v 1 && !c.notStarted t) then c.snapRefuse
    else { (c.setF 0x244 1 0 1) with snapAt := some t, snapTo := a }

/-- At t₀ of its tick the image is taken. (Model: DESIGN CHOICE, log 80) -/
def Chip.snapTick (c : Chip) : Chip := match c.snapAt with
  | none => c
  | some t => if t ≤ c.tick then { c with snapImg := c.snapImage, snapAt := none } else c

/-- The copy completes. -/
def Chip.snapDone (c : Chip) : Chip :=
  if c.snapImg.isEmpty then c
  else
    let c' := (c.engineStore c.snapTo c.snapImg).setReg 0x248 (BitVec.ofNat 32 c.snapImg.length)
    ({ (c'.setF 0x244 1 0 2) with snapImg := [] } : Chip).fire 8

end Machine
end Sys2Proof
end

