-- ==== Sys2Proof/Machine/Bus.lean ====
section
/-!
DEFINITION. Accesses to the register space and to memory (R37 to R40, R470 to R473, R477), control of the pods (R77, R79),
and the agents that make such accesses on their own: the commit engine (R480) and the DMA channels (R484).
-/
namespace Sys2Proof.Machine

/-! ## The POD block (R73, R76 to R79, R117, R118) -/

/-- A halted pod runs: CYCLE counts from 0 (R52), and a pending overrun trap is taken first (R73).
(Model: DEDUCED, log 27; DEDUCED, log 100) -/
def Pod.start (p : Pod) : Pod :=
  let p := { p with started := true, cyc := 0, state := if p.inHandler then .handler else .running }
  match p.pendOverrun with
  | some esp => if p.inHandler then p else ({ p with pendOverrun := none }).enterTrap 6 0 p.pc 0 esp
  | none => p

/-- POD_CTRL.RUN 1 (R79): a pod that waits for its restart runs once restarted; one halted by a double trap stays.
(Model: DEDUCED, log 27; DEDUCED, log 81) -/
def Pod.run1 (p : Pod) : Pod :=
  let p := { p with run := true }
  if p.state = .halted && !p.pendRestart then p.start else p
/-- POD_CTRL.RUN 0: the pod halts at its instruction boundary, or at once while it sleeps; its accept mask clears.
(Model: DESIGN CHOICE, log 103) -/
def Pod.run0 (p : Pod) : Pod :=
  let p := p.wake
  { p with run := false, accept := 0, state := if p.state = .doubleTrap then .doubleTrap else .halted }

/-- A write to POD_CTRL of a pod. STEP and RESTART act on a pod that the write finds halted. (Model: DEDUCED, log 81; DEDUCED, log 100) -/
def Chip.podCtrl (c : Chip) (n : Nat) (v : W32) : Chip :=
  let p := c.pod n
  let halted := p.stands
  let c := if bit v 2 && halted then c.modPod n fun p => { p with pendRestart := true } else c
  let c := if bit v 1 && !bit v 0 && p.state == .halted then { c with stepReq := c.stepReq ++ [n] } else c
  if bit v 0 then c.modPod n Pod.run1
  else if halted then c.modPod n Pod.run0
  else
    let d := c.draw
    d.2.modPod n fun p => (p.count d.1).run0

/-! ## Writes to the register space -/

/-- A write to a word of the SYS block. -/
def Chip.sysWrite (c : Chip) (x : Nat) (v : W32) : Chip := match x with
  | 0x100 => c.tickPeriodWrite v
  | 0x104 => c.tickEdgeWrite 0x104 v
  | 0x108 => c.tickEdgeWrite 0x108 v
  | 0x10C => c.tickTierWrite v
  | 0x204 => c.setReg 0x204 (c.reg 0x204 &&& ~~~ (v &&& 0xF00#32))
  | 0x208 => c.stateRequest v
  | 0x218 => c.bootCtrl v
  | 0x21C => c.resetWrite v
  | 0x220 => c.hostWdWrite v
  | 0x224 => c.hostKick v
  | 0x238 => c.snapCtrl v
  | 0x308 => { c with spsReq := c.spsReq ||| v }
  | _ => c.mapWrite x v

/-- The owning block acts on a write to an assigned word. -/
def Chip.blockWrite (c : Chip) (off : Nat) (v : W32) : Chip :=
  let x := off % 0x100000
  match off / 0x100000 with
  | 0 => c.sysWrite x v
  | 1 => c.schWrite x v
  | 2 => c.lpeWrite x v
  | 3 => c.prfWrite x v
  | 4 => c.fbkWrite x v
  | 5 => c.sepWrite x v
  | 6 => c.strWrite x v
  | 7 => c.crnWrite x v
  | 8 => c.timWrite x v
  | 9 => c.ethWrite x v
  | 10 => c.memWrite x v
  | 11 => c.hltWrite x v
  | 13 => c.dioWrite x v
  | 14 => if x % 0x1000 = 0 then c.podCtrl (x / 0x1000) v else c
  | 15 => c.hstWrite x v
  | _ => c

/-- One 32-bit write of a master to the register space (R471); only the host sets TB0 (R368, R469).
(Model: DEDUCED, log 16; DEDUCED, log 18) -/
def Chip.regWrite (c : Chip) (m off : Nat) (v : W32) : Chip :=
  if off / 0x100000 = 12 then c.logAccess m 5 (regBase + off)
  else if 0x900400 ≤ off ∧ off < 0x900500 ∧ m ≠ 40 then c.logAccess m 5 (regBase + off)
  else if (regDesc off).isNone then c.badStore m 6 (regBase + off)
  else if 0x80011C ≤ off ∧ off < 0x800128 ∧ ¬ (32 ≤ m ∧ m ≤ 42) then c.timIgn
  else c.blockWrite off v

/-- Consecutive words from an offset on. (Model: DEDUCED, log 16) -/
def Chip.regWrites (c : Chip) (m off : Nat) : List W32 → Chip
  | [] => c
  | v :: vs => (c.regWrite m off v).regWrites m (off + 4) vs
/-- Consecutive words read from an offset on. -/
def Chip.regReads (c : Chip) (m off : Nat) : (n : Nat) → Chip × List W32
  | 0 => (c, [])
  | n + 1 =>
    let r := (c.afterRead m off).regReads m (off + 4) n
    (r.1, c.readValue m off :: r.2)

/-- The words of little-endian bytes, and back. -/
def wordsOf : List Byte → List W32
  | a :: b :: c :: d :: bs => BitVec.ofNat 32 (ofBytes [a, b, c, d]) :: wordsOf bs
  | _ => []
def bytesOf (ws : List W32) : List Byte := (ws.map fun w => toBytes 4 w.toNat).flatten

/-! ## Stores and loads of any space (R39, R40, R470) -/

/-- A store by a master: to the register space in ascending words, else to memory. A store of fewer than 4 bytes to a
register is discarded with KIND 4. (Model: DEDUCED, log 16) -/
def Chip.busStore (c : Chip) (m a : Nat) (bs : List Byte) : Chip :=
  if spaceOf a = .regs then
    if bs.length % 4 != 0 || a % 4 != 0 then c.logAccess m 4 a else c.regWrites m (a - regBase) (wordsOf bs)
  else (c.memStore m 1 a bs).1

/-- A load of `n` bytes by a master, without a line check: the register space by words with their effects, else
memory. -/
def Chip.busLoad (c : Chip) (m a n : Nat) : Chip × List Byte :=
  if spaceOf a = .regs then
    let r := c.regReads m (a - regBase) (n / 4)
    (r.1, bytesOf r.2)
  else (c, c.loadBytes a n)

/-- Whether a load may reach an address: a mapped space. (Model: DEDUCED, log 21) -/
def loadable (a : Nat) : Bool := spaceOf a != .unmapped

/-! ## Writes that a block ignores (R454, R480) -/

/-- The status fields in which the blocks report a write they ignored or refused: offset and bits. (Model: DESIGN CHOICE, log 19) -/
def ignMarks : List (Nat × W32) :=
  [ (0x28, 0x80000000#32), (0x110, 3#32), (0x204, 0xF00#32), (0x244, 4#32), (0x100000, 0x18#32), (0x200000, 3#32), (0x300000, 7#32),
    (0x400000, 3#32), (0x500000, 4#32), (0x600000, 3#32), (0x700000, 4#32), (0x800000, 2#32), (0x900000, 2#32), (0xA00000, 1#32),
    (0xB00000, 1#32), (0xD00000, 2#32) ]

/-- The chip with every mark of `ignMarks` clear. -/
def Chip.unmarked (c : Chip) : Chip := forL ignMarks (fun x c => c.setReg x.1 (c.reg x.1 &&& ~~~ x.2)) c

/-- A change of the chip and whether a write within it was ignored or refused: whether it would set a mark that was clear.
(Model: DESIGN CHOICE, log 19) -/
def Chip.watch (c : Chip) (f : Chip → Chip) : Chip × Bool :=
  let seen := f c.unmarked
  (f c, ignMarks.any fun x => seen.reg x.1 &&& x.2 != 0)

/-- Whether a block ignores a write without a mark: SYS_RESET with another KEY (R462), WIN 0, region and source words outside CONFIG
(R432), GO of a channel that is BUSY (R484). (Model: DESIGN CHOICE, log 19) -/
def Chip.ignoresQuietly (c : Chip) (off : Nat) (v : W32) : Bool :=
  (off == 0x21C && fld v 15 8 != 0x5A) || (off == 0xA00004 && fld v 7 0 == 0) ||
    (!c.inConfig && ((decide (0xA00100 ≤ off) && decide (off < 0xA00200)) ||
      (decide (0xA01000 ≤ off) && decide (off < 0xA01800) && decide (off % 32 < 24)))) ||
    (decide (hst 0x2000 ≤ off) && decide (off < hst 0x2200) && off % 64 == 0 && bit v 31 && c.dmaBusy ((off - hst 0x2000) / 64))
/-- The same of a write to an address. -/
def Chip.ignoresAt (c : Chip) (a : Nat) (v : W32) : Bool := spaceOf a == .regs && c.ignoresQuietly (a - regBase) v

/-! ## The commit engine (R480) -/

/-- (Model: DESIGN CHOICE, log 19) -/
def Chip.setPartial (c : Chip) : Chip := c.setB (hst 0x24) 1 true

/-- A write of a commit: to a register as master 42, or to cell memory. (Model: DESIGN CHOICE, log 19) -/
def Chip.commitOne (c : Chip) (e : Nat × W32) : Chip :=
  let r := c.watch fun c => c.busStore 42 e.1 (toBytes 4 e.2.toNat)
  if r.2 || c.ignoresAt e.1 e.2 then r.1.setPartial else r.1

/-- At t₀ of its tick every held commit is applied in order of acceptance. A joiner logs the writes (R360). -/
def Chip.commitApply (c : Chip) : Chip :=
  let l := c.host.commits.filter fun x => x.tick == c.tick
  if l.isEmpty || !c.ticking then c
  else
    let c := { c with host := { c.host with
      commits := c.host.commits.filter (fun x => x.tick != c.tick), applied := some c.tick } }
    let c := forL l (fun x c => forL x.entries (fun e c => c.commitOne e) c) c
    let c := c.setB (hst 0x24) 2 true
    if c.regB (hst 0x24) 30 then c.vecPend (c.regF (hst 0x24) 29 24) else c

/-- A phase applies writes that waited for it: in the tick of a commit an ignored one sets PARTIAL. -/
def Chip.phaseWatch (c : Chip) (f : Chip → Chip) : Chip :=
  if c.host.applied = some c.tick then
    let r := c.watch f
    if r.2 then r.1.setPartial else r.1
  else f c

/-! ## DMA (R484) -/

/-- One 64-byte line into the module: the Bool says whether the channel goes on. -/
def Chip.dmaLineIn (c : Chip) (n a : Nat) (bs : List Byte) : Chip × Bool :=
  match spaceOf a with
  | .regs => (c.busStore (32 + n) a bs, true)
  | .unmapped | .crcArea => (c.dmaHalt n 2 a, false)
  | .imem p => if c.podHalted p then ((c.memStore (32 + n) 1 a bs).1, true) else (c.dmaHalt n 2 a, false)
  | _ =>
    if c.isBacked a && !c.inConfig then (c.dmaHalt n 2 a, false)
    else ((c.memStore (32 + n) 1 a bs).1, true)

/-- One 64-byte line out of the module: `none` while the line is being corrected. (Model: DEDUCED, log 78) -/
def Chip.dmaLineOut (c : Chip) (n a : Nat) (chk : LineCheck) : Chip × Option Bool :=
  match spaceOf a with
  | .unmapped => (c.dmaHalt n 2 a, some false)
  | .regs => ((c.regReads (32 + n) (a - regBase) 16).1, some true)
  | .crcArea => (c, some true)
  | _ => match c.checkLine 3 0 a chk with
    | (c, .ok) => (c, some true)
    | (c, .wait) => (c, none)
    | (c, .bad) => ((c.fire 422).dmaHalt n 1 a, some false)

/-- The lines of a piece in order, each with what its check finds. Both directions wait for a line in handling (R423). -/
def Chip.dmaLines (c : Chip) (n : Nat) (data : List Byte) (chks : List LineCheck) : (lines : Nat) → Chip
  | 0 => c
  | k + 1 =>
    let done := (c.reg (dmaReg n 9)).toNat
    let a := (c.dmaMoves n).1 + done
    let step := fun (c : Chip) => c.setReg (dmaReg n 9) (BitVec.ofNat 32 (done + 64))
    if (c.dmaMoves n).2.2 then match c.dmaLineOut n a (chks.headD .pass) with
      | (c, some true) => (step c).dmaLines n data chks.tail k
      | (c, _) => c
    else if (c.storeWaits a).isSome then c
    else match chks.headD .pass with
      | .fail _ _ => (step (c.storeParityFail a)).dmaLines n (data.drop 64) chks.tail k
      | _ => match c.dmaLineIn n a (data.take 64) with
        | (c, true) => (step c).dmaLines n (data.drop 64) chks.tail k
        | (c, false) => c

/-- The next piece of up to 512 bytes of the channel whose turn it is. `data` is what the host sent for it, `pcieOk` says
that its completions came without error. (Model: DEDUCED, log 78) -/
def Chip.dmaPiece (c : Chip) (data : List Byte) (pcieOk : Bool) (chks : List LineCheck) : Chip := match c.dmaTurn with
  | none => c
  | some n =>
    let left := (c.dmaMoves n).2.1 - (c.reg (dmaReg n 9)).toNat
    let c := { c with host := { c.host with dmaNext := (n + 1) % 8 } }
    if !pcieOk then c.dmaHalt n 3 ((c.dmaMoves n).1 + (c.reg (dmaReg n 9)).toNat)
    else c.dmaLines n data chks (min 512 left / 64)

/-! ## The memory window (R477, R478) -/

/-- The address an offset of BAR2 reaches. -/
def Chip.barAddr (c : Chip) (off : Nat) : Nat :=
  if off < 0x800000 then cellBase + off else c.regF (hst 4) 16 0 * 0x800000 + (off - 0x800000)
/-- Whether the window maps the address. (Model: DEDUCED, log 78) -/
def barMapped (off a : Nat) : Bool := decide (off < 0x800000) || (decide (dramBase ≤ a) && decide (a < dramEnd))

/-- The host's write of the parts of an access, each in one line and with what its transfer's check found (R414). -/
def Chip.barParts (c : Chip) : List (Nat × List Byte) → List LineCheck → Chip
  | [], _ => c
  | p :: ps, chks =>
    let c := match chks.headD .pass with
      | .fail _ _ => c.storeParityFail p.1
      | _ => (c.memStore 40 1 p.1 p.2).1
    c.barParts ps chks.tail

/-- A PCIe access through BAR2, each of its lines with what its check finds. The golden copy of a host-written image takes writes until
GO (R454). -/
def Chip.barAccess (c : Chip) (write : Bool) (off : Nat) (data : List Byte) (chks : List LineCheck) : Chip :=
  let a := c.barAddr off
  let ls := linesOf a data.length
  if !barMapped off a then c.logAccess 40 7 a
  else if write then
    if c.bootGo && decide (dramBase ≤ a ∧ a < dramBase + 0x4000000) then c.badStore 40 1 a
    else if chks.all (fun k => match k with | .fail _ _ => false | _ => true) then (c.memStore 40 1 a data).1
    else c.barParts (lineParts ls.length a data) chks
  else if spaceOf a = .crcArea then c
  else (c.checkLines 5 0 ls chks).1

end Sys2Proof.Machine
end

