-- ==== Sys2Proof/Machine/SafeGeo.lean ====
section
/-!
DEFINITION. The formulas of speed-and-separation monitoring (R289): link transforms, sphere centres, separations and the
required separation, in fixed point. The spec gives the formulas and no number format: each result differs from its
formula by a free rounding error below 2^-30.
-/
namespace Sys2Proof.Machine

/-- A result of R289 in units of 2^-40, with its rounding error. (Model: DESIGN CHOICE, log 14) -/
def rounded (tag : Nat) (args : List Int) (v : Int) : Int := v + Config.freeResult tag args % 2049 - 1024

/-! ## Angles: radians scaled by 2^160 -/

def fullTurn : Int := 2 * (piScaled : Int)
/-- The angle of a position in revolutions, Q24.40. -/
def turnAngle (p : Int) : Int := fullTurn * p / 2 ^ 40
/-- sin(x) for 0 ≤ x < π. -/
def sinUpper (x : Nat) : Nat := if 2 * x > piScaled then sinScaled (piScaled - x) else sinScaled x
/-- sin and cos of an angle, scaled by 2^64. -/
def sinFix (x : Int) : Int :=
  let r := (x % fullTurn).toNat
  (if r < piScaled then (sinUpper r : Int) else -(sinUpper (r - piScaled) : Int)) / 2 ^ 96
def cosFix (x : Int) : Int := sinFix (x + (piScaled : Int) / 2)

/-! ## Points: metres scaled by 2^64 -/

structure Point where
  x : Int
  y : Int
  z : Int
  deriving DecidableEq, Repr

def fixMul (a b : Int) : Int := a * b / 2 ^ 64
def Point.rotZ (p : Point) (t : Int) : Point :=
  { p with x := fixMul (cosFix t) p.x - fixMul (sinFix t) p.y, y := fixMul (sinFix t) p.x + fixMul (cosFix t) p.y }
def Point.rotX (p : Point) (t : Int) : Point :=
  { p with y := fixMul (cosFix t) p.y - fixMul (sinFix t) p.z, z := fixMul (sinFix t) p.y + fixMul (cosFix t) p.z }
def Point.shift (p : Point) (x y z : Int) : Point := { x := p.x + x, y := p.y + y, z := p.z + z }
/-- A little-endian f32 at an offset of a record as metres. -/
def fixAt (r : List Byte) (off : Nat) : Int := f32Fix 64 (BitVec.ofNat 32 (leAt r off 4))
/-- The same as an angle. -/
def angleAt (r : List Byte) (off : Nat) : Int := f32Fix 160 (BitVec.ofNat 32 (leAt r off 4))

/-- T_i = Rot_z(θ) · Trans_z(d) · Trans_x(a) · Rot_x(α) of link `i` of a model record, at joint position `p`. -/
def linkMove (r : List Byte) (i : Nat) (p : Int) (v : Point) : Point :=
  let o := 0x14 + 20 * i
  let linear := leAt r o 4 == 1
  let th := angleAt r (o + 16) + (if linear then 0 else turnAngle p)
  let d := fixAt r (o + 12) + (if linear then p * 2 ^ 24 else 0)
  (((v.rotX (angleAt r (o + 8))).shift (fixAt r (o + 4)) 0 0).shift 0 0 d).rotZ th

/-- T_0 ⋯ T_n applied to a point; `ps` holds the positions of links 0 to n. -/
def chainMove (r : List Byte) : (i : Nat) → (ps : List Int) → Point → Point
  | _, [], v => v
  | i, p :: ps, v => linkMove r i p (chainMove r (i + 1) ps v)

/-- The centre of sphere `s`: BASE · T_0 ⋯ T_L · (OX, OY, OZ). -/
def sphereAt (r : List Byte) (ps : List Int) (s : Nat) : Point :=
  let o := 0xB4 + 20 * s
  let v : Point := { x := fixAt r (o + 4), y := fixAt r (o + 8), z := fixAt r (o + 12) }
  ((chainMove r 0 (ps.take (leAt r o 4 + 1)) v).rotZ (angleAt r 16)).shift (fixAt r 4) (fixAt r 8) (fixAt r 12)

/-- The centres of a model's spheres, x, y, z of each in 2^-40 m. (Model: DESIGN CHOICE, log 14) -/
def centresOf (r : List Byte) (ps : List Int) : List Int :=
  ((List.range (leAt r 2 1)).map fun s =>
    let q := sphereAt r ps s
    [rounded 101 [Int.ofNat s, 0, q.x] (q.x / 2 ^ 24), rounded 101 [Int.ofNat s, 1, q.y] (q.y / 2 ^ 24),
      rounded 101 [Int.ofNat s, 2, q.z] (q.z / 2 ^ 24)]).flatten

/-! ## Separation: 2^-40 m and 2^-40 m/s -/

/-- The displacement of sphere `s` between two lists of centres. -/
def displacement (old new : List Int) (s : Nat) : Nat :=
  let d := fun i => (new.getD (3 * s + i) 0 - old.getD (3 * s + i) 0).natAbs
  isqrt (d 0 * d 0 + d 1 * d 1 + d 2 * d 2)

/-- v_r: the largest displacement divided by t_cyc, `cyc` sixty-fourths of a microsecond. (Model: DESIGN CHOICE, log 14) -/
def largestSpeed (old new : List Int) (cyc : Nat) : Int :=
  let m := ((List.range (new.length / 3)).map (displacement old new)).foldl max 0
  rounded 102 (old ++ new) (m * 64000000 / cyc : Nat)

/-- S_p of the group record's SF fields in the order VH, TR, TS, AS, C. (Model: DESIGN CHOICE, log 14) -/
def requiredSep (vr : Int) (sf : List W32) : Int :=
  let f := fun i => f32Fix 64 (sf.getD i 0)
  rounded 103 [vr] (f 0 * (f 1 + f 2) / 2 ^ 88 + vr * f 1 / 2 ^ 64 + vr * vr * 2 ^ 108 / f32Fix 149 (sf.getD 3 0) +
    f32Fix 40 (sf.getD 4 0))

/-- d of a sphere centre and radius and a track's X, Y, RAD. (Model: DESIGN CHOICE, log 14) -/
def trackSep (xs ys : Int) (r : W32) (t : List W32) : Int :=
  let dx := (xs - f32Fix 40 (t.getD 0 0)).natAbs
  let dy := (ys - f32Fix 40 (t.getD 1 0)).natAbs
  rounded 105 [xs, ys] ((isqrt (dx * dx + dy * dy) : Nat) - f32Fix 40 (t.getD 2 0) - f32Fix 40 r)

end Sys2Proof.Machine
end

