-- ==== Sys2Proof/Machine/Husk.lean ====
section
/-!
DEFINITION. The Husk: input pairs, test pulses, safe outputs, lock-outs and the reset machine (R266 to R284).
-/
namespace Sys2Proof.Machine

/-! ## The Husk section (R299) -/

def HPair.zero : HPair := { state := .run, lvlA := false, lvlB := false, qualA := false, qualB := false, fcode := 0, dmd := 0, seq := 0 }
def HOut.zero : HOut := { on := false, delay := false, fault := false, core := false, cstop := true, fcode := 0, test := none }

/-- A field of a pair record and of an output record in a Husk section. -/
def pairField (s : List Byte) (n off size : Nat) : Nat := leAt s (0x10 + 16 * n + off) size
def outField (s : List Byte) (n off size : Nat) : Nat := leAt s (0x90 + 16 * n + off) size

def Husk.pair (h : Husk) (n : Nat) : HPair := tabGet (fun _ => HPair.zero) h.pairs n
def Husk.setPair (h : Husk) (n : Nat) (p : HPair) : Husk := { h with pairs := tabPut (fun _ => HPair.zero) h.pairs n p }
def Husk.out (h : Husk) (n : Nat) : HOut := tabGet (fun _ => HOut.zero) h.outs n
def Husk.setOut (h : Husk) (n : Nat) (o : HOut) : Husk := { h with outs := tabPut (fun _ => HOut.zero) h.outs n o }
def Husk.func (h : Husk) (n : Nat) : Nat := pairField h.set n 0 1
def Husk.restart (h : Husk) (n : Nat) : Bool := pairField h.set n 1 1 == 1
/-- The source of an input: 0 static, 1 to 4 for TP0 to TP3. -/
def Husk.source (h : Husk) (n : Nat) (b : Bool) : Nat := pairField h.set n (if b then 3 else 2) 1
def Husk.route (h : Husk) (n m : Nat) : Bool := (pairField h.set n 10 1).testBit m
/-- Whether the pair stops as HSTOP. (Model: DEDUCED, log 64) -/
def Husk.hstopPair (h : Husk) (n : Nat) : Bool := pairField h.set n 11 1 == 1
/-- Whether a pair is one control of a two-hand function, and its even pair. -/
def Husk.twoHand (h : Husk) (n : Nat) : Bool := h.func n == 3 || h.func n == 4
def evenPair (n : Nat) : Nat := n - n % 2

/-- Adds an event for the next telegram (R307). -/
def Husk.ev (h : Husk) (n : Nat) : Husk := if h.evs.contains n then h else { h with evs := h.evs ++ [n] }

/-! ## Levels (R271, R272) -/

/-- Both channels at release. -/
def releaseLevel (func : Nat) (a b : Bool) : Bool :=
  if func = 2 then a && !b else if func = 3 ∨ func = 4 then !a && b else a && b
/-- A demand level on some channel. For a two-hand control, some channel has left the actuated state. -/
def demandLevel (func : Nat) (a b : Bool) : Bool :=
  if func = 2 ∨ func = 3 ∨ func = 4 then !a || b else if func = 0 then false else !a || !b
/-- Both channels at demand level. -/
def demandBoth (func : Nat) (a b : Bool) : Bool :=
  if func = 2 ∨ func = 3 ∨ func = 4 then !a && b else !a && !b
/-- The channels are in discrepancy. -/
def discrepant (func : Nat) (a b : Bool) : Bool :=
  if func = 2 ∨ func = 3 ∨ func = 4 then a == b else if func = 0 then false else a != b

/-- Both channels have a qualified level. -/
def HPair.qual (p : HPair) : Bool := p.qualA && p.qualB
/-- The qualified levels of a pair against R271: both at release, a demand on some channel, both at demand, discrepancy.
(Model: DEDUCED, log 63) -/
def HPair.released (p : HPair) (func : Nat) : Bool := p.qual && releaseLevel func p.lvlA p.lvlB
/-- Whether a pair demands, by its function. (Model: DEDUCED, log 63) -/
def HPair.demands (p : HPair) (func : Nat) : Bool :=
  demandLevel func (p.lvlA || !p.qualA) (if func = 2 ∨ func = 3 ∨ func = 4 then p.lvlB && p.qualB else p.lvlB || !p.qualB)
def HPair.demandsBoth (p : HPair) (func : Nat) : Bool := p.qual && demandBoth func p.lvlA p.lvlB
def HPair.discrepant (p : HPair) (func : Nat) : Bool := p.qual && Machine.discrepant func p.lvlA p.lvlB
/-- A control of a two-hand function is actuated (R272). -/
def HPair.actuated (p : HPair) : Bool := p.qual && p.lvlA && !p.lvlB

/-! ## Lock-outs, HUSK_STOP, permission (R276, R278, R281) -/

def Husk.lockedAll (h : Husk) : Bool := h.lockPower || h.lockSet || h.lockLink || h.internal
def Husk.lockedOut (h : Husk) (m : Nat) : Bool := h.lockedAll || (h.out m).fault
/-- The level of HUSK_STOP. (Model: DEDUCED, log 64) -/
def Husk.stop (h : Husk) : Bool :=
  h.internal || !h.supply || (List.range 8).any fun n => h.hstopPair n && (h.pair n).state != .run
/-- Entry to a lock-out while SRST is active blocks the reset machine (R282). -/
def Husk.blockReset (h : Husk) : Husk := if h.srst then { h with rst := .blocked } else h
/-- Every pair routed to an output is in RUN. -/
def Husk.pairsPermit (h : Husk) (m : Nat) : Bool :=
  (List.range 8).all fun n => !h.route n m || (h.pair n).state == .run
/-- What else permission asks: EN, no lock-out, the core's enable and no demand, the supply. -/
def Husk.corePermit (h : Husk) (m : Nat) : Bool :=
  outField h.set m 0 1 == 1 && !h.lockedOut m && (h.out m).core && !(h.out m).cstop && h.supply

/-- One output follows its permission (R276, R277). -/
def Husk.settleOut (h : Husk) (m : Nat) : Husk :=
  let o := h.out m
  let off := { o with on := false, test := none }
  if !h.corePermit m then h.setOut m off
  else if o.delay then h
  else if h.pairsPermit m then h.setOut m { o with on := true }
  else if o.on && outField h.set m 1 1 == 1 then h.setOut m { o with delay := true, test := none }
  else h.setOut m off

/-- SAF_OUT.STATE of an output (R305). -/
def Husk.outState (h : Husk) (m : Nat) : Nat :=
  let o := h.out m
  if o.fault then 4 else if h.lockedAll then 0 else if o.delay then 2 else if o.on then 3 else 1

/-- The outputs follow, and the events that a change from `old` raises (R276 to R278, R307). -/
def Husk.settle (h old : Husk) : Husk :=
  let h := forN 4 (fun m h => h.settleOut m) h
  let h := if (List.range 4).any fun m => old.outState m == 3 && h.outState m != 3 then h.ev 466 else h
  if h.stop && !old.stop then h.ev 471 else h

/-! ## Pairs (R271 to R273) -/

/-- A pair enters DEMAND. -/
def Husk.enterDemand (h : Husk) (n : Nat) : Husk :=
  let p := h.pair n
  (h.setPair n { p with state := .demand, dmd := (p.dmd + 1) % 256 }).ev 464

/-- The transitions of a pair by its levels, two-hand pairs apart. -/
def Husk.evalPair (h : Husk) (n : Nat) : Husk :=
  let p := h.pair n
  let f := h.func n
  let rel := p.released f
  match p.state with
  | .run => if p.demands f then h.enterDemand n else h
  | .waitReset => if p.demands f then h.enterDemand n else h
  | .demand => if rel then h.setPair n { p with state := if h.restart n then .run else .waitReset } else h
  | .fault => if p.demandsBoth f then h.setPair n { p with state := .faultClr } else h
  | .faultClr => if rel then h.setPair n { p with state := .waitReset } else h

/-- Both pairs of a two-hand function take a state and an enabling step. (Model: DEDUCED, log 63) -/
def Husk.setHands (h : Husk) (e : Nat) (st : PairState) (seq : Nat) : Husk :=
  (h.setPair e { h.pair e with state := st, seq := seq }).setPair (e + 1) { h.pair (e + 1) with state := st }

/-- Both controls of a two-hand function are released. -/
def Husk.handsReleased (h : Husk) (e : Nat) : Bool := (h.pair e).released 3 && (h.pair (e + 1)).released 4

/-- A two-hand function in FAULT_CLR enters DEMAND when both controls are released (R273). -/
def Husk.handsClear (h : Husk) (e : Nat) : Husk := if h.handsReleased e then (h.setHands e .demand 1).ev 464 else h

/-- The transitions of a two-hand function (R272, R273). At a control the demand level of both channels is the released
one, so FAULT_CLR lasts one cycle of the Husk. (Model: DEDUCED, log 63) -/
def Husk.evalHands (h : Husk) (e : Nat) : Husk :=
  let p := h.pair e
  let q := h.pair (e + 1)
  let rel := h.handsReleased e
  match p.state with
  | .fault => if rel then (h.setHands e .faultClr 0).handsClear e else h
  | .faultClr => h.handsClear e
  | .run => if p.actuated && q.actuated then h
    else ((h.enterDemand e).enterDemand (e + 1)).setHands e .demand (if rel then 1 else 0)
  | _ =>
    if rel then h.setHands e p.state 1
    else if p.seq = 0 then h
    else if p.actuated && q.actuated then h.setHands e .run 0
    else if p.actuated || q.actuated then h.setHands e p.state 2
    else h

/-- The pair state is evaluated. -/
def Husk.evaluate (h : Husk) (n : Nat) : Husk :=
  if h.func n = 0 ∨ !h.supply then h else if h.twoHand n then h.evalHands (evenPair n) else h.evalPair n

/-- A pair enters FAULT, with its partner in a two-hand function: a lock-out of its outputs. Channels that already stand at
demand level together leave it at once (R273). A pair that is in FAULT takes the code alone. -/
def Husk.pairFault (h : Husk) (n code : Nat) : Husk :=
  if h.func n = 0 then h
  else if (h.pair n).state = .fault then h.setPair n { h.pair n with fcode := code }
  else
    let ns := if h.twoHand n then [evenPair n, evenPair n + 1] else [n]
    let h := forL ns (fun k h => h.setPair k { h.pair k with state := .fault, seq := 0 }) h
    ((((h.setPair n { h.pair n with fcode := code }).ev 465).ev 468).blockReset).evaluate n

/-- An input's level is qualified (R270); `b` names SInB. -/
def Husk.inputQualified (h : Husk) (n : Nat) (b level : Bool) : Husk :=
  if !h.supply then h
  else
    let p := h.pair n
    let h1 := h.setPair n (if b then { p with lvlB := level, qualB := true } else { p with lvlA := level, qualA := true })
    (h1.evaluate n).settle h

/-- The discrepancy of a pair has lasted longer than DISC (R271). -/
def Husk.discrepancy (h : Husk) (n : Nat) : Husk :=
  let p := h.pair n
  if h.supply && p.discrepant (h.func n) && p.state != .fault then (h.pairFault n 1).settle h else h

/-- 500 ms passed without the second actuation (R272). (Model: DEDUCED, log 63) -/
def Husk.twoHandTimeout (h : Husk) (e : Nat) : Husk :=
  if h.supply && h.func e == 3 && (h.pair e).seq == 2 then h.setPair e { h.pair e with seq := 0 } else h

/-! ## Test pulses (R274, R275) -/

/-- The inputs, as pair and channel. -/
def inputs : List (Nat × Bool) := (List.range 16).map fun i => (i / 2, i % 2 == 1)

/-- An off-pulse of TPk: bit i of `low` says that input i read low during it, bit i of `around` that it read high
immediately before and after. Input 2n is SInA of pair n, input 2n + 1 its SInB. -/
def Husk.testPulse (h : Husk) (k low around : Nat) : Husk :=
  if !h.supply || !(leAt h.set 4 1).testBit k then h
  else
    let h1 := forL inputs (fun i g =>
      let bitNo := 2 * i.1 + i.2.toNat
      let s := h.source i.1 i.2
      let lvl := if i.2 then (h.pair i.1).lvlB else (h.pair i.1).lvlA
      if s = k + 1 then (if lvl && !low.testBit bitNo then g.pairFault i.1 2 else g)
      else if s != 0 && low.testBit bitNo && around.testBit bitNo then g.pairFault i.1 3
      else g) h
    h1.settle h

/-- TPk has been in overcurrent for 100 µs (R275). -/
def Husk.tpOvercurrent (h : Husk) (k : Nat) : Husk :=
  if !h.supply || !(leAt h.set 4 1).testBit k then h
  else (forN 8 (fun n g => if h.source n false == k + 1 || h.source n true == k + 1 then g.pairFault n 5 else g) h).settle h

/-! ## Outputs (R277 to R280) -/

/-- The end of a category 1 delay: both switches open (R277). (Model: DEDUCED, log 65) -/
def Husk.delayExpiry (h : Husk) (m : Nat) : Husk :=
  let o := h.out m
  if o.delay then h.setOut m { o with delay := false, on := false, test := none } else h

/-- A switch of an ON output is opened for its test, one at a time in the whole module (R279). -/
def Husk.testSwitch (h : Husk) (m : Nat) (low : Bool) : Husk :=
  if h.outState m = 3 ∧ ((List.range 4).all fun k => (h.out k).test.isNone) = true then
    h.setOut m { h.out m with test := some low }
  else h

/-- The response of the switch under test ends the off-pulse. -/
def Husk.testResponse (h : Husk) (m : Nat) (low : Bool) : Husk :=
  if (h.out m).test = some low then h.setOut m { h.out m with test := none } else h

/-- An output fault: both switches open, the output locks out (R280). An output in FAULT takes the code alone. -/
def Husk.outFault (h : Husk) (m code : Nat) : Husk :=
  let o := h.out m
  let h1 := h.setOut m { o with fault := true, fcode := code, delay := false, test := none }
  if o.fault then h1 else (((h1.ev 467).ev 468).blockReset).settle h

/-- No response after 300 µs. -/
def Husk.testTimeout (h : Husk) (m : Nat) (low : Bool) : Husk :=
  if (h.out m).test = some low then h.outFault m (if low then 2 else 1) else h
/-- A switch current above its limit, whatever the output is commanded to. -/
def Husk.overcurrent (h : Husk) (m : Nat) : Husk := if h.supply then h.outFault m 3 else h
/-- SOnH above 5 V for 1 ms while OFF. -/
def Husk.backfeed (h : Husk) (m : Nat) : Husk :=
  if h.outState m = 1 ∧ outField h.set m 2 1 = 0 ∧ h.supply = true then h.outFault m 4 else h

/-! ## Core link (R266) -/

/-- A well-formed LSDRV frame. -/
def Husk.lsdrv (h : Husk) (en : Nat) : Husk :=
  if !h.supply then h
  else (forN 4 (fun m (g : Husk) => g.setOut m { g.out m with core := en.testBit m }) { h with lsGood := min 500 (h.lsGood + 1) }).settle h
/-- A well-formed CSTOP_N frame. -/
def Husk.cstopFrame (h : Husk) (demand : Nat) : Husk :=
  if !h.supply then h
  else (forN 4 (fun m (g : Husk) => g.setOut m { g.out m with cstop := demand.testBit m })
    { h with csGood := min 500 (h.csGood + 1) }).settle h
/-- 4 µs without a frame: every enable off, or every demand set; a core-link fault. -/
def Husk.linkTimeout (h : Husk) (cstop : Bool) : Husk :=
  if !h.supply then h
  else
    let h1 := forN 4 (fun m g => g.setOut m (if cstop then { g.out m with cstop := true } else { g.out m with core := false })) h
    let h1 := { h1 with lsGood := 0, csGood := 0 }
    let h1 := if h.lockLink then h1 else ({ h1 with lockLink := true } : Husk).ev 468
    (h1.blockReset).settle h

/-! ## Faults and supply (R267, R268) -/

/-- An internal fault stands in a Husk that has its supply (R281, R459). -/
def Husk.faulty (h : Husk) : Bool := h.internal && h.supply

/-- A lane disagreement longer than 1 µs: a Husk internal fault. (Model: DEDUCED, log 65) -/
def Husk.laneFault (h : Husk) : Husk :=
  if h.internal || !h.supply then h else ((((({ h with internal := true } : Husk).ev 479).ev 468).blockReset)).settle h

/-- The safety supply is out of range for 100 µs: every output opens, HUSK_STOP is asserted. -/
def Husk.supplyFault (h : Husk) : Husk := if h.supply then ({ h with supply := false } : Husk).settle h else h

/-- The pairs of a section that comes into force (R273): waiting for a reset, two-hand pairs in DEMAND. The levels stay.
(Model: DEDUCED, log 63) -/
def Husk.startPairs (h : Husk) : Husk := forN 8 (fun n g =>
  let f := g.func n
  let hand := f == 3 || f == 4
  let entered := hand && (g.pair n).state != .demand
  let g := g.setPair n { g.pair n with seq := 0, state := if f = 0 then .run else if hand then .demand else .waitReset }
  if entered then g.ev 464 else g) h

/-- The return of the supply is a power-up: the sections in force and pending stay, everything else starts again.
(Model: DEDUCED, log 63; DEDUCED, log 65) -/
def Husk.supplyReturn (h : Husk) : Husk :=
  if h.supply then h
  else
    let h1 : Husk := { Husk.reset with set := h.set, pend := h.pend, srst := h.srst, held := h.held, evs := h.evs, counter := h.counter }
    (h1.startPairs).ev 468

/-- A Husk section comes into force (R301): pairs start, then meet the qualified levels; every output is locked out.
(Model: DEDUCED, log 63) -/
def Husk.activate (h : Husk) (sect : List Byte) : Husk :=
  let h1 : Husk := { h with set := sect, pend := [], confirm := false, lockSet := true }
  (((forN 8 (fun n g => g.evaluate n) h1.startPairs).ev 468).blockReset).settle h

/-! ## Reset (R282, R283) -/

/-- An accepted reset. It does not release the pairs `same`, which take a demand or a fault in its cycle (R284).
(Model: DESIGN CHOICE, log 109) -/
def Husk.accept (h : Husk) (same : List Nat) : Husk :=
  let h := h.ev 469
  if !h.pend.isEmpty then { h with confirm := true }
  else
    let h1 := forN 8 (fun n g =>
      let p := g.pair n
      if p.state == .waitReset && p.released (g.func n) && g.func n != 0 && !same.contains n then g.setPair n { p with state := .run }
      else g) h
    let h1 := forN 4 (fun m g => g.setOut m { g.out m with fault := false }) h1
    let ok := decide (h.lsGood = 500) && decide (h.csGood = 500)
    ({ h1 with lockPower := false, lockSet := false, lockLink := h.lockLink && !ok, sendReset := true } : Husk).settle h

/-- SRST is qualified active. -/
def Husk.srstPress (h : Husk) : Husk :=
  if !h.supply then h else { h with srst := true, rst := if h.rst == .ready then .pressed else h.rst }

/-- The falling edge of SRST. -/
def Husk.srstRelease (h : Husk) (x : SrstEdge) : Husk :=
  if !h.supply then h
  else
    let h1 : Husk := { h with srst := false, rst := .ready }
    if h.rst == .pressed && decide (50000 ≤ x.act) && decide (x.act ≤ 3000000) then h1.accept x.same else h1

/-- ACT exceeds 3 s: RESET_HELD. -/
def Husk.resetHeld (h : Husk) : Husk :=
  if h.rst == .pressed then ({ h with rst := .held, held := (h.held + 1) % 256 } : Husk).ev 470 else h

end Sys2Proof.Machine
end

