-- ==== Sys2Proof/Machine/SafeSet.lean ====
section
/-!
DEFINITION. The safety parameter set: its layout and the checks of the safety core (R298 to R300).
-/
namespace Sys2Proof.Machine

/-! ## Layout -/

def setFormat (b : List Byte) : Nat := leAt b 4 2
def setLen (b : List Byte) : Nat := leAt b 8 4
def setNNode (b : List Byte) : Nat := leAt b 0x18 1
def setNJoint (b : List Byte) : Nat := leAt b 0x19 1
def setNGroup (b : List Byte) : Nat := leAt b 0x1A 1
/-- SSM models; a FORMAT 1 set has none. -/
def setNSsm (b : List Byte) : Nat := if setFormat b = 1 then 0 else leAt b 0x1B 1
/-- Section offsets: 0 Husk, 1 nodes, 2 joints, 3 groups, 4 models. -/
def setOff (b : List Byte) (i : Nat) : Nat := leAt b (0x1C + 4 * i) 4
def setSig (b : List Byte) : Nat := leAt b 0x10 4
def setScrc (b : List Byte) : Nat := leAt b 0x0C 4
def setHusk (b : List Byte) : List Byte := (b.drop (setOff b 0)).take 212

def nodeF (b : List Byte) (i off n : Nat) : Nat := leAt b (setOff b 1 + 8 * i + off) n
def jointF (b : List Byte) (i off n : Nat) : Nat := leAt b (setOff b 2 + 48 * i + off) n
def groupF (b : List Byte) (i off n : Nat) : Nat := leAt b (setOff b 3 + 32 * i + off) n
def modelF (b : List Byte) (i off n : Nat) : Nat := leAt b (setOff b 4 + 340 * i + off) n
def w32 (n : Nat) : W32 := BitVec.ofNat 32 n
/-- A signed Q24.40 field. -/
def jointQ (b : List Byte) (i off : Nat) : Int := signed 64 (jointF b i off 8)
/-- SSM_EN and SSM_AUTO of a group record; a FORMAT 1 set has SSM_EN 0. -/
def groupSsm (b : List Byte) (i : Nat) : Bool := setFormat b != 1 && (groupF b i 6 1).testBit 0
def groupAuto (b : List Byte) (i : Nat) : Bool := (groupF b i 6 1).testBit 1

/-! ## Checks (R300) -/

def within (lo hi n : Nat) : Bool := decide (lo ≤ n) && decide (n ≤ hi)
def noRepeats : List Nat → Bool
  | [] => true
  | a :: l => !l.contains a && noRepeats l
def allBelow (n : Nat) (f : Nat → Bool) : Bool := (List.range n).all f
def finiteNum (n : Nat) : Bool := f32Exp (w32 n) != 255

/-- Check 1: format and section bounds. (Model: DEDUCED, log 67) -/
def setFormatOk (b : List Byte) : Bool :=
  let f := setFormat b
  let n := setLen b
  leAt b 0 4 == 0x54455346 && (f == 1 || f == 2) && leAt b 6 2 == 64 && within 64 65536 n && n % 4 == 0 &&
  within 0 32 (setNNode b) && within 0 (if f = 1 then 32 else 128) (setNJoint b) &&
  within 0 (if f = 1 then 4 else 16) (setNGroup b) && within 0 16 (setNSsm b) &&
  within 64 n (setOff b 0) && within 0 n (setOff b 0 + 212) &&
  (setNNode b == 0 || (within 64 n (setOff b 1) && within 0 n (setOff b 1 + 8 * setNNode b))) &&
  (setNJoint b == 0 || (within 64 n (setOff b 2) && within 0 n (setOff b 2 + 48 * setNJoint b))) &&
  (setNGroup b == 0 || (within 64 n (setOff b 3) && within 0 n (setOff b 3 + 32 * setNGroup b))) &&
  (setNSsm b == 0 || (within 64 n (setOff b 4) && within 0 n (setOff b 4 + 340 * setNSsm b)))

/-- Check 2: SCRC over the image with its own field as zero. -/
def setCrcOk (b : List Byte) : Bool := crcSafety (splice (b.take (setLen b)) 0x0C [0, 0, 0, 0]) == setScrc b

/-- Check 4: one pair record. (Model: DEDUCED, log 67) -/
def pairOk (h : List Byte) (n : Nat) : Bool :=
  let f := pairField h n 0 1
  let a := pairField h n 2 1
  let b := pairField h n 3 1
  let filt := pairField h n 4 2
  let named := fun s => s == 0 || (leAt h 4 1).testBit (s - 1)
  let prev := pairField h (n - 1) 0 1
  let next := pairField h (n + 1) 0 1
  within 0 5 f && within 0 1 (pairField h n 1 1) && within 0 4 a && within 0 4 b && within 0 15 (pairField h n 10 1) &&
  within 0 1 (pairField h n 11 1) && within 0 1000 (pairField h n 8 2) &&
  (f == 0 || (within 1 1000 filt && within 10 3000 (pairField h n 6 2))) &&
  (f != 3 || (n % 2 == 0 && next == 4)) &&
  (f != 4 || (n % 2 == 1 && prev == 3 && pairField h n 10 1 == 0 && pairField h n 11 1 == 0)) &&
  ((a == 0 && b == 0) || a != b) && named a && named b &&
  (f != 5 || (a == 0 && b == 0 && decide (pairField h n 8 2 + 10 ≤ filt * 10))) &&
  (pairField h n 1 1 == 0 || f == 2 || f == 5)

/-- Check 4: the Husk section. (Model: DEDUCED, log 67) -/
def huskOk (h : List Byte) : Bool :=
  let tp := leAt h 4 1
  within 0 15 tp && (tp == 0 || (within 10 1000 (leAt h 0 2) && within 100 1000 (leAt h 2 2))) && allBelow 8 (pairOk h) &&
  allBelow 4 fun m => within 0 1 (outField h m 0 1) && within 0 1 (outField h m 1 1) && within 0 1 (outField h m 2 1) &&
    within 0 10000 (outField h m 4 2) && (outField h m 0 1 == 0 || within 10 1000 (outField h m 6 2))

/-- Check 5: nodes, joints, groups and models. (Model: DEDUCED, log 67) -/
def coreOk (b : List Byte) : Bool :=
  let nn := setNNode b
  let nj := setNJoint b
  let ng := setNGroup b
  let ns := setNSsm b
  let groups := (List.range ng).map fun i => groupF b i 0 1
  let models := (List.range ns).map fun i => modelF b i 0 1
  noRepeats ((List.range nn).map fun i => nodeF b i 0 1) && noRepeats ((List.range nn).map fun i => nodeF b i 2 2) &&
  (allBelow nn fun i => within 0 31 (nodeF b i 0 1) && within 1 2 (nodeF b i 1 1) && nodeF b i 2 2 != 0 && within 0 3 (nodeF b i 4 1)) &&
  noRepeats ((List.range nj).map fun i => jointF b i 0 1) &&
  noRepeats ((List.range nj).map fun i => 8 * jointF b i 1 1 + jointF b i 2 1) &&
  (allBelow nj fun i => within 0 127 (jointF b i 0 1) && decide (jointF b i 1 1 < nn) && nodeF b (jointF b i 1 1) 1 1 == 1 &&
    within 0 7 (jointF b i 2 1) && groups.contains (jointF b i 3 1) && within 0 7 (jointF b i 4 1) &&
    (!(jointF b i 4 1).testBit 2 || within 1 2 (jointF b i 5 1)) && decide (jointQ b i 16 ≤ jointQ b i 24) &&
    finiteNum (jointF b i 40 4)) &&
  noRepeats groups &&
  (allBelow ng fun i => within 0 15 (groupF b i 0 1) && within 0 2 (groupF b i 1 1) && within 0 15 (groupF b i 2 1) &&
    within 0 15 (groupF b i 3 1) && within 0 10000 (groupF b i 4 2) && within 0 3 (groupF b i 6 1) &&
    (allBelow 6 fun k => finiteNum (groupF b i (8 + 4 * k) 4)) && positive32 (w32 (groupF b i 20 4)) &&
    (!groupSsm b i || (within 1 2 (groupF b i 7 1) && models.contains (groupF b i 0 1)))) &&
  noRepeats models &&
  (allBelow ns fun i => groups.contains (modelF b i 0 1) && within 1 8 (modelF b i 1 1) && within 1 8 (modelF b i 2 1) &&
    (allBelow 4 fun k => finiteNum (modelF b i (4 + 4 * k) 4)) &&
    (allBelow (modelF b i 1 1) fun k => within 0 1 (modelF b i (0x14 + 20 * k) 4) &&
      (allBelow 4 fun m => finiteNum (modelF b i (0x18 + 20 * k + 4 * m) 4))) &&
    (allBelow (modelF b i 2 1) fun k => decide (modelF b i (0xB4 + 20 * k) 4 < modelF b i 1 1) &&
      (allBelow 4 fun m => finiteNum (modelF b i (0xB8 + 20 * k + 4 * m) 4))))

/-- Checks 1 to 5 in order; 0 when all pass. `period` and `cycle` are the SYS registers. -/
def setCheck (b : List Byte) (period cycle : Nat) : Nat :=
  if !setFormatOk b then 1
  else if !setCrcOk b then 2
  else if !(leAt b 0x14 2 == period && leAt b 0x16 2 == cycle && decide (2000 ≤ period * cycle)) then 3
  else if !huskOk (setHusk b) then 4
  else if !coreOk b then 5
  else 0

/-- Check 6: the Husk confirms HCRC. -/
def hcrcOk (h : List Byte) : Bool := crcSafety (h.take 0xD0) == leAt h 0xD0 4

end Sys2Proof.Machine
end

