-- ==== Sys2Proof/Machine/SafeCore.lean ====
section
/-!
DEFINITION. The safety core: messages, the safety cycle with its limited functions and group stops, parameter sets, the
status telegram and the SAF mirror (R285 to R307).
-/
namespace Sys2Proof.Machine

/-! ## Records -/

def SNode.zero : SNode := { lastSeq := none, lost := 0, abs := false, pos := [], tracks := [] }
def SJoint.zero : SJoint := { p := none, hi := none, lo := none, sls := 0, slp := 0, sdi := 0 }
def SGroup.zero : SGroup :=
  { stop := none, auto := false, t1 := false, cut := false, ssm := 0, clear := 0, viol := 0, minSep := 0xFFFF, centres := [] }
def SafetyCore.node (k : SafetyCore) (i : Nat) : SNode := tabGet (fun _ => SNode.zero) k.nodes i
def SafetyCore.joint (k : SafetyCore) (i : Nat) : SJoint := tabGet (fun _ => SJoint.zero) k.joints i
def SafetyCore.group (k : SafetyCore) (g : Nat) : SGroup := tabGet (fun _ => SGroup.zero) k.groups g
def SafetyCore.setNode (k : SafetyCore) (i : Nat) (x : SNode) : SafetyCore :=
  { k with nodes := tabPut (fun _ => SNode.zero) k.nodes i x }
def SafetyCore.setJoint (k : SafetyCore) (i : Nat) (x : SJoint) : SafetyCore :=
  { k with joints := tabPut (fun _ => SJoint.zero) k.joints i x }
def SafetyCore.setGroup (k : SafetyCore) (g : Nat) (x : SGroup) : SafetyCore :=
  { k with groups := tabPut (fun _ => SGroup.zero) k.groups g x }
def SafetyCore.ev (k : SafetyCore) (n : Nat) : SafetyCore := if k.evs.contains n then k else { k with evs := k.evs ++ [n] }
/-- The core runs and a set is in force. -/
def SafetyCore.running (k : SafetyCore) : Bool := k.started && !k.fault && !k.set.isEmpty

/-- Group numbers of the set, and joint records of a group in ascending joint number (R289). -/
def SafetyCore.groupNos (k : SafetyCore) : List (Nat × Nat) := (List.range (setNGroup k.set)).map fun i => (i, groupF k.set i 0 1)
def SafetyCore.members (k : SafetyCore) (g : Nat) : List Nat :=
  sortBy (fun i => jointF k.set i 0 1) ((List.range (setNJoint k.set)).filter fun i => jointF k.set i 3 1 == g)

/-! ## Stops (R290, R291) -/

/-- The group record of a group number. -/
def SafetyCore.groupRec (k : SafetyCore) (g : Nat) : Nat :=
  match k.groupNos.find? fun e => e.2 == g with | some e => e.1 | none => 0

/-- A group stops in a category; the most severe prevails. `auto` tells a stop that releases itself. -/
def SafetyCore.stopGroup (k : SafetyCore) (g cat : Nat) (ssm auto : Bool) : SafetyCore :=
  let x := k.group g
  let new := match x.stop with | some old => min old cat | none => cat
  let changed := x.stop != some new
  let k1 := k.setGroup g { x with
    stop := some new, auto := auto && (x.stop.isNone || x.auto), cut := x.cut || new == 0
    t1 := if new = 1 then x.t1 || changed else false, clear := if x.stop.isNone then 0 else x.clear }
  let k1 := if x.stop.isNone then k1.ev 472 else k1
  if x.stop.isNone && ssm then k1.ev 473 else k1

/-- Every group stops in category 1, latched. -/
def SafetyCore.stopAll (k : SafetyCore) : SafetyCore := forL k.groupNos (fun e k => k.stopGroup e.2 1 false false) k

/-- T1 ms after a category 1 stop the outputs of the group are cut. -/
def SafetyCore.t1Expiry (k : SafetyCore) (g : Nat) : SafetyCore :=
  let x := k.group g
  if x.t1 then k.setGroup g { x with t1 := false, cut := true } else k

/-- The outputs the core cuts: every one without a set in force. -/
def SafetyCore.cutMask (k : SafetyCore) : Nat :=
  if k.running then k.groupNos.foldl (fun m e => if (k.group e.2).cut then m ||| groupF k.set e.1 3 1 else m) 0 else 15
/-- LSDRV and CSTOP_N, bit n for output n. -/
def SafetyCore.lsdrv (k : SafetyCore) : Nat := 15 - k.cutMask % 16
def SafetyCore.cstop (k : SafetyCore) : Nat := k.cutMask % 16

/-- An internal fault: no frames and no messages any more (R291). -/
def SafetyCore.internalFault (k : SafetyCore) : SafetyCore :=
  if k.fault then k else ({ k with fault := true, cur := [], next := [] } : SafetyCore).ev 479

/-- A telegram is missing for 50 µs: a Husk-link fault. -/
def SafetyCore.huskTimeout (k : SafetyCore) : SafetyCore :=
  if !k.started || k.fault then k else ({ k with linkFault := true } : SafetyCore).stopAll

/-! ## Messages (R293 to R296, R358) -/

/-- JCMD of a stop. -/
def jcmdOf : Option Nat → Byte
  | none => 0xE1#8
  | some 0 => 0x00#8
  | some 1 => 0x1E#8
  | some _ => 0x2D#8

/-- Severity of a stop for comparison: the most severe is least. -/
def severity : Option Nat → Nat
  | some c => c
  | none => 3

/-- JCMD of a node: its joints by record; a record without a joint carries the most severe (R290). -/
def SafetyCore.jcmds (k : SafetyCore) (i : Nat) : List Byte :=
  let js := (List.range (setNJoint k.set)).filter fun j => jointF k.set j 1 1 == i
  let stopOf := fun j => (k.group (jointF k.set j 3 1)).stop
  let worst := js.foldl (fun w j => if severity (stopOf j) < severity w then stopOf j else w) none
  (List.range 8).map fun r => match js.find? fun j => jointF k.set j 2 1 == r with
    | some j => jcmdOf (stopOf j)
    | none => jcmdOf worst

/-- The JCMDs of every node, by port. -/
def SafetyCore.prepare (k : SafetyCore) : Tab (List Byte) :=
  (List.range (setNNode k.set)).foldl (fun t i => tabPut (fun _ => []) t (nodeF k.set i 0 1) (k.jcmds i)) []

/-- Whether this twin's ports send the messages: it owns its position (R330, R353). -/
def Chip.safetyOwner (c : Chip) : Bool := !c.paired || c.owner
/-- The twin that owns the position as this twin sees it: its own ownership, else the partner's flag. -/
def Chip.ownerSide (c : Chip) : Option Nat :=
  if c.safetyOwner then some c.twinT else if c.regB 0x700020 28 then some (1 - c.twinT) else none

/-- The message formed for the node at a port; empty for none (R293, R315). The core that does not own forms it as the owner
does, OWN included (R330). (Model: DEDUCED, log 58; DEDUCED, log 108) -/
def SafetyCore.formed (k : SafetyCore) (c : Chip) (port : Nat) : List Byte :=
  let j := tabGet (fun _ => []) k.cur port
  if !k.running || j.isEmpty then []
  else match (List.range (setNNode k.set)).find? fun i => nodeF k.set i 0 1 == port with
    | none => []
    | some i =>
      let own := c.ownerSide.getD c.twinT + 2 * c.paired.toNat + 4 * k.handover.isSome.toNat
      let b := toBytes 2 (nodeF k.set i 2 2) ++ toBytes 1 1 ++ toBytes 1 own ++ toBytes 4 k.seq ++ toBytes 4 (k.handover.getD 0)
        ++ toBytes 4 (c.ringCycle * c.period * 1000 / 64) ++ j ++ toBytes 4 0
      b ++ toBytes 4 (crcSafety b)
/-- The message that a port sends: none from a twin that does not own. (Model: DEDUCED, log 108) -/
def SafetyCore.message (k : SafetyCore) (c : Chip) (port : Nat) : List Byte := if c.safetyOwner then k.formed c port else []

/-- Before a downlink: when the position has a new owner, both cores form the messages of the rest of the ring cycle with
HANDOVER and the SEQ of the previous one (R358). -/
def SafetyCore.takeOver (k : SafetyCore) (c : Chip) : SafetyCore :=
  if !c.paired || c.ownerSide.isNone || k.side == c.ownerSide then { k with side := if c.paired then k.side else none }
  else { k with side := c.ownerSide, handover := some ((k.sent.drop 1).headD 0) }

/-- SSEQ of the flash: the SEQ placed in the previous ring cycle. -/
def SafetyCore.sseq (k : SafetyCore) (c : Chip) : Nat :=
  if c.tick % c.ringCycle = 0 then k.sent.headD 0 else (k.sent.drop 1).headD 0

/-- The SEQs of this cycle and the previous one: a core that does not own takes the owner's from its flash (R330).
(Model: DEDUCED, log 66) -/
def SafetyCore.nextSent (k : SafetyCore) (c : Chip) : List Nat :=
  if c.ownerSide == some (1 - c.twinT) && c.paired && c.twin.flash.isSome then [(c.twin.pSeq + 1) % 2 ^ 32, c.twin.pSeq]
  else (k.seq + 1) % 2 ^ 32 :: k.sent.take 1

/-- Whether an uplink message is valid for node record `i` (R296). -/
def SafetyCore.valid (k : SafetyCore) (_c : Chip) (i : Nat) (m : List Byte) : Bool :=
  let n := if nodeF k.set i 1 1 = 1 then 80 else 144
  m.length == n && leAt m (n - 4) 4 == crcSafety (m.take (n - 4)) && leAt m 2 1 == 1 && leAt m 0 2 == nodeF k.set i 2 2 &&
    (k.node i).lastSeq != some (leAt m 4 4) && k.sent.contains (leAt m 8 4) && (leAt m 3 1).testBit 7

/-- The snapshot of one node (R285, R287). -/
def SafetyCore.takeNode (k : SafetyCore) (c : Chip) (i : Nat) : SafetyCore :=
  let x := k.node i
  let lost := k.setNode i { x with lost := x.lost + 1 }
  match tabGet (fun _ => []) c.star.safe (nodeF k.set i 0 1) with
  | [] => lost
  | (t, m) :: _ =>
    let joints := nodeF k.set i 1 1 == 1
    if !k.valid c i m || (joints && t != c.tick) then lost
    else k.setNode i
      { x with lastSeq := some (leAt m 4 4), lost := 0, abs := (leAt m 3 1).testBit 6
               pos := if joints then (List.range 8).map fun r => signed 64 (leAt m (0x0C + 8 * r) 8) else []
               tracks := if joints then [] else (m.drop 0x0C).take 128 }

/-! ## The limited functions (R286, R288) -/

/-- t_cyc. (Model: DEDUCED, log 66) -/
def Chip.tCyc (c : Chip) : W32 := ed (natF (c.period * c.ringCycle)) (intToF32 64000000)

def countIf (b : Bool) (n : Nat) : Nat := if b then n + 1 else 0

/-- The position and the limited functions of a joint record; `was` is its node before this cycle's snapshot. (Model: DEDUCED, log 66) -/
def SafetyCore.joinEval (k : SafetyCore) (c : Chip) (was : SNode) (i : Nat) : SafetyCore :=
  let b := k.set
  let x := k.joint i
  let n := k.node (jointF b i 1 1)
  let p : Option Int := if n.lost > 0 then x.p else some (wrapQ (n.pos.getD (jointF b i 2 1) 0 + jointQ b i 8))
  match p with
  | none => k
  | some p =>
    let hi := max p (x.hi.getD p)
    let lo := min p (x.lo.getD p)
    let fs := jointF b i 4 1
    let sls := fs.testBit 0 && decide (was.lost = 0) && (match x.p with
      | some q => f32Lt (w32 (jointF b i 40 4)) (ed (fabs (toF (wrapQ (p - q)))) c.tCyc)
      | none => false)
    let slp := fs.testBit 1 && (decide (p < jointQ b i 16) || decide (p > jointQ b i 24) || !n.abs)
    let tol := jointQ b i 32
    let sdi := fs.testBit 2 && (if jointF b i 5 1 = 1 then decide (p < hi - tol) else decide (p > lo + tol))
    k.setJoint i { p := some p, hi := some hi, lo := some lo, sls := countIf sls x.sls, slp := countIf slp x.slp
                   sdi := countIf sdi x.sdi }

/-! ## Speed and separation (R289) -/

/-- The model record of a group. -/
def SafetyCore.model (k : SafetyCore) (g : Nat) : Option Nat :=
  (List.range (setNSsm k.set)).find? fun i => modelF k.set i 0 1 == g

/-- The sphere centres, x, y, z of each in 2^-40 m; none while a link's position is not known. -/
def SafetyCore.sphereCentres (k : SafetyCore) (g m : Nat) : Option (List Int) :=
  let n := modelF k.set m 1 1
  let ps := ((k.members g).take n).map fun i => (k.joint i).p
  if ps.any (·.isNone) || decide (ps.length < n) then none
  else some (centresOf ((k.set.drop (setOff k.set 4 + 340 * m)).take 340) (ps.map fun p => p.getD 0))

/-- The valid tracks of every sensor node: X, Y, RAD. -/
def SafetyCore.tracks (k : SafetyCore) : List (List W32) :=
  (((List.range (setNNode k.set)).filter fun i => nodeF k.set i 1 1 == 2).map fun i =>
    (List.range 8).filterMap fun t =>
      let b := (k.node i).tracks
      if (leAt b (16 * t + 12) 4).testBit 0 then
        some [w32 (leAt b (16 * t) 4), w32 (leAt b (16 * t + 4) 4), w32 (leAt b (16 * t + 8) 4)]
      else none).flatten

/-- A sensor node is lost beyond its LOSS. (Model: DEDUCED, log 66) -/
def SafetyCore.sensorLost (k : SafetyCore) : Bool :=
  (List.range (setNNode k.set)).any fun i => nodeF k.set i 1 1 == 2 && decide ((k.node i).lost > nodeF k.set i 4 1)

/-- Speed-and-separation of a group: violation, clear by SF_HYS, MIN_SEP, centres. `skip` leaves the speed terms out.
(Model: DESIGN CHOICE, log 14; DEDUCED, log 66) -/
def SafetyCore.separation (k : SafetyCore) (c : Chip) (r g : Nat) (skip : Bool) : Bool × Bool × Nat × List Int :=
  match k.model g with
  | none => (false, true, 0xFFFF, [])
  | some m => match k.sphereCentres g m with
    | none => (k.sensorLost, !k.sensorLost, 0xFFFF, [])
    | some cs =>
      let old := (k.group g).centres
      let vr := if skip || old.isEmpty then 0 else largestSpeed old cs (c.period * c.ringCycle)
      let sf := (List.range 6).map fun i => w32 (groupF k.set r (8 + 4 * i) 4)
      let sp := requiredSep vr sf
      let hys := rounded 104 [sp] (sp + f32Fix 40 (sf.getD 5 0))
      let ds := ((List.range (modelF k.set m 2 1)).map fun s => k.tracks.map fun t =>
        trackSep (cs.getD (3 * s) 0) (cs.getD (3 * s + 1) 0) (w32 (modelF k.set m (0xB4 + 20 * s + 16) 4)) t).flatten
      let mm := ds.foldl (fun a d => min a (((d - sp) * 1000) / 2 ^ 40)) (0xFFFF : Int)
      (ds.any (fun d => decide (d < sp)) || k.sensorLost, ds.all (fun d => decide (d ≥ hys)) && !k.sensorLost,
        (max mm 0).toNat, cs)

/-! ## Groups (R287, R290, R291) -/

/-- One group in one cycle; `was` gives each node before the snapshot. A stop under SSM_AUTO releases itself, every other
waits for an accepted reset (R290). -/
def SafetyCore.groupEval (k : SafetyCore) (c : Chip) (was : Nat → SNode) (r g : Nat) : SafetyCore :=
  let b := k.set
  let js := k.members g
  let fc := groupF b r 2 1
  let any := fun (f : SJoint → Nat) => js.any fun i => decide (f (k.joint i) > 0)
  let qual := fun (f : SJoint → Nat) => js.any fun i => decide (f (k.joint i) > fc)
  let nodes := js.map fun i => jointF b i 1 1
  let loss := nodes.any fun i => decide ((k.node i).lost > nodeF b i 4 1)
  let sep := if groupSsm b r then k.separation c r g (nodes.any fun i => decide ((was i).lost > 0)) else (false, true, 0xFFFF, [])
  let x := k.group g
  let ssmN := countIf sep.1 x.ssm
  let viol := (any (·.sls)).toNat * 16 + (any (·.slp)).toNat * 8 + (any (·.sdi)).toNat * 4 + loss.toNat * 2 + sep.1.toNat
  let k1 := k.setGroup g { x with ssm := ssmN, clear := countIf sep.2.1 x.clear, viol := viol, minSep := sep.2.2.1, centres := sep.2.2.2 }
  let k1 := if loss && x.viol / 2 % 2 == 0 then k1.ev 474 else k1
  let k1 := if loss then k1.stopGroup g 0 false false else k1
  let k1 := if qual (·.sls) || qual (·.slp) || qual (·.sdi) then k1.stopGroup g (groupF b r 1 1) false false else k1
  let k1 := if decide (ssmN > fc) then k1.stopGroup g (groupF b r 7 1) true (groupAuto b r) else k1
  let y := k1.group g
  let release := fun (k : SafetyCore) =>
    k.setGroup g { k.group g with stop := none, auto := false, t1 := false, cut := false, clear := 0 }
  if y.stop.isSome && y.auto && decide (y.clear > fc) then release k1
  else if k.resetPend && y.stop.isSome && !y.auto && viol == 0 && !k.syncFault && !k.linkFault then release k1
  else k1

/-- The sync supervision of a cycle (R13, R291). -/
def SafetyCore.sync (k : SafetyCore) (onTime : Bool) : SafetyCore :=
  let k := if onTime then { k with missRun := 0, goodRun := k.goodRun + 1 }
    else { k with missRun := k.missRun + 1, goodRun := 0, syncMiss := min 65535 (k.syncMiss + 1) }
  let k := if k.syncFault && k.resetPend && decide (k.goodRun ≥ 16) then { k with syncFault := false } else k
  if decide (k.missRun ≥ 4) && !k.syncFault then (({ k with syncFault := true } : SafetyCore).ev 475).stopAll else k

/-- A safety cycle (R285). `onTime` tells whether the ring-cycle mark came within 1 µs of its time. -/
def SafetyCore.cycle (k : SafetyCore) (c : Chip) (onTime : Bool) : SafetyCore × Chip :=
  if !k.started || k.fault then (k, c)
  else
    let k := { k with cycles := (k.cycles + 1) % 2 ^ 32 }
    let k := if k.resetPend then { k with linkFault := false } else k
    let k := k.sync onTime
    -- an accepted reset restarts the references of SDI (R288)
    let k := if k.resetPend then forN (setNJoint k.set) (fun i k => k.setJoint i { k.joint i with hi := none, lo := none }) k else k
    let k := if k.set.isEmpty then k
      else
        let before := k
        let k := forN (setNNode k.set) (fun i k => k.takeNode c i) k
        let k := forN (setNJoint k.set) (fun i k => k.joinEval c (before.node (jointF k.set i 1 1)) i) k
        let k := forL k.groupNos (fun e k => k.groupEval c before.node e.1 e.2) k
        let sent := if before.next.isEmpty then k.sent else k.nextSent c
        { k with cur := before.next, next := k.prepare, handover := none
                 seq := if before.next.isEmpty then k.seq else sent.headD 0, sent := sent }
    ({ k with resetPend := false }, c.modStar fun s => { s with safe := [] })

/-! ## Parameter sets (R300 to R302) -/

/-- The pending set is dropped with a RESULT (R301). (Model: DEDUCED, log 68) -/
def SafetyCore.dropSet (k : SafetyCore) (result : Nat) : SafetyCore :=
  ({ k with pend := [], awaiting := false, result := result } : SafetyCore).ev 478

/-- COMMIT of the image at an address: read and checked (R300, R301). (Model: DESIGN CHOICE, log 110) -/
def SafetyCore.commit (k : SafetyCore) (c : Chip) (addr : Nat) : SafetyCore :=
  if !k.started || k.fault then k
  else if !c.inConfig then ({ k with result := 7 } : SafetyCore).ev 478
  else
    let head := c.engineBytes addr 64
    let img := c.engineBytes addr (min 65536 (max 64 (setLen head)))
    let r := setCheck img c.period c.ringCycle
    if r = 0 then { k with pend := img.take (setLen img), awaiting := false } else k.dropSet r

/-- The Husk checks HCRC and holds the section; the set awaits its confirmation (R301). A Husk without supply confirms
nothing: RESULT 6. (Model: DEDUCED, log 68) -/
def awaitConfirm (h : Husk) (k : SafetyCore) (c : Chip) : Husk × SafetyCore :=
  if !k.started || k.fault || k.pend.isEmpty || k.awaiting then (h, k)
  else
    let s := setHusk k.pend
    if h.supply && hcrcOk s then
      ({ h with pend := s, rst := if h.srst then .blocked else h.rst },
        ({ k with awaiting := true, awaitAt := c.tb3 } : SafetyCore).ev 476)
    else (h, k.dropSet 6)

/-- DISCARD, or 60 s without confirmation: the pending set is dropped with RESULT 8. -/
def discardSet (h : Husk) (k : SafetyCore) : Husk × SafetyCore :=
  if k.pend.isEmpty then (h, k) else ({ h with pend := [], confirm := false }, k.dropSet 8)

/-- A set comes into force in the core: nothing of the previous one remains. (Model: DEDUCED, log 68) -/
def SafetyCore.activate (k : SafetyCore) (img : List Byte) : SafetyCore :=
  { k with set := img, pend := [], awaiting := false, result := 0, nodes := [], joints := [], groups := [], cur := [], next := [] }

/-! ## The status telegram and the mirror (R266, R283, R305, R307) -/

/-- SAF_PAIR.STATE. -/
def PairState.num : PairState → Nat
  | .run => 0 | .demand => 1 | .waitReset => 2 | .fault => 3 | .faultClr => 4
def RstState.num : RstState → Nat
  | .blocked => 0 | .ready => 1 | .pressed => 2 | .held => 3

def SafetyCore.cstate (k : SafetyCore) : Nat :=
  if k.fault then 4 else if !k.started then 0 else if k.awaiting then 2 else if k.set.isEmpty then 1 else 3
def Husk.hstate (h : Husk) : Nat :=
  if h.internal then 3 else if !h.pend.isEmpty then 1 else if h.set.isEmpty then 0 else 2

/-- SAF_GRP of a group. -/
def SafetyCore.grpWord (k : SafetyCore) (g : Nat) : Nat :=
  let x := k.group g
  let vs := match x.stop with
    | none => 0
    | some _ => if x.t1 then 1 else if x.auto then 3 else 2
  vs * 2 ^ 30 + (x.stop.getD 0) * 2 ^ 28 + x.viol * 2 ^ 23 + x.minSep

/-- The SAF words of the Husk. `cur` gives the measured switch currents in mA. -/
def Chip.mirrorHusk (c : Chip) (h : Husk) (cur : List Nat) : Chip :=
  let c := forN 8 (fun n c =>
    let p := h.pair n
    c.setReg (0xC00100 + 4 * n) (w32 (p.state.num * 2 ^ 29 + p.lvlA.toNat * 2 ^ 28 + p.lvlB.toNat * 2 ^ 27 + p.fcode * 2 ^ 24 +
      h.func n * 2 ^ 16 + p.dmd))) c
  forN 4 (fun m c =>
    let o := h.out m
    let hs := o.on && o.test != some false
    let ls := o.on && o.test != some true
    c.setReg (0xC00200 + 4 * m) (w32 (h.outState m * 2 ^ 29 + hs.toNat * 2 ^ 28 + ls.toNat * 2 ^ 27 + o.core.toNat * 2 ^ 26 +
      o.cstop.toNat * 2 ^ 25 + o.fcode * 2 ^ 20 + cur.getD m 0 % 65536))) c

/-- The SAF words of the core, and SAF_STAT, whose Husk fields stand while no telegram comes (R305). -/
def Chip.mirrorCore (c : Chip) (h : Husk) (k : SafetyCore) : Chip :=
  let c := if h.supply then c.setReg 0xC00000 (w32 (h.rst.num * 2 ^ 24 + h.hstate * 2 ^ 20 + h.stop.toNat * 256 + h.held)) else c
  let c := c.setF 0xC00000 31 28 k.cstate
  let c := forN 16 (fun g c => c.setReg (0xC00300 + 4 * g) (w32 (k.grpWord g))) c
  let id := fun (b : List Byte) (f : List Byte → Nat) => if b.isEmpty then (0 : W32) else w32 (f b)
  let pend := if k.awaiting then k.pend else []
  let c := (((c.setReg 0xC00400 (id k.set setSig)).setReg 0xC00404 (id k.set setScrc)).setReg 0xC00408 (id pend setSig)).setReg
    0xC0040C (id pend setScrc)
  let left := if k.awaiting then 60 - (c.tb3 - k.awaitAt) / 1000000000 else 0
  let c := c.setReg 0xC00410 (w32 (left * 65536 + k.result))
  ((c.setReg 0xC00500 (w32 k.cycles)).setReg 0xC00504 (w32 k.syncMiss)).setReg 0xC00508 (if k.started then Config.safetyFwid else 0)

/-- Events of the mirror fire in ascending order. -/
def Chip.mirrorEvents (c : Chip) (l : List Nat) : Chip := forL (sortBy id l.eraseDups) (fun n c => c.fire n) c

/-- The status telegram: the core learns of a reset or a confirmation, the mirror is copied, its events fire. While the
safety supply is out of range no telegram comes, and the core's own words alone are copied (R305). (Model: DESIGN CHOICE, log 69) -/
def telegram (h : Husk) (k : SafetyCore) (c : Chip) (cur : List Nat) : Husk × SafetyCore × Chip :=
  if !h.supply then (h, { k with evs := [] }, (c.mirrorCore h k).mirrorEvents k.evs)
  else
    let switch := h.confirm && k.awaiting && k.started && !k.fault
    let k1 := if h.sendReset then { k with resetPend := true } else k
    let r : Husk × SafetyCore × Chip := if switch then
        (h.activate h.pend, (k1.activate k1.pend).ev 477, c.confWrite (setSig k.pend) (setScrc k.pend))
      else (h, k1, c)
    let h := { r.1 with confirm := false, sendReset := false, counter := (h.counter + 1) % 256 }
    let k := r.2.1
    let c := ((r.2.2.mirrorHusk h cur).mirrorCore h k)
    let c := c.mirrorEvents (h.evs ++ k.evs)
    let c := if h.internal then c.needSafe else c
    ({ h with evs := [] }, { k with evs := [] }, c)

/-! ## Start and reset of the core (R291, R302, R454, R462) -/

/-- A reset of Corukan: the core stops; only a power-on reset ends an internal fault. -/
def SafetyCore.resetBy (k : SafetyCore) (powerOn : Bool) : SafetyCore := { SafetyCore.reset with fault := k.fault && !powerOn }

/-- BOOT steps 9 and 10: the core starts and handles the set of the boot image (R302). (Model: DEDUCED, log 68) -/
def startCore (h : Husk) (k : SafetyCore) (c : Chip) (img : List Byte) : Husk × SafetyCore :=
  let k := { k with started := true }
  let img := img.take (setLen img)
  let known := match c.confOff with
    | some off => (match c.confBest off with | some (_, sig, scrc) => sig == setSig img && scrc == setScrc img | none => false)
    | none => false
  if img.isEmpty then (h, k)
  else
    let r := setCheck img c.period c.ringCycle
    if r != 0 then (h, k.dropSet r)
    else if !h.supply || !hcrcOk (setHusk img) then (h, k.dropSet 6)
    else if known then (h.activate (setHusk img), k.activate img)
    else (h, k)

end Sys2Proof.Machine
end

