-- ==== Sys2Proof/Machine/Tick.lean ====
section
/-!
DEFINITION. The work of a tick as the chip does it: t₀, the three engine phases and the publish deadline (R9, R15, R22,
R190, R355). A live tick and a tick replayed by a joiner (R360) share it.
-/
namespace Sys2Proof.Machine

/-! ## t₀ (R9, R22, R123, R139, R234, R243) -/

/-- What begins with a tick in every engine: task instances, pulses, the planning frame, event sources 0, 4 and 5. -/
def Chip.tickWork (c : Chip) : Chip :=
  let c := forN 32 (fun s c => c.stepTick s) (c.tickTb).sepFrame
  let c := c.fire 0
  let c := if c.tick % c.ringCycle = 0 then c.fire 4 else c
  if c.tick % c.planFrame = 0 then c.fire 5 else c

/-- The tick number moves: a start or an adopted number, one more than the last, or 0 (R9). -/
def Chip.moveTick (c : Chip) : Chip :=
  { c with tick := c.nextTick.getD c.firstTick, nextTick := none, ticked := true }

/-- TB0 at t₀ is kept for the feedback unit and the downlinks; the records of the past tick are gone. (Model: DEDUCED, log 38) -/
def Chip.stampT0 (c : Chip) : Chip := c.modFbk fun f => { f with prevT0 := f.t0, t0 := c.tb0Ns, released := [] }

/-- t₀ of a live tick. While a joiner replays, the engines' part belongs to the replay. (Model: DEDUCED, log 58) -/
def Chip.liveTick (c : Chip) : Chip :=
  if !c.ticking then c
  else
    let c := (c.moveTick).stampT0.twinTick
    let c := if c.twin.replay.isSome then c else (c.lchTick).tickWork
    ((((c.strTick).dioTick).holdCritical).boundary).snapTick

/-! ## The phases -/

/-- In a twin pair only the last Z edge of a tick is evaluated, as the flash carries it (R354). (Model: DEDUCED, log 55) -/
def Chip.lastZ (c : Chip) : Chip :=
  if !c.paired then c
  else forL (c.fbk.lch.map (·.1)) (fun n c =>
    let l := c.lch n
    c.setLch n { l with zTick := if c.lchMode n = 2 ∧ l.hallTick ≠ [] then [] else l.zTick.getLast?.toList }) c

/-- Whether the live rows of a tick act: ticks run, and no replay does their work. (Model: DEDUCED, log 58) -/
def Chip.liveWork (c : Chip) : Bool := c.ticking && c.twin.replay.isNone

/-- The feedback phase; a clear in it may end the critical reaction (R438). -/
def Chip.feedbackWork (c : Chip) : Chip :=
  let d := (c.lastZ).phaseWatch Chip.feedbackPhase
  if c.fbk.clears.isEmpty then d else d.endCritical
/-- The profile phase; the separation engine's results are applied in the first tick of a frame (R262). -/
def Chip.profileWork (c : Chip) : Chip := (c.resultApply).phaseWatch Chip.profilePhase

/-! ## The publish deadline (R26 to R29, R124, R125, R241, R315, R355) -/

/-- The deadline cycle of the scheduler, in which source 3 fires, and the tracks of the tick. -/
def Chip.deadlineWork (c : Chip) : Chip := (c.trackTick).schedCycle true

/-- The deadline of a tick: the core's messages, the frames, the digest, the DIO image. -/
def Chip.publish (c : Chip) (k : SafetyCore) : Chip × SafetyCore :=
  let c := c.deadlineWork
  let k := k.takeOver c
  let c := forN 32 (fun n c => c.assemble n (k.message c n)) c
  let c := c.modTwin fun t => { t with digest := c.outputDigest (k.formed c) }
  (c.dioFrame, k)

end Sys2Proof.Machine
end

