-- ==== Sys2Proof/Machine/Join.lean ====
section
/-!
DEFINITION. The hot join of a replacement twin (R360 to R362): the owner's image and its T_c, the joiner's log, the load of
the image, the replay of logged ticks, and the comparison that makes the joiner eligible.
-/
namespace Sys2Proof

/-- The identity record of an image, from CFGD, the plan CRC, the CRCs of the pod images, ACT_SIG, ACT_SCRC and the words
R361 compares. The spec names its content and not its layout. (Model: DESIGN CHOICE, log 56) -/
opaque Config.identityBytes : List Nat → List Byte
/-- What a part makes of the internal section of a block of a snapshot, whose layout the spec does not give (R465).
(Model: DESIGN CHOICE, log 56) -/
opaque Config.restoreInternal : (block : Nat) → List Byte → Machine.Chip → Machine.Chip
/-- The safety core's state record, whose layout the spec does not give, and a core that loads one (R360).
(Model: DESIGN CHOICE, log 56) -/
opaque Config.coreRecord : Machine.SafetyCore → List Byte
/-- The safety core's part of a record of the join, put back. (Model: DESIGN CHOICE, log 56) -/
opaque Config.restoreCore : List Byte → Machine.SafetyCore → Machine.SafetyCore
/-- The bytes of an entry of the join log, whose layout the spec does not give (R360). (Model: DESIGN CHOICE, log 57) -/
opaque Config.joinLogBytes : Machine.JoinTick → List Byte

namespace Machine

/-! ## The image (R360, R361) -/

/-- Words of the DIO and MEM configuration that both twins must share (R361). -/
def joinCompared : List Nat :=
  [0xD00008, 0xD0000C, 0xD00010, 0xD00014, 0xA00004] ++ (List.range 64).map (fun i => 0xA00100 + 4 * i)
    ++ (List.range 512).map (fun i => 0xA01000 + 4 * i)

/-- The identity record of this module, its STEPPING among it (R362, R465). -/
def Chip.identity (c : Chip) : List Byte :=
  Config.identityBytes ([(c.readWord 4).toNat, c.cfgd, (c.sched.plan.map (·.crc)).getD 0] ++
    (List.range 32).map (fun n => crc32c (c.bytesAt (podWin n + 0x40000) 0x10000)) ++
    [(c.reg 0xC00400).toNat, (c.reg 0xC00404).toNat] ++ joinCompared.map fun x => (c.reg x).toNat)

/-- The enabled CRN_JREG regions: address and length. (Model: DESIGN CHOICE, log 110) -/
def Chip.joinRegions (c : Chip) : List (Nat × Nat) := (List.range 8).filterMap fun r =>
  let x := 0x700100 + 16 * r
  if c.regB (x + 12) 31 then some (c.pair x % 2 ^ 40, (c.reg (x + 8)).toNat) else none

/-- The memories of an image, in its order: pod data memories, cell memory, the regions. -/
def Chip.joinMemories (c : Chip) : List (Nat × Nat) :=
  (List.range 32).map (fun n => (podWin n, 0x40000)) ++ [(cellBase, 0x800000)] ++ c.joinRegions

/-- The state image at t₀ of T_c. (Model: DESIGN CHOICE, log 56) -/
def Chip.joinImage (c : Chip) (k : SafetyCore) : List Byte :=
  let r := Config.coreRecord k
  let b := c.identity ++ c.snapImage ++ (c.joinMemories.map fun m => c.bytesAt m.1 m.2).flatten ++ r ++ toBytes 4 (crcSafety r)
  b ++ toBytes 4 (crc32c b)

/-- Whether a pod holds a tick-bound sprout (R124, R360). -/
def Chip.holdsTb (c : Chip) : Bool := c.heldCount (fun s => s.tb) != 0

/-- The owner's part at t₀: two ticks after it learns of the join it takes the next free ring-cycle boundary as T_c.
(Model: DESIGN CHOICE, log 57) -/
def Chip.joinOwner (c : Chip) (k : SafetyCore) : Chip :=
  if !(c.paired && c.owner) then c
  else if !c.twin.pflags.testBit 6 then c.modTwin fun t => { t with joinAt := none, image := [], imageAt := 0 }
  else match c.twin.joinAt with
    | none => c.modTwin fun t => { t with joinAt := some (c.tick + 1), image := [], imageAt := 0 }
    | some n =>
      if c.twin.image.isEmpty && decide (n < c.tick) && c.tick % c.ringCycle == 0 && !c.holdsTb then
        c.modTwin fun t => { t with joinAt := some c.tick, image := c.joinImage k, imageAt := 0 }
      else c

/-! ## The joiner's log (R360) -/

/-- The bytes an entry takes in the log: what it holds. The spec gives the log no layout. (Model: DESIGN CHOICE, log 57) -/
def JoinTick.size (e : JoinTick) : Nat :=
  8 + (e.frames.foldl (fun n f => n + f.2.length) 0) + e.flash.length + (e.ring.foldl (fun n f => n + f.2.2.length) 0)
    + 12 * e.commits.length

/-- The entry of the live tick. -/
def Chip.joinEntry (c : Chip) : JoinTick :=
  let both := (c.reg 0x60000C) &&& (c.twin.pmask.getD (BitVec.allOnes 32))
  { tick := c.tick, frames := (bitsSet both).map fun n => (n, (c.port n).frame), flash := c.twin.flash.getD [],
    ring := c.twin.gotRing, commits := c.twin.gotCommits }

/-- An entry is written at CRN_JLOG, after those before it and from the start again at the log's end (R360).
(Model: DESIGN CHOICE, log 57) -/
def Chip.joinLogWrite (c : Chip) (e : JoinTick) : Chip :=
  let base := c.pair 0x700030 % 2 ^ 40
  let size := c.regF 0x700038 15 0 * 2 ^ 20
  let bs := (Config.joinLogBytes e).take e.size
  let room := size - c.twin.logAt
  let c := (c.engineStore (base + c.twin.logAt) (bs.take room)).engineStore base (bs.drop room)
  c.modTwin fun t => { t with logAt := (t.logAt + e.size) % size }

/-- At the feedback phase of a live tick a joiner logs its inputs: from T_c on, and before it only the latest tick.
(Model: DESIGN CHOICE, log 57) -/
def Chip.joinLog (c : Chip) : Chip :=
  if !c.twin.joining then c
  else
    let keep := match c.twin.joinAt with
      | some n => c.twin.log.filter fun e => decide (n ≤ e.tick)
      | none => []
    let e := c.joinEntry
    let l := keep ++ [e]
    let c := c.modTwin fun t => { t with log := l, gotRing := [], gotCommits := [] }
    if l.foldl (fun n e => n + e.size) 0 > c.regF 0x700038 15 0 * 2 ^ 20 then c.joinFail 3
    else if c.twin.joinAt.isSome then c.joinLogWrite e else c

/-- A commit falls due (R480). A joiner logs its writes, and leaves them to the replay while it replays. -/
def Chip.joinCommit (c : Chip) : Chip :=
  if !(c.twin.joining && c.ticking) then c.commitApply
  else
    let due := (c.host.commits.filter fun x => x.tick == c.tick).flatMap (·.entries)
    let c := c.modTwin fun t => { t with gotCommits := t.gotCommits ++ due }
    if c.twin.replay.isSome then
      { c with host := { c.host with commits := c.host.commits.filter fun x => x.tick != c.tick } }
    else c.commitApply

/-- The inputs of the present tick. -/
def Chip.inputs (c : Chip) : TickInputs :=
  { t0 := c.fbk.t0, prevT0 := c.fbk.prevT0, lch := c.fbk.lch, released := c.fbk.released, tracks := c.star.tracks, safe := c.star.safe
    stream := c.ring.stream, lchPrev := c.twin.lchPrev, dio := c.twin.dio }
/-- The chip with other inputs. -/
def Chip.withInputs (c : Chip) (w : TickInputs) : Chip :=
  { c with
    fbk := { c.fbk with t0 := w.t0, prevT0 := w.prevT0, lch := w.lch, released := w.released }
    star := { c.star with tracks := w.tracks, safe := w.safe }
    ring := { c.ring with stream := w.stream }
    twin := { c.twin with lchPrev := w.lchPrev, dio := w.dio } }

/-- A change of the chip made as of the tick being replayed: the work of tick `n`, on the inputs of the replay, while the module lives
in another tick with its own. (Model: DEDUCED, log 58) -/
def Chip.asReplay (c : Chip) (n : Nat) (f : Chip → Chip) : Chip :=
  let live := c.inputs
  let d := f ((({ c with tick := n } : Chip).withInputs c.twin.rep).modTwin fun t => { t with replay := none })
  (({ d with tick := c.tick } : Chip).withInputs live).modTwin fun t => { t with replay := c.twin.replay, rep := d.inputs }

/-! ## Loading the image (R360, R361) -/

/-- A word of a section goes to its register where the joiner loads it: of STR the records, trailers, nodes and kinds of each port, which
decide its downlinks (R361). (Model: DESIGN CHOICE, log 56) -/
def Chip.loadWord (c : Chip) (b x : Nat) (v : W32) : Chip :=
  let off := b * 0x100000 + x
  if 1 ≤ b ∧ b ≤ 5 then c.setReg off v
  else if b = 6 then (if 0x1000 ≤ x ∧ x < 0x1800 ∧ 16 ≤ x % 64 ∧ x % 64 < 36 then c.setReg off v else c)
  else if b = 8 then (if 0x1000 ≤ x ∧ x < 0x1800 then c.setReg off v else c)
  else if b = 11 then if x = 0x24 ∨ x = 0x28 then c else (match regDesc off with
    | some d => c.setReg off ((c.reg off &&& ~~~ BitVec.ofNat 32 d.rw) ||| (v &&& BitVec.ofNat 32 d.rw))
    | none => c)
  else if b = 13 then (if x = 0x18 ∨ (0x40 ≤ x ∧ x < 0x78) ∨ (0x100 ≤ x ∧ x < 0x180) then c.setReg off v else c)
  else c

def Chip.loadWords (c : Chip) (b x : Nat) : List W32 → Chip
  | [] => c
  | v :: vs => (c.loadWord b x v).loadWords b (x + 4) vs

/-- An internal section: the state of the block that decides results. -/
def Chip.loadInternal (c : Chip) (b : Nat) (data : List Byte) : Chip :=
  let d := Config.restoreInternal b data c
  match b with
  | 1 => { c with sched := d.sched, pods := d.pods }
  | 2 => { c with lpe := d.lpe }
  | 3 => { c with prf := d.prf }
  | 4 => { c with fbk := d.fbk }
  | 5 => { c with sep := d.sep }
  | 7 => { c with ring := { c.ring with xhalf := d.ring.xhalf, wsGot := d.ring.wsGot } }
  | 8 => { c with tim := { c.tim with trigs := d.tim.trigs } }
  | 11 => { c with hlt := { c.hlt with shed := d.hlt.shed } }
  | _ => c

/-- The sections of a snapshot image. (Model: DESIGN CHOICE, log 56) -/
def Chip.loadSections (c : Chip) (img : List Byte) : (n : Nat) → (i : Nat) → Chip
  | 0, _ => c
  | n + 1, i =>
    let e := 64 + 16 * i
    let b := leAt img e 4
    let x := leAt img (e + 4) 4
    let data := (img.drop (leAt img (e + 12) 4)).take (leAt img (e + 8) 4)
    (if x = 0xF0000 then c.loadInternal b data else c.loadWords b x (wordsOf data)).loadSections img n (i + 1)

/-- The memories of an image. -/
def Chip.loadMemories (c : Chip) (bs : List Byte) : List (Nat × Nat) → Chip
  | [] => c
  | m :: ms => (c.setBytes m.1 (bs.take m.2)).loadMemories (bs.drop m.2) ms

/-- The length of the image whose first bytes have arrived: the snapshot's own length stands in its header. -/
def Chip.joinLength (c : Chip) (k : SafetyCore) : Nat :=
  let i := c.identity.length
  i + leAt c.twin.image (i + 8) 4 + c.joinMemories.foldl (fun n m => n + m.2) 0 + (Config.coreRecord k).length + 8

/-- The whole image has arrived: it is checked and loaded, and the replay begins at T_c. The inputs in it are those of the replay.
(Model: DESIGN CHOICE, log 56) -/
def Chip.joinLoad (c : Chip) (k : SafetyCore) : Chip × SafetyCore :=
  let img := c.twin.image
  let i := c.identity.length
  let n := c.joinLength k
  if decide (img.length < i + 64) || decide (img.length < n) then (c, k)
  else if crc32c (img.take (n - 4)) != leAt img (n - 4) 4 then (c.joinFail 4, k)
  else if img.take i != c.identity then (c.joinFail 1, k)
  else
    let snap := img.drop i
    let mems := snap.drop (leAt snap 8 4)
    let core := (mems.drop (c.joinMemories.foldl (fun n m => n + m.2) 0)).take (Config.coreRecord k).length
    let live := c.inputs
    let d := (c.loadSections snap (leAt snap 6 2) 0).loadMemories mems c.joinMemories
    let rep := { TickInputs.none with t0 := d.fbk.t0, prevT0 := d.fbk.prevT0, lch := d.fbk.lch }
    ((d.withInputs live).modTwin fun t => { t with image := [], replay := t.joinAt, opened := false, rep := rep },
      Config.restoreCore core k)

/-- The guard of a join frame (R338, R339): it comes over the twin link alone, from the partner, in the join slot of the position.
(Model: DEDUCED, log 59) -/
def Chip.joinGuard (c : Chip) (east : Bool) (t : Nat) (b : List Byte) : Chip × Bool :=
  let j := c.joinSlot c.crnMode c.position
  let d := c.ringDiff t (16 * j.1 + c.ldOf c.station east)
  if !c.isTwinPort east || leAt b 1 1 != c.partner || j.2 == 0 || decide (16 * c.rg < d.natAbs) then (c.ringCut (leAt b 1 1) false, false)
  else if 100 * d + 4096 * (b.length / 8 + 2) > 4096 * j.2 + 1600 * c.rg then (c.ringCut (leAt b 1 1) true, false)
  else (c, true)

/-- A join frame arrives (R339, R360): its bytes follow those received. The first names T_c by its tick.
(Model: DESIGN CHOICE, log 57; DEDUCED, log 59) -/
def Chip.joinFrame (c : Chip) (k : SafetyCore) (east : Bool) (t : Nat) (b : List Byte) (codeOk : Bool) : Chip × SafetyCore :=
  let ok := ringFrameOk 0x5D b codeOk
  if !(c.rstate == rsInteg || c.rstate == rsActive) then
    ((if ok then c.headerSeen b else c.coldHears ok), k)
  else
    let g := c.joinGuard east t b
    let c := if g.2 && ok then g.1.headerSeen b else g.1
    let o := leAt b 0x1C 4
    if !g.2 || !ok || !c.twin.joining || c.twin.replay.isSome || o != c.twin.image.length then (c, k)
    else
      let c := c.modTwin fun t => { t with
        image := t.image ++ (b.drop 32).take (b.length - 40), joinAt := if o = 0 then some c.tick else t.joinAt }
      c.joinLoad k

/-! ## Replay (R360) -/

/-- The tick that pods and the scheduler work in: the replayed one while a replay has one open. -/
def Chip.inWork (c : Chip) (f : Chip → Chip) : Chip := match c.twin.replay with
  | some n => if c.twin.opened then c.asReplay (n - 1) f else f c
  | none => f c

/-- The replayed tick's work ends: its deadline and digest. Nothing is sent. -/
def Chip.replayClose (c : Chip) (k : SafetyCore) : Chip × SafetyCore := match c.twin.replay with
  | none => (c, k)
  | some n =>
    if !c.twin.opened then (c, k)
    else
      let c := c.asReplay (n - 1) fun c => c.deadlineWork
      let k := k.takeOver c
      let c := c.asReplay (n - 1) fun c => c.modTwin fun t => { t with digest := c.outputDigest (k.formed c) }
      (c.modTwin fun t => { t with opened := false }, k)

/-- A DIGEST of the owner for the previous tick is compared; 64 matches, 16 of them live, make the joiner
eligible, and it enters RUN from STANDBY (R458). -/
def Chip.joinCompare (c : Chip) (flash : List Byte) (n : Nat) (live : Bool) : Chip :=
  if flash.isEmpty || leAt flash 0x28 4 != wrapN 32 ((n : Int) - 1) then c
  else if leAt flash 0x2C 4 != c.twin.digest then c.joinFail 5
  else
    let c := c.modTwin fun t => { t with matched := t.matched + 1, live := if live then t.live + 1 else t.live }
    if c.twin.matched ≥ 64 ∧ c.twin.live ≥ 16 then
      let c := ((c.modTwin fun t => { t with joining := false, joinAt := none, log := [] }).setElig true).crnFire 108
      if c.modState == .standby then c.setModState .run else c
    else c

/-- The inputs of a logged tick: the owner's record, the frames both masks released, and the intervals of the ring. The image holds
those of t₀ of its own tick T_c already. -/
def Chip.replayInputs (c : Chip) (e : JoinTick) (first : Bool) : Chip :=
  let c := if first then c else
    let prev := c.fbk.lch.map fun x => (x.1, (x.2.countTick, x.2.sectorTick))
    (c.modTwin fun t => { t with lchPrev := prev }).modFbk fun f => { f with prevT0 := f.t0, t0 := f.t0 + c.tickNs }
  let c := (c.modFbk fun f => { f with released := [] }).modStar fun s => { s with tracks := [] }
  let c := if e.flash.isEmpty then c else c.useRecord e.flash
  let c := forL e.frames (fun f c => c.releaseFrame f.1 f.2) c
  forL e.ring (fun r c => c.streamArrived r.1 r.2.1 r.2.2) c

/-- The hardware's work of a replayed tick: t₀, whose work the image of T_c holds, then commits, inputs, and the phases. The safety core
runs its cycle at the boundary, on the messages of the replay. -/
def Chip.replayWork (c : Chip) (k : SafetyCore) (e : JoinTick) : Chip × SafetyCore :=
  let boundary := e.tick % c.ringCycle = 0
  let first := c.twin.joinAt == some e.tick
  let c := c.asReplay e.tick fun c =>
    let c := if boundary && !first then (c.settleXdata).copyStream else c
    let c := forL e.commits (fun x c => c.commitOne x) (if first then c else c.tickWork)
    (((c.shedCommitApply).replayInputs e first).feedbackWork).profileWork
  let kc := (c.asReplay e.tick fun c => (k.cycle c true).2)
  let r : Chip × SafetyCore := if boundary then (kc, (k.cycle (({ c with tick := e.tick } : Chip).withInputs c.twin.rep) true).1) else (c, k)
  (r.1.asReplay e.tick fun c => c.loopPhase, r.2)

/-- One replay tick: the one before it is closed, and the next logged one runs. -/
def Chip.replayTick (c : Chip) (k : SafetyCore) : Chip × SafetyCore := match c.twin.replay with
  | none => (c, k)
  | some n => match c.twin.log.find? fun e => e.tick == n with
    | none => (c, k)
    | some e =>
      let r := c.replayClose k
      let c := if c.twin.joinAt == some n then r.1 else r.1.joinCompare e.flash n false
      if c.twin.replay.isNone then (c, r.2)
      else
        let w := c.replayWork r.2 e
        (w.1.modTwin fun t => { t with
          replay := some (n + 1), opened := true, log := t.log.filter fun x => decide (n < x.tick) }, w.2)

/-- At t₀ of a live tick: a joiner that has replayed every earlier tick runs live from here; one that has lost its owner
fails the join. -/
def Chip.joinTick (c : Chip) (k : SafetyCore) : Chip × SafetyCore :=
  if !(c.twin.joining && c.ticking) then (c, k)
  else if !c.twin.hbNow && decide (c.twin.hbMiss + 1 ≥ c.ringCycle) then (c.joinFail 6, k)
  else if c.twin.replay == some (c.nextTick.getD c.firstTick) then
    let r := c.replayClose k
    (r.1.modTwin fun t => { t with replay := none, rep := TickInputs.none }, r.2)
  else (c, k)

/-- A flash of the owner reaches a joiner that runs live. -/
def Chip.joinFlash (c : Chip) : Chip :=
  if c.twin.joining && !c.joinWaits then
    c.joinCompare (c.twin.flash.getD []) c.tick true
  else c

/-- An excluded joiner fails the join (R362). (Model: DESIGN CHOICE, log 57) -/
def Chip.joinExcluded (c : Chip) : Chip := if c.twin.joining && c.rstate == rsExcluded then c.joinFail 7 else c

end Machine
end Sys2Proof
end

