-- ==== Sys2Proof/Machine/Boot.lean ====
section
/-!
DEFINITION. BOOT (R449 to R455) and the resets (R441, R462, R488, R489): what they make of the whole block.
-/
namespace Sys2Proof

/-- Whether the key-hash fuses are blank, and the 32 bytes they hold (R454). (Model: DESIGN CHOICE, log 12) -/
opaque Config.keyBlank : Bool
/-- The key that the fuses hold (R453). (Model: DESIGN CHOICE, log 12) -/
opaque Config.keyFuses : List Byte

namespace Machine

/-! ## The image (R453) -/

/-- Field of section entry `i` of an image's header. -/
def sectF (img : List Byte) (i off n : Nat) : Nat := leAt img (0x100 + 16 * i + off) n
def sectCount (img : List Byte) : Nat := leAt img 6 2
/-- The entries of a kind. -/
def sectsOf (img : List Byte) (kind : Nat) : List Nat := (List.range (sectCount img)).filter fun i => sectF img i 0 1 == kind
def sectBytes (img : List Byte) (i : Nat) : List Byte := (img.drop (sectF img i 4 4)).take (sectF img i 8 4)

/-- Step 2: MAGIC, VERSION, N_SECT, and an IMAGE_LEN that R453 allows and the slot holds. (Model: DEDUCED, log 70) -/
def headerOk (h : List Byte) (slotLen : Nat) : Bool :=
  let n := leAt h 8 4
  leAt h 0 4 == 0x4D49594B && leAt h 4 2 == 1 && decide (1 ≤ sectCount h) && decide (sectCount h ≤ 64) &&
    decide (n ≤ slotLen) && decide (0x540 ≤ n) && decide (n ≤ 0x4000000) && n % 64 == 0

/-- Step 4: SIG over the SHA-256 of everything before it. -/
def sigOk (img : List Byte) : Bool :=
  let n := img.length
  ecdsaVerify (beAt img 0x10 32) (beAt img 0x30 32) (ofBytes (sha256 (img.take (n - 64))).reverse)
    (beAt img (n - 64) 32) (beAt img (n - 32) 32)

/-- The limit on a section's LEN by its kind. -/
def sectLenOk (kind len : Nat) : Bool := match kind with
  | 1 => decide (len ≤ 0x10000) && len % 64 == 0
  | 2 => decide (len ≤ 0x40000)
  | 3 => decide (len ≤ 0x100000)
  | 4 => decide (len ≤ 0x100000)
  | 5 => decide (len ≤ 0x10000)
  | 6 => len % 16 == 0
  | _ => false

/-- Step 5: one entry's bounds, limits and CRC. -/
def sectOk (img : List Byte) (i : Nat) : Bool :=
  let kind := sectF img i 0 1
  let arg := sectF img i 1 1
  let off := sectF img i 4 4
  let len := sectF img i 8 4
  (if kind = 1 ∨ kind = 2 then decide (arg < 32) else arg == 0) && sectF img i 2 2 == 0 && off % 64 == 0 &&
    decide (0x500 ≤ off) && decide (off + len + 64 ≤ img.length) && sectLenOk kind len &&
    crc32c (sectBytes img i) == sectF img i 12 4

/-- Step 5: every entry and the counts of the kinds. (Model: DEDUCED, log 70) -/
def sectsOk (img : List Byte) : Bool :=
  (List.range (sectCount img)).all (sectOk img) &&
    distinct ((sectsOf img 1).map fun i => sectF img i 1 1) && distinct ((sectsOf img 2).map fun i => sectF img i 1 1) &&
    decide ((sectsOf img 3).length ≤ 1) && (sectsOf img 4).length == 1 && decide ((sectsOf img 5).length ≤ 1) &&
    decide ((sectsOf img 6).length ≤ 1)

/-! ## Steps 2 to 5 -/

/-- Where an image is read from: a slot of the flash, offset and size, or the golden copy that the host wrote. -/
inductive BootSource where
  | flash (off size : Nat)
  | host
  deriving DecidableEq, Repr

def Chip.sourceBytes (c : Chip) (src : BootSource) (n : Nat) : List Byte := match src with
  | .flash off _ => c.flashBytes off n
  | .host => c.bytesAt dramBase n

/-- Whether a line belongs to the golden copy of an image of `n` bytes. -/
def goldenLine (n l : Nat) : Bool := decide (dramBase ≤ 64 * l) && decide (64 * l < dramBase + n)
/-- The golden copy in DRAM of an image of `n` bytes (R455): what is read from flash fills its lines whole, and a copy that the host
wrote or that a warm reset kept stands as it is. (Model: DEDUCED, log 70) -/
def Chip.goldenCopy (c : Chip) (src : BootSource) (n : Nat) (read : Option (List Byte)) : Chip :=
  let c := match src, read with
    | .flash _ _, some img =>
      let c := c.setBytes dramBase img
      { c with mem := { c.mem with lines := c.mem.lines.filter fun e => !goldenLine n e.1 } }
    | _, _ => c
  { c with golden := ((n + 0xFFFF) / 0x10000 * 0x10000, match src with | .flash off _ => some off | .host => none) }

/-- No line of the copy of an image of `n` bytes is poisoned: one that is gives no content (R426). -/
def Chip.copyGood (c : Chip) (n : Nat) : Bool := !(c.mem.lines.any fun e => goldenLine n e.1 && e.2.poisoned)
/-- Whether the golden copy that a warm reset kept still verifies (R462). -/
def Chip.keptOk (c : Chip) (n : Nat) : Bool := sigOk (c.bytesAt dramBase n) && c.copyGood n

/-- Steps 2 to 5 on one source: the chip with the golden copy, which step 4 reads in before it verifies SIG, and the step that failed.
A warm reset tries the kept copy first (R462). -/
def Chip.bootImage (c : Chip) (src : BootSource) (warm : Bool) : Chip × Option Nat :=
  let size := match src with | .flash _ size => size | .host => 0x4000000
  let h := c.sourceBytes src 0x500
  if !headerOk h size then (c, some 2)
  else if !Config.keyBlank && sha256 ((h.drop 0x10).take 64) != Config.keyFuses then (c, some 3)
  else
    let c := if Config.keyBlank then c.setB 0x214 0 true else c
    let n := leAt h 8 4
    let use := warm && c.keptOk n
    let img := if use then c.bytesAt dramBase n else c.sourceBytes src n
    let c := c.goldenCopy src n (if use then none else some img)
    if !sigOk img || !c.copyGood n then (c, some 4)
    else if !sectsOk img then (c, some 5)
    else (c, none)

/-- The slot of the directory: 0 primary, 1 secondary. -/
def slotOf (d : List Byte) (k : Nat) : BootSource := .flash (leAt d (4 + 8 * k) 4) (leAt d (8 + 8 * k) 4)

/-- Steps 2 to 5 as the BOOT straps choose the image. (Model: DEDUCED, log 70) -/
def Chip.bootSelect (c : Chip) (warm : Bool) : Chip × Option Nat :=
  let mode := c.regF 0x200 5 4
  if mode = 2 then c.bootImage .host warm
  else match c.directory with
    | none => (if mode = 0 then c.setB 0x214 1 true else c, some 2)
    | some d =>
      if mode = 1 then c.bootImage (slotOf d 1) warm
      else match c.bootImage (slotOf d 0) warm with
        | (c, none) => (c, none)
        | (c, some _) => (c.setB 0x214 1 true).bootImage (slotOf d 1) warm

/-! ## Steps 6 to 8 -/

/-- A pod's local data memory is loaded from a section, and the rest of it is zeroed (R453). -/
def Chip.loadPodData (c : Chip) (n : Nat) (bs : List Byte) : Chip :=
  let inside := fun (a : Nat) => decide (podWin n ≤ a) && decide (a < podWin n + 0x40000)
  ({ c with
    cells := c.cells.filter fun e => !inside e.1
    mem := { c.mem with lines := c.mem.lines.filter fun e => !inside (64 * e.1) } } : Chip).setBytes (podWin n) bs

/-- Step 6: the pod sections and MEM_IMSRC. (Model: DEDUCED, log 71) -/
def Chip.bootPods (c : Chip) (img : List Byte) : Chip :=
  let c := forL (sectsOf img 1) (fun i c =>
    (c.setBytes (podWin (sectF img i 1 1) + 0x40000) (sectBytes img i)).setPair (0xA00100 + 8 * sectF img i 1 1)
      (dramBase + sectF img i 4 4)) c
  forL (sectsOf img 2) (fun i c => c.loadPodData (sectF img i 1 1) (sectBytes img i)) c

/-- Step 7: one entry of the script; the Bool says whether it took effect. (Model: DEDUCED, log 70) -/
def Chip.scriptOne (c : Chip) (a : Nat) (v : W32) : Chip × Bool :=
  if spaceOf a = .regs ∧ a % 4 = 0 then
    let r := c.watch fun c => c.regWrite 43 (a - regBase) v
    (r.1, !r.2 && !c.ignoresQuietly (a - regBase) v)
  else (c, false)

/-- Step 7: the entries in order up to the first that fails. (Model: DEDUCED, log 70) -/
def Chip.script (c : Chip) (bs : List Byte) : (n : Nat) → (i : Nat) → Chip × Bool
  | 0, _ => (c, true)
  | n + 1, i =>
    let r := c.scriptOne (leAt bs (16 * i) 8) (BitVec.ofNat 32 (leAt bs (16 * i + 8) 4))
    if r.2 then r.1.script bs n (i + 1) else r

/-- Steps 6 to 8, or the step code that failed. -/
def Chip.bootLoad (c : Chip) (img : List Byte) : Chip × Option Nat :=
  let c := c.bootPods img
  let r := match sectsOf img 6 with
    | [] => (c, true)
    | i :: _ => c.script (sectBytes img i) (sectF img i 8 4 / 16) 0
  if !r.2 then (r.1, some 6)
  else match sectsOf img 3 with
    | [] => (r.1, none)
    | i :: _ => match r.1.planLoad (dramBase + sectF img i 4 4) false with
      | (c, true) => (c, none)
      | (c, false) => (c, some 7)

/-! ## BOOT as a whole (R454, R461) -/

/-- BOOT ends in SAFE with a step code. -/
def State.bootFail (s : State) (c : Chip) (k : Nat) : State := { s with chip := (c.setF 0x214 11 8 k).enterSafe }

/-- BOOT ends in CONFIG: the pods with an image run, and AUTORUN may request SYNC. (Model: DEDUCED, log 71) -/
def Chip.bootEnd (c : Chip) (img : List Byte) : Chip :=
  let c := ({ c with autorun := leAt img 12 1 % 4, bootGo := false } : Chip).setModState .config
  (forL (sectsOf img 1) (fun i c => c.modPod (sectF img i 1 1) Pod.run1) c).autoSync

/-- Steps 2 to 10. An internal fault of the Husk stands until its supply has been off, and SAFE is entered at once (R459). -/
def State.bootRun (s : State) (fwOk : Bool) : State :=
  if s.husk.faulty then { s with chip := s.chip.enterSafe }
  else match s.chip.bootSelect (s.chip.regF 0x214 31 28 == 5) with
  | (c, some k) => s.bootFail c k
  | (c, none) =>
    let img := c.bytesAt dramBase (leAt (c.bytesAt dramBase 16) 8 4)
    match ({ c with byRom := true } : Chip).bootLoad img with
    | (c, some k) => s.bootFail { c with byRom := false } k
    | (c, none) =>
      let c : Chip := { c with byRom := false }
      if !fwOk || s.core.fault then s.bootFail c 8
      else
        let set := match sectsOf img 5 with
          | [] => []
          | i :: _ => sectBytes img i
        let r := startCore s.husk s.core c set
        { s with chip := c.bootEnd img, husk := r.1, core := r.2 }

/-- The rise of RESET_N: the straps are sampled and BOOT begins (R450, R454). With the straps at 0b10 it waits for GO, at
0b11 it stays. -/
def State.boot (s : State) (straps : BitVec 6) (trained fwOk : Bool) : State :=
  let c := s.chip
  if c.modState == .boot && c.bootGo then s.bootRun fwOk
  else if c.modState != .reset || c.orderHeld then s
  else
    let c := (c.setReg 0x200 (straps.zeroExtend 32)).setModState .boot
    let s := { s with chip := c }
    if !trained then s.bootFail c 1
    else if s.husk.faulty then { s with chip := c.enterSafe }
    else if c.regF 0x200 5 4 ≥ 2 then s
    else s.bootRun fwOk

/-- A write of GO: the image that the host wrote is read. -/
def State.bootGoWrite (s : State) (v : W32) (fwOk : Bool) : State :=
  let s := { s with chip := s.chip.bootCtrl v }
  if s.chip.modState == .boot && s.chip.bootGo then s.bootRun fwOk else s

/-! ## Resets (R462) -/

/-- A reset of Corukan and the safety core. The Husk keeps its state but for a section that was pending in the core: no set
awaits confirmation any more. (Model: DEDUCED, log 68) -/
def State.resetTo (s : State) (cause : Nat) : State :=
  { s with chip := s.chip.resetChip cause (cause == 5), core := s.core.resetBy (cause == 1)
           husk := { s.husk with pend := [], confirm := false } }

end Machine
end Sys2Proof
end

