-- ==== Sys2Proof/Machine/Kpp.lean ====
section
/-!
DEFINITION. The operations of authenticated command frames (R392): READ, WRITE and DOORBELL, made by master 41.
-/
namespace Sys2Proof.Machine

/-- The operation, the payload, ADDR and N of a command. -/
def KppFrame.op (f : KppFrame) : Nat := leAt f.data 6 2
def KppFrame.pay (f : KppFrame) : List Byte := (f.data.drop 0x20).take (leAt f.data 0x10 4)
def KppFrame.addr (f : KppFrame) : Nat := leAt f.pay 0 8
def KppFrame.count (f : KppFrame) : Nat := leAt f.pay 8 4

/-- The response whose payload begins with a STATUS; source 187 fires for a known operation. (Model: DEDUCED, log 83) -/
def Chip.kppStatus (c : Chip) (f : KppFrame) (st : Nat) (bs : List Byte) : Chip :=
  let c := c.kppRespond f (toBytes 4 st ++ bs)
  if st = 2 then c else c.fire 187

/-- Whether READ or WRITE may touch a range. -/
def kppRange (a n : Nat) : Bool :=
  decide (4 ≤ n) && decide (n ≤ 1024) && n % 4 == 0 && a % 4 == 0 &&
    ((decide (regBase ≤ a) && decide (a + n ≤ regBase + 0x1000000) &&
        (decide (a + n ≤ regBase + 0x900400) || decide (regBase + 0x900500 ≤ a))) ||
      inCell a n || (decide (dramBase ≤ a) && decide (a + n ≤ dramEnd)))

/-- The oldest command is checked; one whose operation is unknown is answered at once (R391, R392). (Model: DEDUCED, log 83) -/
def Chip.kppCommand (c : Chip) : Chip :=
  let c := c.kppCheck
  match c.eth.ready with
  | none => c
  | some f => if f.op = 1 ∨ f.op = 2 ∨ f.op = 3 then c else c.kppStatus f 2 []

/-- The bytes a READ of memory returns: of a line that fails its check the spec states none. (Model: DESIGN CHOICE, log 14) -/
def Chip.kppBytes (c : Chip) (a n : Nat) (good : Bool) : List Byte :=
  if good then c.loadBytes a n
  else (List.range n).map fun (i : Nat) => BitVec.ofInt 8 (Config.freeResult 202 [Int.ofNat c.draws, Int.ofNat i])

/-- READ. While a line of the range is being corrected the command waits. -/
def Chip.kppRead (c : Chip) : Chip := match c.eth.ready with
  | none => c
  | some f =>
    if f.op != 1 then c
    else if !kppRange f.addr f.count then c.kppStatus f 1 []
    else if spaceOf f.addr = .regs then
      let bs := (c.busLoad 41 f.addr f.count).2
      let r := c.watch fun c => (c.busLoad 41 f.addr f.count).1
      r.1.kppStatus f (if r.2 then 3 else 0) bs
    else
      let r := c.checkLines 5 0 ((linesOf f.addr f.count).filter fun l => spaceOf (64 * l) != .crcArea) []
      if r.2 = .wait then r.1 else r.1.kppStatus f 0 (r.1.kppBytes f.addr f.count (r.2 == .ok))

/-- WRITE: 32-bit writes in ascending order. -/
def Chip.kppWords (c : Chip) (a : Nat) : List W32 → Chip
  | [] => c
  | v :: vs => (c.busStore 41 a (toBytes 4 v.toNat)).kppWords (a + 4) vs
/-- Whether one of the words is ignored without a mark. -/
def Chip.kppQuiet (c : Chip) (a : Nat) : List W32 → Bool
  | [] => false
  | v :: vs => c.ignoresAt a v || (c.busStore 41 a (toBytes 4 v.toNat)).kppQuiet (a + 4) vs
/-- The write of the frame that waits takes effect. (Model: DESIGN CHOICE, log 19; DEDUCED, log 83) -/
def Chip.kppWrite (c : Chip) : Chip := match c.eth.ready with
  | none => c
  | some f =>
    if f.op != 2 then c
    else if !kppRange f.addr f.count || f.pay.length != 16 + f.count then c.kppStatus f 1 []
    else
      let r := c.watch fun c => c.kppWords f.addr (wordsOf (f.pay.drop 16))
      r.1.kppStatus f (if r.2 || c.kppQuiet f.addr (wordsOf (f.pay.drop 16)) then 3 else 0) []

/-- DOORBELL. (Model: DEDUCED, log 83) -/
def Chip.kppDoorbell (c : Chip) : Chip := match c.eth.ready with
  | none => c
  | some f =>
    if f.op != 3 then c
    else if leAt f.pay 0 4 < 16 then (c.fire (16 + leAt f.pay 0 4)).kppStatus f 0 [] else c.kppStatus f 1 []

end Sys2Proof.Machine
end

