-- ==== Sys2Proof/Machine/PodCore.lean ====
section
/-!
DEFINITION. How a pod issues an instruction (R53, R58, R66 to R73, R80, R82): the fetch check, the wait for operands, the
traps, the flag traps, and the next program counter.
-/
namespace Sys2Proof.Machine

/-- A register an instruction reads or writes. -/
inductive PReg where
  | s (n : Nat)
  | v (n : Nat)
  deriving DecidableEq, Repr

/-- What an instruction does at issue: it waits (a correction may have begun), traps, completes, or completes having set the program counter, the
repeat levels or the pod state itself. -/
inductive Eff where
  | stall (c : Chip)
  | trap (c : Chip) (cause addr : Nat)
  | done (c : Chip)
  | jump (c : Chip)

/-- What a meaning answers. -/
abbrev Out := Host.Outcome State Fault Refusal
/-- The next state with a changed chip. -/
def State.onChip (s : State) (c : Chip) : Out := .next { s with chip := c }

/-! ## Flag traps (R53, R73) -/

/-- The lowest of the accumulators 0 to 7 whose flag of a kind, at `base` in PSTAT, went from 0 to 1. -/
def newFlag (was now : W64) (base : Nat) : Option Nat :=
  (List.range 8).find? fun n => !was.toNat.testBit (base + n) && now.toNat.testBit (base + n)

/-- The ECAUSE fields of the flag trap an instruction raises: an accumulator trap before an f32 trap, and of two
accumulators the lower. -/
def flagCause (en was now : W64) : Option Nat :=
  let ovf := if en.toNat.testBit 0 then newFlag was now 16 else none
  let sat := if en.toNat.testBit 1 then newFlag was now 24 else none
  match ovf, sat with
  | some n, some m => some (if n ≤ m then n * 256 + 7 else 2048 + m * 256 + 7)
  | some n, none => some (n * 256 + 7)
  | none, some m => some (2048 + m * 256 + 7)
  | none, none => if en.toNat.testBit 2 && !was.toNat.testBit 3 && now.toNat.testBit 3 then some 8 else none

/-- After an instruction completed: a flag that changed raises its trap, or holds it pending in a handler.
(Model: DESIGN CHOICE, log 111) -/
def Pod.flagTrap (p : Pod) (was : W64) : Pod := match flagCause p.trapen was p.pstat with
  | none => p
  | some f =>
    if p.inHandler then { p with pendFlag := some (p.pendFlag.getD (BitVec.ofNat 64 f)) }
    else p.enterTrap (f % 256) (f / 256 * 256) p.pc 0 p.espDefault

/-! ## Jumps (R66, R67) -/

/-- The levels that stay open after a taken branch from `pc` to `t`, innermost first: a level whose body does not hold the
target ends; one whose body ends at the branch completes an iteration. -/
def jumpLevels (pc t : BitVec 16) : List RepLevel → List RepLevel
  | [] => []
  | l :: rest =>
    if t < l.first || l.last < t then jumpLevels pc t rest
    else if l.last = pc then if l.cnt ≤ 1 then jumpLevels pc t rest else { l with cnt := l.cnt - 1 } :: rest
    else l :: rest

/-- Control goes to a target. -/
def Pod.jump (p : Pod) (t : BitVec 16) : Pod :=
  { p with pc := t, levels := (jumpLevels p.pc t p.levels.reverse).reverse }

/-! ## Issue -/

/-- Whether an outstanding fabric load still owes a register. (Model: DESIGN CHOICE, log 6) -/
def Pod.owes (p : Pod) : PReg → Bool
  | .s n => n != 0 && p.loads.any fun l => l.kind != .vec && l.rt == n
  | .v n => p.loads.any fun l => (l.kind == .vec && l.rt == n) || l.keep.any fun k => k.1 == n

/-- The address of a pod's instruction in the global map. -/
def Pod.fetchAddr (p : Pod) (n : Nat) : Nat := podWin n + 0x40000 + p.pc.toNat
/-- The own instruction-memory address as the pod sees it: what EADDR shows. -/
def Pod.ownPc (p : Pod) : Nat := p.pc.toNat

/-- A synchronous trap of a pod. -/
def Chip.podTrap (c : Chip) (n cause addr : Nat) : Chip := c.modPod n fun p => p.syncTrap cause addr

/-- A fetch that cannot be corrected: trap 3, or a double trap on a vector line (R72).
(Model: DESIGN CHOICE, log 5; DESIGN CHOICE, log 102) -/
def Chip.fetchTrap (c : Chip) (n : Nat) : Chip := c.modPod n fun p =>
  if p.pc.toNat < 0x240 then { p with state := .doubleTrap, accept := 0, lastCause := 3 } else p.syncTrap 3 p.ownPc

/-- An instruction of pod `n` issues: its line is fetched, `legal` tells whether its word is a legal instruction as it
stands, and it waits for the registers it uses. (Model: DESIGN CHOICE, log 5) -/
def Chip.issueWith (c : Chip) (n : Nat) (fetch : LineCheck) (legal : Bool) (uses : List PReg) (body : Chip → Pod → Eff) : Chip :=
  let p := c.pod n
  match c.checkLine 1 n (p.fetchAddr n) fetch with
  | (c, .wait) => c
  | (c, .bad) => c.fetchTrap n
  | (c, .ok) =>
    if !legal then c.podTrap n 1 p.ownPc
    else if uses.any p.owes then c
    else match body c p with
      | .stall d => d
      | .trap d cause addr => d.podTrap n cause addr
      | .done d => d.modPod n fun q => q.retire.flagTrap p.pstat
      | .jump d => d

/-- Whether a pod issues instructions. (Model: DESIGN CHOICE, log 5; DESIGN CHOICE, log 6) -/
def Pod.issues (p : Pod) : Bool := p.state == .running || p.state == .handler

/-- The command that a pod issues an instruction: nothing happens in a pod that issues none. While a joiner replays, pods
work in the replayed tick. (Model: DESIGN CHOICE, log 5) -/
def Chip.issue (c : Chip) (n : Nat) (legal : Bool) (uses : List PReg) (body : Chip → Pod → Eff) : Chip :=
  if (c.pod n).issues then c.inWork fun c => c.issueWith n .pass legal uses body else c

/-- Completes with a change of the issuing pod alone. -/
def Eff.pod (c : Chip) (n : Nat) (f : Pod → Pod) : Eff := .done (c.modPod n f)

/-! ## Register and flag writes -/

def Pod.vset (p : Pod) (r : Nat) (v : W128) : Pod := { p with vreg := tabPut (fun _ => 0) p.vreg r v }
def Pod.accGet (p : Pod) (n : Nat) : W80 := tabGet (fun _ => 0) p.acc n
def Pod.accSet (p : Pod) (n : Nat) (v : W80) : Pod := { p with acc := tabPut (fun _ => 0) p.acc n v }
/-- Sets PSTAT bit `i` when `b` holds. -/
def Pod.flag (p : Pod) (i : Nat) (b : Bool) : Pod := if b then { p with pstat := p.pstat ||| BitVec.ofNat 64 (2 ^ i) } else p
def Pod.isat (p : Pod) (b : Bool) : Pod := p.flag 4 b
def Pod.finv (p : Pod) (b : Bool) : Pod := p.flag 3 b

/-! ## Narrowing (R48) -/

/-- An exact result in `w` bits: wrapped with S clear, clamped to the signed range with S set; the Bool says that a clamp
changed it. -/
def narrowS (sat : Bool) (w : Nat) (i : Int) : Nat × Bool :=
  let j := if sat then clampI (-(2 ^ (w - 1) : Int)) (2 ^ (w - 1) - 1) i else i
  (wrapN w j, j != i)
/-- The same with the unsigned range. -/
def narrowU (sat : Bool) (w : Nat) (i : Int) : Nat × Bool :=
  let j := if sat then clampI 0 (2 ^ w - 1) i else i
  (wrapN w j, j != i)

end Sys2Proof.Machine
end

