-- ==== Sys2Proof/Machine/PodVector.lean ====
section
/-!
DEFINITION. The vector integer and fixed-point instructions (R42, R43, R86, R87).
-/
namespace Sys2Proof.Machine

/-! ## Lanes (R42, R43) -/

/-- Element width of the W field: 16, 32 or 64 bits. -/
def laneWidth (w : Nat) : Nat := 16 * 2 ^ w
/-- Lane `i` of width `w` of a vector. -/
def lane (v : W128) (w i : Nat) : Nat := v.toNat / 2 ^ (w * i) % 2 ^ w
/-- The vector with a lane replaced. -/
def setLane (v : W128) (w i x : Nat) : W128 :=
  BitVec.ofNat 128 (v.toNat - lane v w i * 2 ^ (w * i) + x % 2 ^ w * 2 ^ (w * i))
/-- Whether MASK enables lane `i`: bit q enables bits [32q + 31 : 32q]. -/
def laneOn (mask w i : Nat) : Bool := mask.testBit (w * i / 32)
/-- A mask's halves must agree for 64-bit elements. -/
def maskOk (mask w : Nat) : Bool :=
  w != 64 || (mask.testBit 0 == mask.testBit 1 && mask.testBit 2 == mask.testBit 3)
/-- The enabled lanes of `old` replaced by what `f` gives, and whether one of them raised its flag. -/
def mapLanes (old : W128) (mask w : Nat) (f : Nat → Nat × Bool) : W128 × Bool :=
  (List.range (128 / w)).foldl (fun (r : W128 × Bool) i =>
    if laneOn mask w i then let x := f i; (setLane r.1 w i x.1, r.2 || x.2) else r) (old, false)

/-- A lane-wise instruction: `satOk` when S has a meaning, `w32` when W must be 0b01; `f w a b` works on raw lanes. -/
def Chip.vectorR (c : Chip) (n : Nat) (sat : Bool) (rd ra rb wf mask : Nat) (satOk w32 : Bool)
    (f : Nat → Nat → Nat → Nat × Bool) : Chip :=
  let w := laneWidth wf
  c.issue n (wf != 3 && (!w32 || wf == 1) && (satOk || !sat) && maskOk mask w) [.v rd, .v ra, .v rb] fun c p =>
    let r := mapLanes (p.vget rd) mask w fun i => f w (lane (p.vget ra) w i) (lane (p.vget rb) w i)
    Eff.pod c n fun p => (p.vset rd r.1).isat r.2

/-- A lane result that raises no flag. -/
def plainLane (x : Nat) : Nat × Bool := (x, false)
/-- All ones or zero. -/
def onesLane (w : Nat) (b : Bool) : Nat × Bool := (if b then 2 ^ w - 1 else 0, false)

/-! ## Major 0x1 (R86, R87) -/

/-- VADD: a + b; S clamps signed. -/
def Chip.iVadd (c : Chip) (n : Nat) (sat : Bool) (rd ra rb wf mask : Nat) : Chip :=
  c.vectorR n sat rd ra rb wf mask true false fun w a b => narrowS sat w (signed w a + signed w b)
/-- VADDU: a + b; S clamps unsigned. -/
def Chip.iVaddu (c : Chip) (n : Nat) (sat : Bool) (rd ra rb wf mask : Nat) : Chip :=
  c.vectorR n sat rd ra rb wf mask true false fun w a b => narrowU sat w ((a : Int) + b)
/-- VSUB: a − b; S clamps signed. -/
def Chip.iVsub (c : Chip) (n : Nat) (sat : Bool) (rd ra rb wf mask : Nat) : Chip :=
  c.vectorR n sat rd ra rb wf mask true false fun w a b => narrowS sat w (signed w a - signed w b)
/-- VSUBU: a − b; S clamps at 0. -/
def Chip.iVsubu (c : Chip) (n : Nat) (sat : Bool) (rd ra rb wf mask : Nat) : Chip :=
  c.vectorR n sat rd ra rb wf mask true false fun w a b => narrowU sat w ((a : Int) - b)
/-- VMUL: the low bits of a × b; S clamps the signed product. -/
def Chip.iVmul (c : Chip) (n : Nat) (sat : Bool) (rd ra rb wf mask : Nat) : Chip :=
  c.vectorR n sat rd ra rb wf mask true false fun w a b => narrowS sat w (signed w a * signed w b)
/-- VMULQ: the fixed-point product; S clamps. -/
def Chip.iVmulq (c : Chip) (n : Nat) (sat : Bool) (rd ra rb wf mask : Nat) : Chip :=
  c.vectorR n sat rd ra rb wf mask true false fun w a b => narrowS sat w (shrI (signed w a * signed w b) (w - 1))
/-- VAND: bitwise AND. -/
def Chip.iVand (c : Chip) (n : Nat) (sat : Bool) (rd ra rb wf mask : Nat) : Chip :=
  c.vectorR n sat rd ra rb wf mask false true fun _ a b => plainLane (a &&& b)
/-- VOR: bitwise OR. -/
def Chip.iVor (c : Chip) (n : Nat) (sat : Bool) (rd ra rb wf mask : Nat) : Chip :=
  c.vectorR n sat rd ra rb wf mask false true fun _ a b => plainLane (a ||| b)
/-- VXOR: bitwise XOR. -/
def Chip.iVxor (c : Chip) (n : Nat) (sat : Bool) (rd ra rb wf mask : Nat) : Chip :=
  c.vectorR n sat rd ra rb wf mask false true fun _ a b => plainLane (a ^^^ b)
/-- VSLL: left shift by the low bits of b; S clamps. -/
def Chip.iVsll (c : Chip) (n : Nat) (sat : Bool) (rd ra rb wf mask : Nat) : Chip :=
  c.vectorR n sat rd ra rb wf mask true false fun w a b => narrowS sat w (signed w a * 2 ^ (b % w))
/-- VSRL: logical right shift. -/
def Chip.iVsrl (c : Chip) (n : Nat) (sat : Bool) (rd ra rb wf mask : Nat) : Chip :=
  c.vectorR n sat rd ra rb wf mask false false fun w a b => plainLane (a / 2 ^ (b % w))
/-- VSRA: arithmetic right shift. -/
def Chip.iVsra (c : Chip) (n : Nat) (sat : Bool) (rd ra rb wf mask : Nat) : Chip :=
  c.vectorR n sat rd ra rb wf mask false false fun w a b => plainLane (wrapN w (shrI (signed w a) (b % w)))
/-- VMIN: signed minimum. -/
def Chip.iVmin (c : Chip) (n : Nat) (sat : Bool) (rd ra rb wf mask : Nat) : Chip :=
  c.vectorR n sat rd ra rb wf mask false false fun w a b => plainLane (if signed w a ≤ signed w b then a else b)
/-- VMAX: signed maximum. -/
def Chip.iVmax (c : Chip) (n : Nat) (sat : Bool) (rd ra rb wf mask : Nat) : Chip :=
  c.vectorR n sat rd ra rb wf mask false false fun w a b => plainLane (if signed w a ≤ signed w b then b else a)
/-- VCMPEQ: all ones where a = b. -/
def Chip.iVcmpeq (c : Chip) (n : Nat) (sat : Bool) (rd ra rb wf mask : Nat) : Chip :=
  c.vectorR n sat rd ra rb wf mask false false fun w a b => onesLane w (a == b)
/-- VCMPLT: all ones where a < b signed. -/
def Chip.iVcmplt (c : Chip) (n : Nat) (sat : Bool) (rd ra rb wf mask : Nat) : Chip :=
  c.vectorR n sat rd ra rb wf mask false false fun w a b => onesLane w (decide (signed w a < signed w b))
/-- VSPLAT: every enabled lane takes the low bits of a scalar. -/
def Chip.iVsplat (c : Chip) (n : Nat) (sat : Bool) (rd ra rb wf mask : Nat) : Chip :=
  let w := laneWidth wf
  c.issue n (wf != 3 && !sat && rb == 0 && maskOk mask w) [.v rd, .s ra] fun c p =>
    let r := mapLanes (p.vget rd) mask w fun _ => plainLane ((p.sget ra).toNat % 2 ^ w)
    Eff.pod c n fun p => p.vset rd r.1
/-- VEXT: a scalar takes lane k, sign-extended; RB holds k. -/
def Chip.iVext (c : Chip) (n : Nat) (sat : Bool) (rd ra rb wf mask : Nat) : Chip :=
  let w := laneWidth wf
  c.issue n (wf != 3 && !sat && mask == 0 && decide (rb < 128 / w)) [.s rd, .v ra] fun c p =>
    Eff.pod c n fun q => q.sset rd (BitVec.ofInt 64 (signed w (lane (p.vget ra) w rb)))
/-- VINS: lane k takes the low bits of a scalar; RB holds k. -/
def Chip.iVins (c : Chip) (n : Nat) (sat : Bool) (rd ra rb wf mask : Nat) : Chip :=
  let w := laneWidth wf
  c.issue n (wf != 3 && !sat && mask == 0 && decide (rb < 128 / w)) [.v rd, .s ra] fun c p =>
    Eff.pod c n fun q => q.vset rd (setLane (p.vget rd) w rb (p.sget ra).toNat)
/-- VSEL: each bit of va where vd has a one, else of vb. -/
def Chip.iVsel (c : Chip) (n : Nat) (sat : Bool) (rd ra rb wf mask : Nat) : Chip :=
  c.issue n (wf == 1 && !sat) [.v rd, .v ra, .v rb] fun c p =>
    let d := p.vget rd
    let x := (p.vget ra &&& d) ||| (p.vget rb &&& ~~~ d)
    let r := mapLanes d mask 32 fun i => plainLane (lane x 32 i)
    Eff.pod c n fun p => p.vset rd r.1

/-! ## The commands -/

/-- VADD (see `Chip.iVadd`). -/
def execVadd (p : Fin 32) (sat : Bool) (rd ra rb : BitVec 5) (w : BitVec 2) (mask : BitVec 4) (s : State) : Out :=
  s.onChip (s.chip.iVadd p.val sat rd.toNat ra.toNat rb.toNat w.toNat mask.toNat)
/-- VADDU (see `Chip.iVaddu`). -/
def execVaddu (p : Fin 32) (sat : Bool) (rd ra rb : BitVec 5) (w : BitVec 2) (mask : BitVec 4) (s : State) : Out :=
  s.onChip (s.chip.iVaddu p.val sat rd.toNat ra.toNat rb.toNat w.toNat mask.toNat)
/-- VSUB (see `Chip.iVsub`). -/
def execVsub (p : Fin 32) (sat : Bool) (rd ra rb : BitVec 5) (w : BitVec 2) (mask : BitVec 4) (s : State) : Out :=
  s.onChip (s.chip.iVsub p.val sat rd.toNat ra.toNat rb.toNat w.toNat mask.toNat)
/-- VSUBU (see `Chip.iVsubu`). -/
def execVsubu (p : Fin 32) (sat : Bool) (rd ra rb : BitVec 5) (w : BitVec 2) (mask : BitVec 4) (s : State) : Out :=
  s.onChip (s.chip.iVsubu p.val sat rd.toNat ra.toNat rb.toNat w.toNat mask.toNat)
/-- VMUL (see `Chip.iVmul`). -/
def execVmul (p : Fin 32) (sat : Bool) (rd ra rb : BitVec 5) (w : BitVec 2) (mask : BitVec 4) (s : State) : Out :=
  s.onChip (s.chip.iVmul p.val sat rd.toNat ra.toNat rb.toNat w.toNat mask.toNat)
/-- VMULQ (see `Chip.iVmulq`). -/
def execVmulq (p : Fin 32) (sat : Bool) (rd ra rb : BitVec 5) (w : BitVec 2) (mask : BitVec 4) (s : State) : Out :=
  s.onChip (s.chip.iVmulq p.val sat rd.toNat ra.toNat rb.toNat w.toNat mask.toNat)
/-- VAND (see `Chip.iVand`). -/
def execVand (p : Fin 32) (sat : Bool) (rd ra rb : BitVec 5) (w : BitVec 2) (mask : BitVec 4) (s : State) : Out :=
  s.onChip (s.chip.iVand p.val sat rd.toNat ra.toNat rb.toNat w.toNat mask.toNat)
/-- VOR (see `Chip.iVor`). -/
def execVor (p : Fin 32) (sat : Bool) (rd ra rb : BitVec 5) (w : BitVec 2) (mask : BitVec 4) (s : State) : Out :=
  s.onChip (s.chip.iVor p.val sat rd.toNat ra.toNat rb.toNat w.toNat mask.toNat)
/-- VXOR (see `Chip.iVxor`). -/
def execVxor (p : Fin 32) (sat : Bool) (rd ra rb : BitVec 5) (w : BitVec 2) (mask : BitVec 4) (s : State) : Out :=
  s.onChip (s.chip.iVxor p.val sat rd.toNat ra.toNat rb.toNat w.toNat mask.toNat)
/-- VSLL (see `Chip.iVsll`). -/
def execVsll (p : Fin 32) (sat : Bool) (rd ra rb : BitVec 5) (w : BitVec 2) (mask : BitVec 4) (s : State) : Out :=
  s.onChip (s.chip.iVsll p.val sat rd.toNat ra.toNat rb.toNat w.toNat mask.toNat)
/-- VSRL (see `Chip.iVsrl`). -/
def execVsrl (p : Fin 32) (sat : Bool) (rd ra rb : BitVec 5) (w : BitVec 2) (mask : BitVec 4) (s : State) : Out :=
  s.onChip (s.chip.iVsrl p.val sat rd.toNat ra.toNat rb.toNat w.toNat mask.toNat)
/-- VSRA (see `Chip.iVsra`). -/
def execVsra (p : Fin 32) (sat : Bool) (rd ra rb : BitVec 5) (w : BitVec 2) (mask : BitVec 4) (s : State) : Out :=
  s.onChip (s.chip.iVsra p.val sat rd.toNat ra.toNat rb.toNat w.toNat mask.toNat)
/-- VMIN (see `Chip.iVmin`). -/
def execVmin (p : Fin 32) (sat : Bool) (rd ra rb : BitVec 5) (w : BitVec 2) (mask : BitVec 4) (s : State) : Out :=
  s.onChip (s.chip.iVmin p.val sat rd.toNat ra.toNat rb.toNat w.toNat mask.toNat)
/-- VMAX (see `Chip.iVmax`). -/
def execVmax (p : Fin 32) (sat : Bool) (rd ra rb : BitVec 5) (w : BitVec 2) (mask : BitVec 4) (s : State) : Out :=
  s.onChip (s.chip.iVmax p.val sat rd.toNat ra.toNat rb.toNat w.toNat mask.toNat)
/-- VCMPEQ (see `Chip.iVcmpeq`). -/
def execVcmpeq (p : Fin 32) (sat : Bool) (rd ra rb : BitVec 5) (w : BitVec 2) (mask : BitVec 4) (s : State) : Out :=
  s.onChip (s.chip.iVcmpeq p.val sat rd.toNat ra.toNat rb.toNat w.toNat mask.toNat)
/-- VCMPLT (see `Chip.iVcmplt`). -/
def execVcmplt (p : Fin 32) (sat : Bool) (rd ra rb : BitVec 5) (w : BitVec 2) (mask : BitVec 4) (s : State) : Out :=
  s.onChip (s.chip.iVcmplt p.val sat rd.toNat ra.toNat rb.toNat w.toNat mask.toNat)
/-- VSPLAT (see `Chip.iVsplat`). -/
def execVsplat (p : Fin 32) (sat : Bool) (rd ra rb : BitVec 5) (w : BitVec 2) (mask : BitVec 4) (s : State) : Out :=
  s.onChip (s.chip.iVsplat p.val sat rd.toNat ra.toNat rb.toNat w.toNat mask.toNat)
/-- VEXT (see `Chip.iVext`). -/
def execVext (p : Fin 32) (sat : Bool) (rd ra rb : BitVec 5) (w : BitVec 2) (mask : BitVec 4) (s : State) : Out :=
  s.onChip (s.chip.iVext p.val sat rd.toNat ra.toNat rb.toNat w.toNat mask.toNat)
/-- VINS (see `Chip.iVins`). -/
def execVins (p : Fin 32) (sat : Bool) (rd ra rb : BitVec 5) (w : BitVec 2) (mask : BitVec 4) (s : State) : Out :=
  s.onChip (s.chip.iVins p.val sat rd.toNat ra.toNat rb.toNat w.toNat mask.toNat)
/-- VSEL (see `Chip.iVsel`). -/
def execVsel (p : Fin 32) (sat : Bool) (rd ra rb : BitVec 5) (w : BitVec 2) (mask : BitVec 4) (s : State) : Out :=
  s.onChip (s.chip.iVsel p.val sat rd.toNat ra.toNat rb.toNat w.toNat mask.toNat)

end Sys2Proof.Machine
end

