-- ==== Sys2Proof/Machine/PodAcc.lean ====
section
/-!
DEFINITION. The accumulator instructions (R49 to R51, R92, R93).
-/
namespace Sys2Proof.Machine

/-- One addition into an accumulator (R50): the new value, and the flag bit of PSTAT it sets, if any. -/
def accStep (sat : Bool) (n : Nat) (a : W80) (x : Int) : W80 × Option Nat :=
  let r := a.toInt + x
  let j := clampI (-(2 ^ 79 : Int)) (2 ^ 79 - 1) r
  if j = r then (BitVec.ofInt 80 r, none)
  else if sat then (BitVec.ofInt 80 j, some (24 + n)) else (BitVec.ofInt 80 r, some (16 + n))
/-- A step into accumulator `n` of a pod. -/
def Pod.accAdd (p : Pod) (sat : Bool) (n : Nat) (x : Int) : Pod :=
  let r := accStep sat n (p.accGet n) x
  let p := p.accSet n r.1
  match r.2 with
  | some b => p.flag b true
  | none => p
/-- The product of 32-bit signed lanes `i`. -/
def laneProd (a b : W128) (i : Nat) : Int := signed 32 (lane a 32 i) * signed 32 (lane b 32 i)

/-- Two products into one accumulator, the lower lane first; `neg` subtracts. -/
def Chip.mac2 (c : Chip) (n : Nat) (sat : Bool) (rd ra rb mask lo : Nat) (neg : Bool) : Chip :=
  c.issue n (decide (rd < 8) && mask == 0) [.v ra, .v rb] fun c p =>
    let x := fun i => if neg then -laneProd (p.vget ra) (p.vget rb) i else laneProd (p.vget ra) (p.vget rb) i
    Eff.pod c n fun p => (p.accAdd sat rd (x lo)).accAdd sat rd (x (lo + 1))

/-! ## Major 0x3 (R92) -/

/-- MAC2L: adds the products of lanes 0 and 1. -/
def Chip.iMac2l (c : Chip) (n : Nat) (sat : Bool) (rd ra rb mask : Nat) : Chip := c.mac2 n sat rd ra rb mask 0 false
/-- MAC2H: adds the products of lanes 2 and 3. -/
def Chip.iMac2h (c : Chip) (n : Nat) (sat : Bool) (rd ra rb mask : Nat) : Chip := c.mac2 n sat rd ra rb mask 2 false
/-- MSU2L: subtracts the products of lanes 0 and 1. -/
def Chip.iMsu2l (c : Chip) (n : Nat) (sat : Bool) (rd ra rb mask : Nat) : Chip := c.mac2 n sat rd ra rb mask 0 true
/-- MSU2H: subtracts the products of lanes 2 and 3. -/
def Chip.iMsu2h (c : Chip) (n : Nat) (sat : Bool) (rd ra rb mask : Nat) : Chip := c.mac2 n sat rd ra rb mask 2 true
/-- MACP: the product of lanes 0 into an even accumulator, of lanes 2 into the next. -/
def Chip.iMacp (c : Chip) (n : Nat) (sat : Bool) (rd ra rb mask : Nat) : Chip :=
  c.issue n (decide (rd < 8) && rd % 2 == 0 && mask == 0) [.v ra, .v rb] fun c p =>
    let x := laneProd (p.vget ra) (p.vget rb)
    Eff.pod c n fun p => (p.accAdd sat rd (x 0)).accAdd sat (rd + 1) (x 2)
/-- ACLR: an accumulator becomes 0. -/
def Chip.iAclr (c : Chip) (n : Nat) (sat : Bool) (rd ra rb mask : Nat) : Chip :=
  c.issue n (decide (rd < 8) && !sat && ra == 0 && rb == 0 && mask == 0) [] fun c _ => Eff.pod c n fun p => p.accSet rd 0
/-- ALOAD: a scalar, sign-extended. -/
def Chip.iAload (c : Chip) (n : Nat) (sat : Bool) (rd ra rb mask : Nat) : Chip :=
  c.issue n (decide (rd < 8) && !sat && rb == 0 && mask == 0) [.s ra] fun c p =>
    Eff.pod c n fun q => q.accSet rd (BitVec.ofInt 80 (p.sget ra).toInt)
/-- AREAD: the accumulator shifted right, its body or with S clamped to 64 bits (R51, R93). -/
def Chip.iAread (c : Chip) (n : Nat) (sat : Bool) (rd ra rb mask : Nat) : Chip :=
  c.issue n (decide (ra < 8) && mask == 0) [.s rd] fun c p =>
    let r := narrowS sat 64 (shrI (p.accGet ra).toInt rb)
    Eff.pod c n fun p => (p.sset rd (BitVec.ofNat 64 r.1)).isat r.2
/-- AADD: one accumulator added into another, one step. -/
def Chip.iAadd (c : Chip) (n : Nat) (sat : Bool) (rd ra rb mask : Nat) : Chip :=
  c.issue n (decide (rd < 8) && decide (ra < 8) && rb == 0 && mask == 0) [] fun c p =>
    Eff.pod c n fun q => q.accAdd sat rd (p.accGet ra).toInt
/-- AGRD: the guard bits, sign-extended. -/
def Chip.iAgrd (c : Chip) (n : Nat) (sat : Bool) (rd ra rb mask : Nat) : Chip :=
  c.issue n (decide (ra < 8) && !sat && rb == 0 && mask == 0) [.s rd] fun c p =>
    Eff.pod c n fun q => q.sset rd (BitVec.ofInt 64 (signed 16 ((p.accGet ra).toNat / 2 ^ 64)))
/-- ASETH: the guard bits from a scalar; the body stays. -/
def Chip.iAseth (c : Chip) (n : Nat) (sat : Bool) (rd ra rb mask : Nat) : Chip :=
  c.issue n (decide (rd < 8) && !sat && rb == 0 && mask == 0) [.s ra] fun c p =>
    Eff.pod c n fun q => q.accSet rd
      (BitVec.ofNat 80 ((p.sget ra).toNat % 2 ^ 16 * 2 ^ 64 + (p.accGet rd).toNat % 2 ^ 64))

/-! ## The commands -/

/-- MAC2L (see `Chip.iMac2l`). -/
def execMac2l (p : Fin 32) (sat : Bool) (rd ra rb : BitVec 5) (mask : BitVec 4) (s : State) : Out :=
  s.onChip (s.chip.iMac2l p.val sat rd.toNat ra.toNat rb.toNat mask.toNat)
/-- MAC2H (see `Chip.iMac2h`). -/
def execMac2h (p : Fin 32) (sat : Bool) (rd ra rb : BitVec 5) (mask : BitVec 4) (s : State) : Out :=
  s.onChip (s.chip.iMac2h p.val sat rd.toNat ra.toNat rb.toNat mask.toNat)
/-- MSU2L (see `Chip.iMsu2l`). -/
def execMsu2l (p : Fin 32) (sat : Bool) (rd ra rb : BitVec 5) (mask : BitVec 4) (s : State) : Out :=
  s.onChip (s.chip.iMsu2l p.val sat rd.toNat ra.toNat rb.toNat mask.toNat)
/-- MSU2H (see `Chip.iMsu2h`). -/
def execMsu2h (p : Fin 32) (sat : Bool) (rd ra rb : BitVec 5) (mask : BitVec 4) (s : State) : Out :=
  s.onChip (s.chip.iMsu2h p.val sat rd.toNat ra.toNat rb.toNat mask.toNat)
/-- MACP (see `Chip.iMacp`). -/
def execMacp (p : Fin 32) (sat : Bool) (rd ra rb : BitVec 5) (mask : BitVec 4) (s : State) : Out :=
  s.onChip (s.chip.iMacp p.val sat rd.toNat ra.toNat rb.toNat mask.toNat)
/-- ACLR (see `Chip.iAclr`). -/
def execAclr (p : Fin 32) (sat : Bool) (rd ra rb : BitVec 5) (mask : BitVec 4) (s : State) : Out :=
  s.onChip (s.chip.iAclr p.val sat rd.toNat ra.toNat rb.toNat mask.toNat)
/-- ALOAD (see `Chip.iAload`). -/
def execAload (p : Fin 32) (sat : Bool) (rd ra rb : BitVec 5) (mask : BitVec 4) (s : State) : Out :=
  s.onChip (s.chip.iAload p.val sat rd.toNat ra.toNat rb.toNat mask.toNat)
/-- AREAD (see `Chip.iAread`). -/
def execAread (p : Fin 32) (sat : Bool) (rd ra rb : BitVec 5) (mask : BitVec 4) (s : State) : Out :=
  s.onChip (s.chip.iAread p.val sat rd.toNat ra.toNat rb.toNat mask.toNat)
/-- AADD (see `Chip.iAadd`). -/
def execAadd (p : Fin 32) (sat : Bool) (rd ra rb : BitVec 5) (mask : BitVec 4) (s : State) : Out :=
  s.onChip (s.chip.iAadd p.val sat rd.toNat ra.toNat rb.toNat mask.toNat)
/-- AGRD (see `Chip.iAgrd`). -/
def execAgrd (p : Fin 32) (sat : Bool) (rd ra rb : BitVec 5) (mask : BitVec 4) (s : State) : Out :=
  s.onChip (s.chip.iAgrd p.val sat rd.toNat ra.toNat rb.toNat mask.toNat)
/-- ASETH (see `Chip.iAseth`). -/
def execAseth (p : Fin 32) (sat : Bool) (rd ra rb : BitVec 5) (mask : BitVec 4) (s : State) : Out :=
  s.onChip (s.chip.iAseth p.val sat rd.toNat ra.toNat rb.toNat mask.toNat)

end Sys2Proof.Machine
end

