-- ==== Sys2Proof/Machine/PodFloat.lean ====
section
/-!
DEFINITION. The vector f32 instructions (R43 to R47, R88 to R91).
-/
namespace Sys2Proof.Machine

/-- Lane `i` of a vector as an f32 word. -/
def flane (v : W128) (i : Nat) : W32 := BitVec.ofNat 32 (lane v 32 i)

/-- The enabled f32 lanes replaced: each lane gives its word, whether FINV and whether ISAT is raised. -/
def mapF (old : W128) (mask : Nat) (f : Nat → W32 × Bool × Bool) : W128 × Bool × Bool :=
  (List.range 4).foldl (fun (r : W128 × Bool × Bool) i =>
    if laneOn mask 32 i then let x := f i; (setLane r.1 32 i x.1.toNat, r.2.1 || x.2.1, r.2.2 || x.2.2) else r) (old, false, false)

/-- An f32 instruction: `satOk` when S has a meaning; RB names a vector where `two` holds, else `rbOk` says whether the field is
legal; `f` is given the three vectors and the lane. -/
def Chip.floatR (c : Chip) (n : Nat) (sat : Bool) (rd ra rb mask : Nat) (satOk two rbOk : Bool)
    (f : W128 → W128 → W128 → Nat → W32 × Bool × Bool) : Chip :=
  c.issue n ((satOk || !sat) && (two || rbOk)) ([.v rd, .v ra] ++ if two then [.v rb] else []) fun c p =>
    let r := mapF (p.vget rd) mask (f (p.vget rd) (p.vget ra) (p.vget rb))
    Eff.pod c n fun p => ((p.vset rd r.1).finv r.2.1).isat r.2.2

/-- A lane result that may raise FINV only. -/
def onlyInv (x : W32 × Bool) : W32 × Bool × Bool := (x.1, x.2, false)
/-- A lane result that raises nothing. -/
def plainF (x : W32) : W32 × Bool × Bool := (x, false, false)
/-- A two-operand operation lane by lane. -/
def lanes2 (f : W32 → W32 → W32 × Bool) (_d a b : W128) (i : Nat) : W32 × Bool × Bool := onlyInv (f (flane a i) (flane b i))
/-- A compare: all ones or zero. -/
def lanesC (p : Int → Int → Bool) (_d a b : W128) (i : Nat) : W32 × Bool × Bool := onlyInv (fcmp p (flane a i) (flane b i))

/-- The sum of four words in pairs, each step truncated (R47). -/
def sum4 (sat : Bool) (x : Nat → W32) : W32 × Bool :=
  let a := fadd sat (x 0) (x 1)
  let b := fadd sat (x 2) (x 3)
  let s := fadd sat a.1 b.1
  (s.1, a.2 || b.2 || s.2)
/-- The dot product: four truncated products, summed in pairs (R91). -/
def dot4 (sat : Bool) (a b : W128) : W32 × Bool :=
  let q := fun i => fmul sat (flane a i) (flane b i)
  let s := sum4 sat fun i => (q i).1
  (s.1, s.2 || (List.range 4).any fun i => (q i).2)

/-! ## Major 0x2 (R88) -/

/-- FADD: a + b. -/
def Chip.iFadd (c : Chip) (n : Nat) (sat : Bool) (rd ra rb mask : Nat) : Chip :=
  c.floatR n sat rd ra rb mask true true true (lanes2 (fadd sat))
/-- FSUB: a − b. -/
def Chip.iFsub (c : Chip) (n : Nat) (sat : Bool) (rd ra rb mask : Nat) : Chip :=
  c.floatR n sat rd ra rb mask true true true (lanes2 (fsub sat))
/-- FMUL: a × b. -/
def Chip.iFmul (c : Chip) (n : Nat) (sat : Bool) (rd ra rb mask : Nat) : Chip :=
  c.floatR n sat rd ra rb mask true true true (lanes2 (fmul sat))
/-- FDIV: a / b. -/
def Chip.iFdiv (c : Chip) (n : Nat) (sat : Bool) (rd ra rb mask : Nat) : Chip :=
  c.floatR n sat rd ra rb mask true true true (lanes2 (fdiv sat))
/-- FSQRT: the square root of a. (Model: DEDUCED, log 29) -/
def Chip.iFsqrt (c : Chip) (n : Nat) (sat : Bool) (rd ra rb mask : Nat) : Chip :=
  c.floatR n sat rd ra rb mask true false (rb == 0) (fun _ a _ i => onlyInv (fsqrt sat (flane a i)))
/-- FMA: vd + a × b, one truncation. -/
def Chip.iFma (c : Chip) (n : Nat) (sat : Bool) (rd ra rb mask : Nat) : Chip :=
  c.floatR n sat rd ra rb mask true true true (fun d a b i => onlyInv (fma sat (flane d i) (flane a i) (flane b i)))
/-- FMS: vd − a × b, one truncation. -/
def Chip.iFms (c : Chip) (n : Nat) (sat : Bool) (rd ra rb mask : Nat) : Chip :=
  c.floatR n sat rd ra rb mask true true true (fun d a b i => onlyInv (fms sat (flane d i) (flane a i) (flane b i)))
/-- FMIN: minimum. -/
def Chip.iFmin (c : Chip) (n : Nat) (sat : Bool) (rd ra rb mask : Nat) : Chip :=
  c.floatR n sat rd ra rb mask true true true (lanes2 (fmin sat))
/-- FMAX: maximum. -/
def Chip.iFmax (c : Chip) (n : Nat) (sat : Bool) (rd ra rb mask : Nat) : Chip :=
  c.floatR n sat rd ra rb mask true true true (lanes2 (fmax sat))
/-- FABS: sign bit cleared. -/
def Chip.iFabs (c : Chip) (n : Nat) (sat : Bool) (rd ra rb mask : Nat) : Chip :=
  c.floatR n sat rd ra rb mask false false (rb == 0) (fun _ a _ i => plainF (fabs (flane a i)))
/-- FNEG: sign bit inverted. -/
def Chip.iFneg (c : Chip) (n : Nat) (sat : Bool) (rd ra rb mask : Nat) : Chip :=
  c.floatR n sat rd ra rb mask false false (rb == 0) (fun _ a _ i => plainF (fneg (flane a i)))
/-- FCMPEQ: all ones where a = b. -/
def Chip.iFcmpeq (c : Chip) (n : Nat) (sat : Bool) (rd ra rb mask : Nat) : Chip :=
  c.floatR n sat rd ra rb mask false true true (lanesC fun x y => x == y)
/-- FCMPLT: all ones where a < b. -/
def Chip.iFcmplt (c : Chip) (n : Nat) (sat : Bool) (rd ra rb mask : Nat) : Chip :=
  c.floatR n sat rd ra rb mask false true true (lanesC fun x y => decide (x < y))
/-- FCMPLE: all ones where a ≤ b. -/
def Chip.iFcmple (c : Chip) (n : Nat) (sat : Bool) (rd ra rb mask : Nat) : Chip :=
  c.floatR n sat rd ra rb mask false true true (lanesC fun x y => decide (x ≤ y))
/-- FCVTWS: f32 to a signed 32-bit integer. -/
def Chip.iFcvtws (c : Chip) (n : Nat) (sat : Bool) (rd ra rb mask : Nat) : Chip :=
  c.floatR n sat rd ra rb mask true false (rb == 0) (fun _ a _ i => fcvtws sat (flane a i))
/-- FCVTSW: a signed 32-bit integer to f32. -/
def Chip.iFcvtsw (c : Chip) (n : Nat) (sat : Bool) (rd ra rb mask : Nat) : Chip :=
  c.floatR n sat rd ra rb mask false false (rb == 0) (fun _ a _ i => plainF (fcvtsw (flane a i)))
/-- FSUM: the sum of the four lanes of a, in every enabled lane. -/
def Chip.iFsum (c : Chip) (n : Nat) (sat : Bool) (rd ra rb mask : Nat) : Chip :=
  c.floatR n sat rd ra rb mask true false (rb == 0) (fun _ a _ _ => onlyInv (sum4 sat (flane a)))
/-- FDOT: the dot product of a and b, in every enabled lane. -/
def Chip.iFdot (c : Chip) (n : Nat) (sat : Bool) (rd ra rb mask : Nat) : Chip :=
  c.floatR n sat rd ra rb mask true true true (fun _ a b _ => onlyInv (dot4 sat a b))
/-- FSPLAT: lane k of a in every enabled lane; RB holds k. -/
def Chip.iFsplat (c : Chip) (n : Nat) (sat : Bool) (rd ra rb mask : Nat) : Chip :=
  c.floatR n sat rd ra rb mask false false (decide (rb < 4)) (fun _ a _ _ => plainF (flane a rb))

/-! ## The commands -/

/-- FADD (see `Chip.iFadd`). -/
def execFadd (p : Fin 32) (sat : Bool) (rd ra rb : BitVec 5) (mask : BitVec 4) (s : State) : Out :=
  s.onChip (s.chip.iFadd p.val sat rd.toNat ra.toNat rb.toNat mask.toNat)
/-- FSUB (see `Chip.iFsub`). -/
def execFsub (p : Fin 32) (sat : Bool) (rd ra rb : BitVec 5) (mask : BitVec 4) (s : State) : Out :=
  s.onChip (s.chip.iFsub p.val sat rd.toNat ra.toNat rb.toNat mask.toNat)
/-- FMUL (see `Chip.iFmul`). -/
def execFmul (p : Fin 32) (sat : Bool) (rd ra rb : BitVec 5) (mask : BitVec 4) (s : State) : Out :=
  s.onChip (s.chip.iFmul p.val sat rd.toNat ra.toNat rb.toNat mask.toNat)
/-- FDIV (see `Chip.iFdiv`). -/
def execFdiv (p : Fin 32) (sat : Bool) (rd ra rb : BitVec 5) (mask : BitVec 4) (s : State) : Out :=
  s.onChip (s.chip.iFdiv p.val sat rd.toNat ra.toNat rb.toNat mask.toNat)
/-- FSQRT (see `Chip.iFsqrt`). -/
def execFsqrt (p : Fin 32) (sat : Bool) (rd ra rb : BitVec 5) (mask : BitVec 4) (s : State) : Out :=
  s.onChip (s.chip.iFsqrt p.val sat rd.toNat ra.toNat rb.toNat mask.toNat)
/-- FMA (see `Chip.iFma`). -/
def execFma (p : Fin 32) (sat : Bool) (rd ra rb : BitVec 5) (mask : BitVec 4) (s : State) : Out :=
  s.onChip (s.chip.iFma p.val sat rd.toNat ra.toNat rb.toNat mask.toNat)
/-- FMS (see `Chip.iFms`). -/
def execFms (p : Fin 32) (sat : Bool) (rd ra rb : BitVec 5) (mask : BitVec 4) (s : State) : Out :=
  s.onChip (s.chip.iFms p.val sat rd.toNat ra.toNat rb.toNat mask.toNat)
/-- FMIN (see `Chip.iFmin`). -/
def execFmin (p : Fin 32) (sat : Bool) (rd ra rb : BitVec 5) (mask : BitVec 4) (s : State) : Out :=
  s.onChip (s.chip.iFmin p.val sat rd.toNat ra.toNat rb.toNat mask.toNat)
/-- FMAX (see `Chip.iFmax`). -/
def execFmax (p : Fin 32) (sat : Bool) (rd ra rb : BitVec 5) (mask : BitVec 4) (s : State) : Out :=
  s.onChip (s.chip.iFmax p.val sat rd.toNat ra.toNat rb.toNat mask.toNat)
/-- FABS (see `Chip.iFabs`). -/
def execFabs (p : Fin 32) (sat : Bool) (rd ra rb : BitVec 5) (mask : BitVec 4) (s : State) : Out :=
  s.onChip (s.chip.iFabs p.val sat rd.toNat ra.toNat rb.toNat mask.toNat)
/-- FNEG (see `Chip.iFneg`). -/
def execFneg (p : Fin 32) (sat : Bool) (rd ra rb : BitVec 5) (mask : BitVec 4) (s : State) : Out :=
  s.onChip (s.chip.iFneg p.val sat rd.toNat ra.toNat rb.toNat mask.toNat)
/-- FCMPEQ (see `Chip.iFcmpeq`). -/
def execFcmpeq (p : Fin 32) (sat : Bool) (rd ra rb : BitVec 5) (mask : BitVec 4) (s : State) : Out :=
  s.onChip (s.chip.iFcmpeq p.val sat rd.toNat ra.toNat rb.toNat mask.toNat)
/-- FCMPLT (see `Chip.iFcmplt`). -/
def execFcmplt (p : Fin 32) (sat : Bool) (rd ra rb : BitVec 5) (mask : BitVec 4) (s : State) : Out :=
  s.onChip (s.chip.iFcmplt p.val sat rd.toNat ra.toNat rb.toNat mask.toNat)
/-- FCMPLE (see `Chip.iFcmple`). -/
def execFcmple (p : Fin 32) (sat : Bool) (rd ra rb : BitVec 5) (mask : BitVec 4) (s : State) : Out :=
  s.onChip (s.chip.iFcmple p.val sat rd.toNat ra.toNat rb.toNat mask.toNat)
/-- FCVTWS (see `Chip.iFcvtws`). -/
def execFcvtws (p : Fin 32) (sat : Bool) (rd ra rb : BitVec 5) (mask : BitVec 4) (s : State) : Out :=
  s.onChip (s.chip.iFcvtws p.val sat rd.toNat ra.toNat rb.toNat mask.toNat)
/-- FCVTSW (see `Chip.iFcvtsw`). -/
def execFcvtsw (p : Fin 32) (sat : Bool) (rd ra rb : BitVec 5) (mask : BitVec 4) (s : State) : Out :=
  s.onChip (s.chip.iFcvtsw p.val sat rd.toNat ra.toNat rb.toNat mask.toNat)
/-- FSUM (see `Chip.iFsum`). -/
def execFsum (p : Fin 32) (sat : Bool) (rd ra rb : BitVec 5) (mask : BitVec 4) (s : State) : Out :=
  s.onChip (s.chip.iFsum p.val sat rd.toNat ra.toNat rb.toNat mask.toNat)
/-- FDOT (see `Chip.iFdot`). -/
def execFdot (p : Fin 32) (sat : Bool) (rd ra rb : BitVec 5) (mask : BitVec 4) (s : State) : Out :=
  s.onChip (s.chip.iFdot p.val sat rd.toNat ra.toNat rb.toNat mask.toNat)
/-- FSPLAT (see `Chip.iFsplat`). -/
def execFsplat (p : Fin 32) (sat : Bool) (rd ra rb : BitVec 5) (mask : BitVec 4) (s : State) : Out :=
  s.onChip (s.chip.iFsplat p.val sat rd.toNat ra.toNat rb.toNat mask.toNat)

end Sys2Proof.Machine
end

