-- ==== Sys2Proof/Machine/PodScalar.lean ====
section
/-!
DEFINITION. The scalar integer instructions (R83 to R85).
-/
namespace Sys2Proof.Machine

/-- The signed value of a 64-bit register. -/
def s64 (a : W64) : Int := a.toInt
/-- A truth value as a register value. -/
def flag64 (b : Bool) : W64 := if b then 1 else 0
/-- Leading zeros of a 64-bit value. -/
def clz64 (a : W64) : Nat := if a.toNat = 0 then 64 else 63 - Nat.log2 a.toNat
/-- A clamped result as a register value. -/
def reg64 (x : Nat × Bool) : W64 × Bool := (BitVec.ofNat 64 x.1, x.2)
/-- A result that never clamps. -/
def plain64 (v : W64) : W64 × Bool := (v, false)

/-- A format R scalar instruction (R81, R83): `satOk` when S has a meaning, `rbZero` when RB must be 0; `f` gives the
result and whether a clamp changed it. -/
def Chip.scalarR (c : Chip) (n : Nat) (sat : Bool) (rd ra rb mask : Nat) (satOk rbZero : Bool)
    (f : W64 → W64 → W64 × Bool) : Chip :=
  c.issue n (mask == 0 && (satOk || !sat) && (!rbZero || rb == 0)) [.s rd, .s ra, .s rb] fun c p =>
    let r := f (p.sget ra) (p.sget rb)
    Eff.pod c n fun p => (p.sset rd r.1).isat r.2

/-- A format I instruction (R84): IMM sign-extended; `shift` when IMM[13:6] must be 0. -/
def Chip.scalarI (c : Chip) (n : Nat) (sat : Bool) (rd ra imm : Nat) (satOk shift : Bool) (f : W64 → W64 → W64 × Bool) : Chip :=
  c.issue n ((satOk || !sat) && (!shift || decide (imm < 64))) [.s rd, .s ra] fun c p =>
    let r := f (p.sget ra) (BitVec.ofInt 64 (signed 14 imm))
    Eff.pod c n fun p => (p.sset rd r.1).isat r.2

/-- A left shift as a product (R83). -/
def sllExact (a b : W64) : Int := s64 a * 2 ^ (b.toNat % 64)

/-! ## Major 0x0 (R83) -/

/-- ADD: rd = ra + rb; S clamps signed. -/
def Chip.iAdd (c : Chip) (n : Nat) (sat : Bool) (rd ra rb mask : Nat) : Chip :=
  c.scalarR n sat rd ra rb mask true false fun a b => reg64 (narrowS sat 64 (s64 a + s64 b))
/-- ADDU: rd = ra + rb; S clamps unsigned. -/
def Chip.iAddu (c : Chip) (n : Nat) (sat : Bool) (rd ra rb mask : Nat) : Chip :=
  c.scalarR n sat rd ra rb mask true false fun a b => reg64 (narrowU sat 64 ((a.toNat : Int) + b.toNat))
/-- SUB: rd = ra − rb; S clamps signed. -/
def Chip.iSub (c : Chip) (n : Nat) (sat : Bool) (rd ra rb mask : Nat) : Chip :=
  c.scalarR n sat rd ra rb mask true false fun a b => reg64 (narrowS sat 64 (s64 a - s64 b))
/-- SUBU: rd = ra − rb; S clamps at 0. -/
def Chip.iSubu (c : Chip) (n : Nat) (sat : Bool) (rd ra rb mask : Nat) : Chip :=
  c.scalarR n sat rd ra rb mask true false fun a b => reg64 (narrowU sat 64 ((a.toNat : Int) - b.toNat))
/-- MUL: the low half of the product; S clamps the full signed product. -/
def Chip.iMul (c : Chip) (n : Nat) (sat : Bool) (rd ra rb mask : Nat) : Chip :=
  c.scalarR n sat rd ra rb mask true false fun a b => reg64 (narrowS sat 64 (s64 a * s64 b))
/-- MULH: the high half of the signed product. -/
def Chip.iMulh (c : Chip) (n : Nat) (sat : Bool) (rd ra rb mask : Nat) : Chip :=
  c.scalarR n sat rd ra rb mask false false fun a b => plain64 (BitVec.ofInt 64 (shrI (s64 a * s64 b) 64))
/-- MULHU: the high half of the unsigned product. -/
def Chip.iMulhu (c : Chip) (n : Nat) (sat : Bool) (rd ra rb mask : Nat) : Chip :=
  c.scalarR n sat rd ra rb mask false false fun a b => plain64 (BitVec.ofNat 64 (a.toNat * b.toNat / 2 ^ 64))
/-- AND: ra AND rb. -/
def Chip.iAnd (c : Chip) (n : Nat) (sat : Bool) (rd ra rb mask : Nat) : Chip :=
  c.scalarR n sat rd ra rb mask false false fun a b => plain64 (a &&& b)
/-- OR: ra OR rb. -/
def Chip.iOr (c : Chip) (n : Nat) (sat : Bool) (rd ra rb mask : Nat) : Chip :=
  c.scalarR n sat rd ra rb mask false false fun a b => plain64 (a ||| b)
/-- XOR: ra XOR rb. -/
def Chip.iXor (c : Chip) (n : Nat) (sat : Bool) (rd ra rb mask : Nat) : Chip :=
  c.scalarR n sat rd ra rb mask false false fun a b => plain64 (a ^^^ b)
/-- ANDN: ra AND NOT rb. -/
def Chip.iAndn (c : Chip) (n : Nat) (sat : Bool) (rd ra rb mask : Nat) : Chip :=
  c.scalarR n sat rd ra rb mask false false fun a b => plain64 (a &&& ~~~ b)
/-- SLL: left shift by rb[5:0]; S clamps the exact product. -/
def Chip.iSll (c : Chip) (n : Nat) (sat : Bool) (rd ra rb mask : Nat) : Chip :=
  c.scalarR n sat rd ra rb mask true false fun a b => reg64 (narrowS sat 64 (sllExact a b))
/-- SRL: logical right shift by rb[5:0]. -/
def Chip.iSrl (c : Chip) (n : Nat) (sat : Bool) (rd ra rb mask : Nat) : Chip :=
  c.scalarR n sat rd ra rb mask false false fun a b => plain64 (a >>> (b.toNat % 64))
/-- SRA: arithmetic right shift by rb[5:0]. -/
def Chip.iSra (c : Chip) (n : Nat) (sat : Bool) (rd ra rb mask : Nat) : Chip :=
  c.scalarR n sat rd ra rb mask false false fun a b => plain64 (BitVec.ofInt 64 (shrI (s64 a) (b.toNat % 64)))
/-- SLT: 1 if ra < rb signed. -/
def Chip.iSlt (c : Chip) (n : Nat) (sat : Bool) (rd ra rb mask : Nat) : Chip :=
  c.scalarR n sat rd ra rb mask false false fun a b => plain64 (flag64 (decide (s64 a < s64 b)))
/-- SLTU: 1 if ra < rb unsigned. -/
def Chip.iSltu (c : Chip) (n : Nat) (sat : Bool) (rd ra rb mask : Nat) : Chip :=
  c.scalarR n sat rd ra rb mask false false fun a b => plain64 (flag64 (decide (a.toNat < b.toNat)))
/-- MIN: signed minimum. -/
def Chip.iMin (c : Chip) (n : Nat) (sat : Bool) (rd ra rb mask : Nat) : Chip :=
  c.scalarR n sat rd ra rb mask false false fun a b => plain64 (if s64 a ≤ s64 b then a else b)
/-- MAX: signed maximum. -/
def Chip.iMax (c : Chip) (n : Nat) (sat : Bool) (rd ra rb mask : Nat) : Chip :=
  c.scalarR n sat rd ra rb mask false false fun a b => plain64 (if s64 a ≤ s64 b then b else a)
/-- MINU: unsigned minimum. -/
def Chip.iMinu (c : Chip) (n : Nat) (sat : Bool) (rd ra rb mask : Nat) : Chip :=
  c.scalarR n sat rd ra rb mask false false fun a b => plain64 (if a.toNat ≤ b.toNat then a else b)
/-- MAXU: unsigned maximum. -/
def Chip.iMaxu (c : Chip) (n : Nat) (sat : Bool) (rd ra rb mask : Nat) : Chip :=
  c.scalarR n sat rd ra rb mask false false fun a b => plain64 (if a.toNat ≤ b.toNat then b else a)
/-- CLZ: leading zeros, 0 to 64. -/
def Chip.iClz (c : Chip) (n : Nat) (sat : Bool) (rd ra rb mask : Nat) : Chip :=
  c.scalarR n sat rd ra rb mask false true fun a _ => plain64 (BitVec.ofNat 64 (clz64 a))
/-- SEXTB: ra[7:0] sign-extended. -/
def Chip.iSextb (c : Chip) (n : Nat) (sat : Bool) (rd ra rb mask : Nat) : Chip :=
  c.scalarR n sat rd ra rb mask false true fun a _ => plain64 (BitVec.ofInt 64 (signed 8 a.toNat))
/-- SEXTH: ra[15:0] sign-extended. -/
def Chip.iSexth (c : Chip) (n : Nat) (sat : Bool) (rd ra rb mask : Nat) : Chip :=
  c.scalarR n sat rd ra rb mask false true fun a _ => plain64 (BitVec.ofInt 64 (signed 16 a.toNat))
/-- SEXTW: ra[31:0] sign-extended. -/
def Chip.iSextw (c : Chip) (n : Nat) (sat : Bool) (rd ra rb mask : Nat) : Chip :=
  c.scalarR n sat rd ra rb mask false true fun a _ => plain64 (BitVec.ofInt 64 (signed 32 a.toNat))

/-! ## Majors 0x4 and 0x5 (R84, R85) -/

/-- ADDI: ra + IMM; S clamps signed. -/
def Chip.iAddi (c : Chip) (n : Nat) (sat : Bool) (rd ra imm : Nat) : Chip :=
  c.scalarI n sat rd ra imm true false fun a b => reg64 (narrowS sat 64 (s64 a + s64 b))
/-- ANDI: ra AND IMM. -/
def Chip.iAndi (c : Chip) (n : Nat) (sat : Bool) (rd ra imm : Nat) : Chip :=
  c.scalarI n sat rd ra imm false false fun a b => plain64 (a &&& b)
/-- ORI: ra OR IMM. -/
def Chip.iOri (c : Chip) (n : Nat) (sat : Bool) (rd ra imm : Nat) : Chip :=
  c.scalarI n sat rd ra imm false false fun a b => plain64 (a ||| b)
/-- XORI: ra XOR IMM. -/
def Chip.iXori (c : Chip) (n : Nat) (sat : Bool) (rd ra imm : Nat) : Chip :=
  c.scalarI n sat rd ra imm false false fun a b => plain64 (a ^^^ b)
/-- SLLI: left shift by IMM[5:0]; S clamps the exact product. -/
def Chip.iSlli (c : Chip) (n : Nat) (sat : Bool) (rd ra imm : Nat) : Chip :=
  c.scalarI n sat rd ra imm true true fun a b => reg64 (narrowS sat 64 (sllExact a b))
/-- SRLI: logical right shift by IMM[5:0]. -/
def Chip.iSrli (c : Chip) (n : Nat) (sat : Bool) (rd ra imm : Nat) : Chip :=
  c.scalarI n sat rd ra imm false true fun a b => plain64 (a >>> (b.toNat % 64))
/-- SRAI: arithmetic right shift by IMM[5:0]. -/
def Chip.iSrai (c : Chip) (n : Nat) (sat : Bool) (rd ra imm : Nat) : Chip :=
  c.scalarI n sat rd ra imm false true fun a b => plain64 (BitVec.ofInt 64 (shrI (s64 a) (b.toNat % 64)))
/-- SLTI: 1 if ra < IMM signed. -/
def Chip.iSlti (c : Chip) (n : Nat) (sat : Bool) (rd ra imm : Nat) : Chip :=
  c.scalarI n sat rd ra imm false false fun a b => plain64 (flag64 (decide (s64 a < s64 b)))
/-- MOVW: IMM into a halfword of RD; KEEP keeps the other bits. -/
def Chip.iMovw (c : Chip) (n hw : Nat) (keep : Bool) (rd rsv imm : Nat) : Chip :=
  c.issue n (rsv == 0) [.s rd] fun c p =>
    let old := if keep then (p.sget rd).toNat else 0
    let h := old / 2 ^ (16 * hw) % 2 ^ 16
    Eff.pod c n fun p => p.sset rd (BitVec.ofNat 64 (old - h * 2 ^ (16 * hw) + imm % 2 ^ 16 * 2 ^ (16 * hw)))

/-! ## The commands -/

/-- ADD (see `Chip.iAdd`). -/
def execAdd (p : Fin 32) (sat : Bool) (rd ra rb : BitVec 5) (mask : BitVec 4) (s : State) : Out :=
  s.onChip (s.chip.iAdd p.val sat rd.toNat ra.toNat rb.toNat mask.toNat)
/-- ADDU (see `Chip.iAddu`). -/
def execAddu (p : Fin 32) (sat : Bool) (rd ra rb : BitVec 5) (mask : BitVec 4) (s : State) : Out :=
  s.onChip (s.chip.iAddu p.val sat rd.toNat ra.toNat rb.toNat mask.toNat)
/-- SUB (see `Chip.iSub`). -/
def execSub (p : Fin 32) (sat : Bool) (rd ra rb : BitVec 5) (mask : BitVec 4) (s : State) : Out :=
  s.onChip (s.chip.iSub p.val sat rd.toNat ra.toNat rb.toNat mask.toNat)
/-- SUBU (see `Chip.iSubu`). -/
def execSubu (p : Fin 32) (sat : Bool) (rd ra rb : BitVec 5) (mask : BitVec 4) (s : State) : Out :=
  s.onChip (s.chip.iSubu p.val sat rd.toNat ra.toNat rb.toNat mask.toNat)
/-- MUL (see `Chip.iMul`). -/
def execMul (p : Fin 32) (sat : Bool) (rd ra rb : BitVec 5) (mask : BitVec 4) (s : State) : Out :=
  s.onChip (s.chip.iMul p.val sat rd.toNat ra.toNat rb.toNat mask.toNat)
/-- MULH (see `Chip.iMulh`). -/
def execMulh (p : Fin 32) (sat : Bool) (rd ra rb : BitVec 5) (mask : BitVec 4) (s : State) : Out :=
  s.onChip (s.chip.iMulh p.val sat rd.toNat ra.toNat rb.toNat mask.toNat)
/-- MULHU (see `Chip.iMulhu`). -/
def execMulhu (p : Fin 32) (sat : Bool) (rd ra rb : BitVec 5) (mask : BitVec 4) (s : State) : Out :=
  s.onChip (s.chip.iMulhu p.val sat rd.toNat ra.toNat rb.toNat mask.toNat)
/-- AND (see `Chip.iAnd`). -/
def execAnd (p : Fin 32) (sat : Bool) (rd ra rb : BitVec 5) (mask : BitVec 4) (s : State) : Out :=
  s.onChip (s.chip.iAnd p.val sat rd.toNat ra.toNat rb.toNat mask.toNat)
/-- OR (see `Chip.iOr`). -/
def execOr (p : Fin 32) (sat : Bool) (rd ra rb : BitVec 5) (mask : BitVec 4) (s : State) : Out :=
  s.onChip (s.chip.iOr p.val sat rd.toNat ra.toNat rb.toNat mask.toNat)
/-- XOR (see `Chip.iXor`). -/
def execXor (p : Fin 32) (sat : Bool) (rd ra rb : BitVec 5) (mask : BitVec 4) (s : State) : Out :=
  s.onChip (s.chip.iXor p.val sat rd.toNat ra.toNat rb.toNat mask.toNat)
/-- ANDN (see `Chip.iAndn`). -/
def execAndn (p : Fin 32) (sat : Bool) (rd ra rb : BitVec 5) (mask : BitVec 4) (s : State) : Out :=
  s.onChip (s.chip.iAndn p.val sat rd.toNat ra.toNat rb.toNat mask.toNat)
/-- SLL (see `Chip.iSll`). -/
def execSll (p : Fin 32) (sat : Bool) (rd ra rb : BitVec 5) (mask : BitVec 4) (s : State) : Out :=
  s.onChip (s.chip.iSll p.val sat rd.toNat ra.toNat rb.toNat mask.toNat)
/-- SRL (see `Chip.iSrl`). -/
def execSrl (p : Fin 32) (sat : Bool) (rd ra rb : BitVec 5) (mask : BitVec 4) (s : State) : Out :=
  s.onChip (s.chip.iSrl p.val sat rd.toNat ra.toNat rb.toNat mask.toNat)
/-- SRA (see `Chip.iSra`). -/
def execSra (p : Fin 32) (sat : Bool) (rd ra rb : BitVec 5) (mask : BitVec 4) (s : State) : Out :=
  s.onChip (s.chip.iSra p.val sat rd.toNat ra.toNat rb.toNat mask.toNat)
/-- SLT (see `Chip.iSlt`). -/
def execSlt (p : Fin 32) (sat : Bool) (rd ra rb : BitVec 5) (mask : BitVec 4) (s : State) : Out :=
  s.onChip (s.chip.iSlt p.val sat rd.toNat ra.toNat rb.toNat mask.toNat)
/-- SLTU (see `Chip.iSltu`). -/
def execSltu (p : Fin 32) (sat : Bool) (rd ra rb : BitVec 5) (mask : BitVec 4) (s : State) : Out :=
  s.onChip (s.chip.iSltu p.val sat rd.toNat ra.toNat rb.toNat mask.toNat)
/-- MIN (see `Chip.iMin`). -/
def execMin (p : Fin 32) (sat : Bool) (rd ra rb : BitVec 5) (mask : BitVec 4) (s : State) : Out :=
  s.onChip (s.chip.iMin p.val sat rd.toNat ra.toNat rb.toNat mask.toNat)
/-- MAX (see `Chip.iMax`). -/
def execMax (p : Fin 32) (sat : Bool) (rd ra rb : BitVec 5) (mask : BitVec 4) (s : State) : Out :=
  s.onChip (s.chip.iMax p.val sat rd.toNat ra.toNat rb.toNat mask.toNat)
/-- MINU (see `Chip.iMinu`). -/
def execMinu (p : Fin 32) (sat : Bool) (rd ra rb : BitVec 5) (mask : BitVec 4) (s : State) : Out :=
  s.onChip (s.chip.iMinu p.val sat rd.toNat ra.toNat rb.toNat mask.toNat)
/-- MAXU (see `Chip.iMaxu`). -/
def execMaxu (p : Fin 32) (sat : Bool) (rd ra rb : BitVec 5) (mask : BitVec 4) (s : State) : Out :=
  s.onChip (s.chip.iMaxu p.val sat rd.toNat ra.toNat rb.toNat mask.toNat)
/-- CLZ (see `Chip.iClz`). -/
def execClz (p : Fin 32) (sat : Bool) (rd ra rb : BitVec 5) (mask : BitVec 4) (s : State) : Out :=
  s.onChip (s.chip.iClz p.val sat rd.toNat ra.toNat rb.toNat mask.toNat)
/-- SEXTB (see `Chip.iSextb`). -/
def execSextb (p : Fin 32) (sat : Bool) (rd ra rb : BitVec 5) (mask : BitVec 4) (s : State) : Out :=
  s.onChip (s.chip.iSextb p.val sat rd.toNat ra.toNat rb.toNat mask.toNat)
/-- SEXTH (see `Chip.iSexth`). -/
def execSexth (p : Fin 32) (sat : Bool) (rd ra rb : BitVec 5) (mask : BitVec 4) (s : State) : Out :=
  s.onChip (s.chip.iSexth p.val sat rd.toNat ra.toNat rb.toNat mask.toNat)
/-- SEXTW (see `Chip.iSextw`). -/
def execSextw (p : Fin 32) (sat : Bool) (rd ra rb : BitVec 5) (mask : BitVec 4) (s : State) : Out :=
  s.onChip (s.chip.iSextw p.val sat rd.toNat ra.toNat rb.toNat mask.toNat)
/-- ADDI (see `Chip.iAddi`). -/
def execAddi (p : Fin 32) (sat : Bool) (rd ra : BitVec 5) (imm : BitVec 14) (s : State) : Out :=
  s.onChip (s.chip.iAddi p.val sat rd.toNat ra.toNat imm.toNat)
/-- ANDI (see `Chip.iAndi`). -/
def execAndi (p : Fin 32) (sat : Bool) (rd ra : BitVec 5) (imm : BitVec 14) (s : State) : Out :=
  s.onChip (s.chip.iAndi p.val sat rd.toNat ra.toNat imm.toNat)
/-- ORI (see `Chip.iOri`). -/
def execOri (p : Fin 32) (sat : Bool) (rd ra : BitVec 5) (imm : BitVec 14) (s : State) : Out :=
  s.onChip (s.chip.iOri p.val sat rd.toNat ra.toNat imm.toNat)
/-- XORI (see `Chip.iXori`). -/
def execXori (p : Fin 32) (sat : Bool) (rd ra : BitVec 5) (imm : BitVec 14) (s : State) : Out :=
  s.onChip (s.chip.iXori p.val sat rd.toNat ra.toNat imm.toNat)
/-- SLLI (see `Chip.iSlli`). -/
def execSlli (p : Fin 32) (sat : Bool) (rd ra : BitVec 5) (imm : BitVec 14) (s : State) : Out :=
  s.onChip (s.chip.iSlli p.val sat rd.toNat ra.toNat imm.toNat)
/-- SRLI (see `Chip.iSrli`). -/
def execSrli (p : Fin 32) (sat : Bool) (rd ra : BitVec 5) (imm : BitVec 14) (s : State) : Out :=
  s.onChip (s.chip.iSrli p.val sat rd.toNat ra.toNat imm.toNat)
/-- SRAI (see `Chip.iSrai`). -/
def execSrai (p : Fin 32) (sat : Bool) (rd ra : BitVec 5) (imm : BitVec 14) (s : State) : Out :=
  s.onChip (s.chip.iSrai p.val sat rd.toNat ra.toNat imm.toNat)
/-- SLTI (see `Chip.iSlti`). -/
def execSlti (p : Fin 32) (sat : Bool) (rd ra : BitVec 5) (imm : BitVec 14) (s : State) : Out :=
  s.onChip (s.chip.iSlti p.val sat rd.toNat ra.toNat imm.toNat)
/-- MOVW (see `Chip.iMovw`). -/
def execMovw (p : Fin 32) (hw : BitVec 2) (keep : Bool) (rd : BitVec 5) (rsv : BitVec 4) (imm : BitVec 16) (s : State) : Out :=
  s.onChip (s.chip.iMovw p.val hw.toNat keep rd.toNat rsv.toNat imm.toNat)

end Sys2Proof.Machine
end

