-- ==== Sys2Proof/Machine/PodMem.lean ====
section
/-!
DEFINITION. The loads and stores of the pods (R54 to R63, R94 to R96), and the arrival of what they asked of the fabric
(R58, R60, R106).
-/
namespace Sys2Proof.Machine

/-! ## Address generators (R62, R63, R95) -/

def AddrGen.zero : AddrGen := { base := 0, len := 0, ptr := 0, step := 0 }
def Pod.agGet (p : Pod) (k : Nat) : AddrGen := tabGet (fun _ => AddrGen.zero) p.ag k
def Pod.agSet (p : Pod) (k : Nat) (g : AddrGen) : Pod := { p with ag := tabPut (fun _ => AddrGen.zero) p.ag k g }

/-- BASE plus a byte offset, modulo 2^40 (R95). -/
def AddrGen.at_ (g : AddrGen) (off : Int) : Nat := wrapN 40 ((g.base.toNat : Int) + off)

/-- The pointer after a post-increment access. -/
def AddrGen.stepped (g : AddrGen) : AddrGen :=
  let x := (g.ptr.toNat : Int) + g.step.toInt
  if g.len = 0 then { g with ptr := BitVec.ofInt 24 x }
  else
    let l := (g.len.toNat : Int)
    { g with ptr := BitVec.ofInt 24 (if x < 0 then x + l else if x ≥ l then x - l else x) }

/-- A post-increment access: its address and the generator after it; none where the pointer lies outside a circular
buffer, which is an illegal instruction. -/
def AddrGen.post (g : AddrGen) : Option (Nat × AddrGen) :=
  if g.len != 0 && decide (g.len ≤ g.ptr) then none else some (g.at_ g.ptr.toNat, g.stepped)

/-- The address of an indexed access. -/
def AddrGen.indexed (g : AddrGen) (i : Int) : Nat :=
  let x := (g.ptr.toNat : Int) + i
  g.at_ (if g.len = 0 then x % 2 ^ 24 else x % (g.len.toNat : Int))

/-- The address of an offset access. -/
def AddrGen.offset (g : AddrGen) (off : Int) : Nat :=
  let x := (g.ptr.toNat : Int) + off
  g.at_ (if g.len = 0 then x else x % (g.len.toNat : Int))

/-- Whether MODE and OFF of a format M word are legal. -/
def memModeOk (mode off : Nat) : Bool := match mode with
  | 0 => off == 0
  | 1 => decide (off < 32)
  | 2 => true
  | _ => false

/-- The scalars a format M address reads. -/
def memModeUses (mode off : Nat) : List PReg := if mode = 1 then [.s (off % 32)] else []

/-- The effective address of a format M access and its generator afterwards. -/
def Pod.memAddr (p : Pod) (ag mode off size : Nat) : Option (Nat × AddrGen) :=
  let g := p.agGet ag
  match mode with
  | 0 => g.post
  | 1 => some (g.indexed (s64 (p.sget (off % 32))), g)
  | _ => some (g.offset (signed 15 off * size), g)

/-! ## What a load gives -/

/-- A loaded value in its register (R42, R94). -/
def Pod.loadReg (p : Pod) (rt : Nat) (k : LoadKind) (bs : List Byte) : Pod :=
  let v := ofBytes bs
  match k with
  | .sext n => p.sset rt (BitVec.ofInt 64 (signed (8 * n) v))
  | .zext _ => p.sset rt (BitVec.ofNat 64 v)
  | .vec => p.vset rt (BitVec.ofNat 128 v)

def LoadKind.bytes : LoadKind → Nat
  | .sext n => n
  | .zext n => n
  | .vec => 16
def LoadKind.reg (k : LoadKind) (rt : Nat) : PReg := if k = .vec then .v rt else .s rt

/-- Whether an address lies in the issuing pod's own local data memory or instruction memory (R37). -/
def ownData (a : Nat) : Bool := decide (a < 0x40000)
def ownMem (a : Nat) : Bool := decide (a < 0x50000)

/-- What a load finds at issue: it waits, traps, has its bytes from the own memories, or goes to the fabric. -/
inductive LoadAcc where
  | stall (c : Chip)
  | trap (c : Chip) (cause addr : Nat)
  | now (c : Chip) (bytes : List Byte)
  | sent

/-- Whether a store of an LDSTV to the own memory, whose load is still outstanding, covers one of `len` bytes at `a`. -/
def Pod.awaits (p : Pod) (a len : Nat) : Bool := p.loads.any fun l => match l.mate with
  | .localStore b bs _ => decide (b < a + len) && decide (a < b + bs.length)
  | _ => false

/-- The access of a load of pod `n` at issue, which changes no pod (R37, R40, R470). An own byte that an earlier LDSTV
still stores is waited for. (Model: DEDUCED, log 21) -/
def Chip.loadAcc (c : Chip) (n a : Nat) (k : LoadKind) (chk : LineCheck) : LoadAcc :=
  if ownMem a then
    if (c.pod n).awaits a k.bytes then .stall c
    else match c.checkLine 2 n (podWin n + a) chk with
      | (c, .wait) => .stall c
      | (c, .bad) => .trap c 4 a
      | (c, .ok) => .now c (c.bytesAt (podWin n + a) k.bytes)
  else if spaceOf a = .unmapped || (spaceOf a = .regs && decide (k.bytes < 4)) then .trap c 4 a
  else .sent

/-- The outstanding load of an access that pod `p` sends. `undo` names the pointers the instruction moves. -/
def Pod.sentLoad (p : Pod) (rt a : Nat) (k : LoadKind) (undo : List (Nat × BitVec 24)) : FabLoad :=
  { rt := rt, addr := a, kind := k, pc := p.pc, behind := p.stores.length, undo := undo, levels := p.levels }
/-- Loads become outstanding, at most four at a time (R58). -/
def Chip.sendLoads (c : Chip) (n : Nat) (l : List FabLoad) : Eff :=
  if (c.pod n).loads.length + l.length > 4 then .stall c else Eff.pod c n fun p => { p with loads := p.loads ++ l }

/-- A load of pod `n` at issue: local bytes arrive with it; a fabric load is sent (R58). `undo` names the pointers the
instruction moves. -/
def Chip.podLoad (c : Chip) (n rt a : Nat) (k : LoadKind) (undo : List (Nat × BitVec 24)) (chk : LineCheck) : Eff :=
  match c.loadAcc n a k chk with
  | .stall c => .stall c
  | .trap c cause a => .trap c cause a
  | .now c bs => Eff.pod c n fun p => p.loadReg rt k bs
  | .sent => c.sendLoads n [(c.pod n).sentLoad rt a k undo]

/-- A store to the own memories takes effect: data memory is written, instruction memory is not (R40). -/
def Chip.ownStore (c : Chip) (n a : Nat) (bs : List Byte) (chk : LineCheck) : Chip :=
  if ownData a then match chk with
    | .fail _ _ => c.storeParityFail (podWin n + a)
    | _ => (c.memStore n 1 (podWin n + a) bs).1
  else c.badStore n 2 a
/-- Whether a store to the own memories has to wait: its line is being corrected, or an earlier LDSTV still stores there. -/
def Chip.ownStoreWaits (c : Chip) (n a len : Nat) : Bool :=
  ownData a && (c.mem.handling.contains ((podWin n + a) / 64) || (c.pod n).awaits a len)

/-- A store of pod `n` at issue: local bytes are written; a fabric store enters the buffer (R60). -/
def Chip.podStore (c : Chip) (n a : Nat) (bs : List Byte) (chk : LineCheck) : Eff :=
  if ownMem a then if c.ownStoreWaits n a bs.length then .stall c else .done (c.ownStore n a bs chk)
  else if (c.pod n).stores.length ≥ 8 then .stall c
  else Eff.pod c n fun p => { p with stores := p.stores ++ [{ addr := a, bytes := bs, dwr := false }] }

/-- Then-composition of two accesses of one instruction. -/
def Eff.andThen (e : Eff) (f : Chip → Eff) : Eff := match e with
  | .done c => f c
  | e => e

/-! ## Format M -/

/-- A load instruction. -/
def Chip.mLoad (c : Chip) (n rt ag mode off : Nat) (k : LoadKind) (chk : LineCheck) : Chip :=
  c.issue n (memModeOk mode off) (k.reg rt :: memModeUses mode off) fun c p =>
    match p.memAddr ag mode off k.bytes with
    | none => .trap c 1 p.ownPc
    | some (a, g) =>
      if a % k.bytes != 0 then .trap c 5 a
      else (c.podLoad n rt a k [(ag, (p.agGet ag).ptr)] chk).andThen fun c => Eff.pod c n fun q => q.agSet ag g

/-- A store instruction of `size` bytes; 16 bytes come from a vector register. -/
def Chip.mStore (c : Chip) (n rt ag mode off size : Nat) (chk : LineCheck) : Chip :=
  c.issue n (memModeOk mode off) ((if size = 16 then PReg.v rt else .s rt) :: memModeUses mode off) fun c p =>
    match p.memAddr ag mode off size with
    | none => .trap c 1 p.ownPc
    | some (a, g) =>
      if a % size != 0 then .trap c 5 a
      else
        let v := if size = 16 then (p.vget rt).toNat else (p.sget rt).toNat
        (c.podStore n a (toBytes size v) chk).andThen fun c => Eff.pod c n fun q => q.agSet ag g

/-- LB: one byte, sign-extended. -/
def Chip.iLb (c : Chip) (n rt ag mode off : Nat) (chk : LineCheck) : Chip := c.mLoad n rt ag mode off (.sext 1) chk
/-- LBU: one byte, zero-extended. -/
def Chip.iLbu (c : Chip) (n rt ag mode off : Nat) (chk : LineCheck) : Chip := c.mLoad n rt ag mode off (.zext 1) chk
/-- LH: two bytes, sign-extended. -/
def Chip.iLh (c : Chip) (n rt ag mode off : Nat) (chk : LineCheck) : Chip := c.mLoad n rt ag mode off (.sext 2) chk
/-- LHU: two bytes, zero-extended. -/
def Chip.iLhu (c : Chip) (n rt ag mode off : Nat) (chk : LineCheck) : Chip := c.mLoad n rt ag mode off (.zext 2) chk
/-- LW: four bytes, sign-extended. -/
def Chip.iLw (c : Chip) (n rt ag mode off : Nat) (chk : LineCheck) : Chip := c.mLoad n rt ag mode off (.sext 4) chk
/-- LWU: four bytes, zero-extended. -/
def Chip.iLwu (c : Chip) (n rt ag mode off : Nat) (chk : LineCheck) : Chip := c.mLoad n rt ag mode off (.zext 4) chk
/-- LD: eight bytes. -/
def Chip.iLd (c : Chip) (n rt ag mode off : Nat) (chk : LineCheck) : Chip := c.mLoad n rt ag mode off (.zext 8) chk
/-- LV: sixteen bytes into a vector register. -/
def Chip.iLv (c : Chip) (n rt ag mode off : Nat) (chk : LineCheck) : Chip := c.mLoad n rt ag mode off (.vec) chk
/-- SB: the low 1 byte of RT. -/
def Chip.iSb (c : Chip) (n rt ag mode off : Nat) (chk : LineCheck) : Chip := c.mStore n rt ag mode off 1 chk
/-- SH: the low 2 bytes of RT. -/
def Chip.iSh (c : Chip) (n rt ag mode off : Nat) (chk : LineCheck) : Chip := c.mStore n rt ag mode off 2 chk
/-- SW: the low 4 bytes of RT. -/
def Chip.iSw (c : Chip) (n rt ag mode off : Nat) (chk : LineCheck) : Chip := c.mStore n rt ag mode off 4 chk
/-- SD: the low 8 bytes of RT. -/
def Chip.iSd (c : Chip) (n rt ag mode off : Nat) (chk : LineCheck) : Chip := c.mStore n rt ag mode off 8 chk
/-- SV: the low 16 bytes of RT. -/
def Chip.iSv (c : Chip) (n rt ag mode off : Nat) (chk : LineCheck) : Chip := c.mStore n rt ag mode off 16 chk

/-- LB (see `Chip.iLb`). -/
def execLb (p : Fin 32) (rt : BitVec 5) (ag : BitVec 3) (mode : BitVec 2) (off : BitVec 15) (chk : LineCheck) (s : State) : Out :=
  s.onChip (s.chip.iLb p.val rt.toNat ag.toNat mode.toNat off.toNat chk)
/-- LBU (see `Chip.iLbu`). -/
def execLbu (p : Fin 32) (rt : BitVec 5) (ag : BitVec 3) (mode : BitVec 2) (off : BitVec 15) (chk : LineCheck) (s : State) : Out :=
  s.onChip (s.chip.iLbu p.val rt.toNat ag.toNat mode.toNat off.toNat chk)
/-- LH (see `Chip.iLh`). -/
def execLh (p : Fin 32) (rt : BitVec 5) (ag : BitVec 3) (mode : BitVec 2) (off : BitVec 15) (chk : LineCheck) (s : State) : Out :=
  s.onChip (s.chip.iLh p.val rt.toNat ag.toNat mode.toNat off.toNat chk)
/-- LHU (see `Chip.iLhu`). -/
def execLhu (p : Fin 32) (rt : BitVec 5) (ag : BitVec 3) (mode : BitVec 2) (off : BitVec 15) (chk : LineCheck) (s : State) : Out :=
  s.onChip (s.chip.iLhu p.val rt.toNat ag.toNat mode.toNat off.toNat chk)
/-- LW (see `Chip.iLw`). -/
def execLw (p : Fin 32) (rt : BitVec 5) (ag : BitVec 3) (mode : BitVec 2) (off : BitVec 15) (chk : LineCheck) (s : State) : Out :=
  s.onChip (s.chip.iLw p.val rt.toNat ag.toNat mode.toNat off.toNat chk)
/-- LWU (see `Chip.iLwu`). -/
def execLwu (p : Fin 32) (rt : BitVec 5) (ag : BitVec 3) (mode : BitVec 2) (off : BitVec 15) (chk : LineCheck) (s : State) : Out :=
  s.onChip (s.chip.iLwu p.val rt.toNat ag.toNat mode.toNat off.toNat chk)
/-- LD (see `Chip.iLd`). -/
def execLd (p : Fin 32) (rt : BitVec 5) (ag : BitVec 3) (mode : BitVec 2) (off : BitVec 15) (chk : LineCheck) (s : State) : Out :=
  s.onChip (s.chip.iLd p.val rt.toNat ag.toNat mode.toNat off.toNat chk)
/-- LV (see `Chip.iLv`). -/
def execLv (p : Fin 32) (rt : BitVec 5) (ag : BitVec 3) (mode : BitVec 2) (off : BitVec 15) (chk : LineCheck) (s : State) : Out :=
  s.onChip (s.chip.iLv p.val rt.toNat ag.toNat mode.toNat off.toNat chk)
/-- SB (see `Chip.iSb`). -/
def execSb (p : Fin 32) (rt : BitVec 5) (ag : BitVec 3) (mode : BitVec 2) (off : BitVec 15) (chk : LineCheck) (s : State) : Out :=
  s.onChip (s.chip.iSb p.val rt.toNat ag.toNat mode.toNat off.toNat chk)
/-- SH (see `Chip.iSh`). -/
def execSh (p : Fin 32) (rt : BitVec 5) (ag : BitVec 3) (mode : BitVec 2) (off : BitVec 15) (chk : LineCheck) (s : State) : Out :=
  s.onChip (s.chip.iSh p.val rt.toNat ag.toNat mode.toNat off.toNat chk)
/-- SW (see `Chip.iSw`). -/
def execSw (p : Fin 32) (rt : BitVec 5) (ag : BitVec 3) (mode : BitVec 2) (off : BitVec 15) (chk : LineCheck) (s : State) : Out :=
  s.onChip (s.chip.iSw p.val rt.toNat ag.toNat mode.toNat off.toNat chk)
/-- SD (see `Chip.iSd`). -/
def execSd (p : Fin 32) (rt : BitVec 5) (ag : BitVec 3) (mode : BitVec 2) (off : BitVec 15) (chk : LineCheck) (s : State) : Out :=
  s.onChip (s.chip.iSd p.val rt.toNat ag.toNat mode.toNat off.toNat chk)
/-- SV (see `Chip.iSv`). -/
def execSv (p : Fin 32) (rt : BitVec 5) (ag : BitVec 3) (mode : BitVec 2) (off : BitVec 15) (chk : LineCheck) (s : State) : Out :=
  s.onChip (s.chip.iSv p.val rt.toNat ag.toNat mode.toNat off.toNat chk)

/-! ## Format P (R96) -/

/-- The two addresses of a paired access, and the generators after it. -/
def Pod.pairAddrs (p : Pod) (ag1 ag2 : Nat) : Option (Nat × Nat × Pod) := match (p.agGet ag1).post with
  | none => none
  | some (a1, g1) =>
    let p := p.agSet ag1 g1
    match (p.agGet ag2).post with
    | none => none
    | some (a2, g2) => some (a1, a2, p.agSet ag2 g2)

/-- The pointers a paired access moves, as they were. (Model: DEDUCED, log 22) -/
def Pod.pairUndo (p : Pod) (ag1 ag2 : Nat) : List (Nat × BitVec 24) :=
  [(ag1, (p.agGet ag1).ptr), (ag2, (p.agGet ag2).ptr)]

/-- A paired access on aligned addresses of slot A and slot B; `body` gets the pod with both pointers moved. Neither
access has an effect unless both can be made: slot A's is tried first. (Model: DEDUCED, log 22) -/
def Chip.mPair (c : Chip) (n v1 v2 ag1 ag2 rsv : Nat) (body : Chip → Pod → Nat → Nat → Tab AddrGen → Eff) : Chip :=
  c.issue n (rsv == 0) [.v v1, .v v2] fun c p =>
    match p.pairAddrs ag1 ag2 with
    | none => .trap c 1 p.ownPc
    | some (a1, a2, q) =>
      if a1 % 16 != 0 then .trap c 5 a1
      else if a2 % 16 != 0 then .trap c 5 a2
      else body c p a1 a2 q.ag

/-- The pointers of a paired access move with it. -/
def Eff.move (e : Eff) (n : Nat) (after : Tab AddrGen) : Eff :=
  e.andThen fun c => Eff.pod c n fun p => { p with ag := after }

/-- LDVV: two vector loads, written once both have their bytes (R68). Where both name one register the value of the second
stays, so the first is read and not kept (R82). (Model: DEDUCED, log 22) -/
def Chip.iLdvv (c : Chip) (n v1 v2 ag1 ag2 rsv : Nat) (chk chk2 : LineCheck) : Chip :=
  c.mPair n v1 v2 ag1 ag2 rsv fun c p a1 a2 after =>
    let k1 : LoadKind := if v1 = v2 then .sext 16 else .vec
    let r1 := if v1 = v2 then 0 else v1
    let undo := p.pairUndo ag1 ag2
    (match c.loadAcc n a1 k1 chk with
    | .stall c => Eff.stall c
    | .trap c cause a => .trap c cause a
    | .now c x => match c.loadAcc n a2 .vec chk2 with
      | .stall c => .stall c
      | .trap c cause a => .trap c cause a
      | .now c y => Eff.pod c n fun p => (p.loadReg r1 k1 x).loadReg v2 .vec y
      | .sent => c.sendLoads n [{ p.sentLoad v2 a2 .vec undo with keep := if v1 = v2 then none else some (v1, x) }]
    | .sent => match c.loadAcc n a2 .vec chk2 with
      | .stall c => .stall c
      | .trap c cause a => .trap c cause a
      | .now c y => c.sendLoads n [{ p.sentLoad r1 a1 k1 undo with keep := some (v2, y) }]
      | .sent => c.sendLoads n
          [{ p.sentLoad r1 a1 k1 undo with mate := .next }, { p.sentLoad v2 a2 .vec undo with mate := .prev }]).move n after

/-- LDSTV: a vector load, and a store of the value V2 held before the instruction. The store is made once the load has
its bytes (R55, R68, R96). (Model: DEDUCED, log 22) -/
def Chip.iLdstv (c : Chip) (n v1 v2 ag1 ag2 rsv : Nat) (chk chk2 : LineCheck) : Chip :=
  c.mPair n v1 v2 ag1 ag2 rsv fun c p a1 a2 after =>
    let bs := toBytes 16 (p.vget v2).toNat
    let st : FabStore := { addr := a2, bytes := bs, dwr := false, held := true }
    let l := p.sentLoad v1 a1 .vec (p.pairUndo ag1 ag2)
    (match c.loadAcc n a1 .vec chk with
    | .stall c => Eff.stall c
    | .trap c cause a => .trap c cause a
    | .now c x => (c.podStore n a2 bs chk2).andThen fun c => Eff.pod c n fun p => p.loadReg v1 .vec x
    | .sent =>
      if ownMem a2 then
        if c.ownStoreWaits n a2 16 then .stall c else c.sendLoads n [({ l with mate := .localStore a2 bs chk2 } : FabLoad)]
      else if p.stores.length ≥ 8 then .stall c
      else (c.sendLoads n [({ l with mate := .bufStore } : FabLoad)]).andThen fun c => Eff.pod c n fun p =>
        { p with stores := p.stores ++ [st] }).move n after

/-- LDVV (see `Chip.iLdvv`). -/
def execLdvv (p : Fin 32) (v1 v2 : BitVec 5) (ag1 ag2 : BitVec 3) (rsv : BitVec 10) (chk chk2 : LineCheck) (s : State) : Out :=
  s.onChip (s.chip.iLdvv p.val v1.toNat v2.toNat ag1.toNat ag2.toNat rsv.toNat chk chk2)
/-- LDSTV (see `Chip.iLdstv`). -/
def execLdstv (p : Fin 32) (v1 v2 : BitVec 5) (ag1 ag2 : BitVec 3) (rsv : BitVec 10) (chk chk2 : LineCheck) (s : State) : Out :=
  s.onChip (s.chip.iLdstv p.val v1.toNat v2.toNat ag1.toNat ag2.toNat rsv.toNat chk chk2)

/-! ## What the fabric answers -/

/-- Whether a buffered store goes to the register space. -/
def FabStore.toRegs (x : FabStore) : Bool := x.dwr || spaceOf x.addr == .regs
/-- Whether a fabric load reads a register. (Model: DESIGN CHOICE, log 20) -/
def FabLoad.fromRegs (l : FabLoad) : Bool := spaceOf l.addr == .regs

/-- Whether a pod's accepted transfer waits for its engine. (Model: DEDUCED, log 24) -/
def Chip.dwrWaits (c : Chip) (n : Nat) : Bool := c.dwr.any fun x => x.1 == n

/-- Whether a register load may read: every earlier register access of the pod has taken effect (R472). (Model: DESIGN CHOICE, log 23) -/
def Chip.regLoadDue (c : Chip) (n i : Nat) (l : FabLoad) : Bool :=
  let p := c.pod n
  !(p.stores.take l.behind).any (·.toRegs) && !c.dwrWaits n && !(p.loads.take i).any (·.fromRegs)

/-- What stood behind `k` stores of a buffer that loses entry `i`. (Model: DESIGN CHOICE, log 23) -/
def behindLess (i k : Nat) : Nat := if i < k then k - 1 else k

/-- A store leaves the buffer. -/
def Pod.acked (p : Pod) (i : Nat) : Pod :=
  { p with
    stores := p.stores.eraseIdx i
    loads := p.loads.map fun l => { l with behind := behindLess i l.behind }
    toSched := p.toSched.map fun o => match o with
      | .done k w b => .done k w (behindLess i b)
      | o => o }

/-- The held store of the LDSTV whose load stands at `i` of the outstanding ones: loads and held stores stand in the order
of their instructions. -/
def Pod.heldStore (p : Pod) (i : Nat) : Nat :=
  let k := ((p.loads.take i).filter fun l => l.mate == .bufStore).length
  ((List.range p.stores.length).filter fun j => (p.stores.getD j { addr := 0, bytes := [], dwr := false }).held).getD k 8

/-- Load `i` is no longer outstanding and its bytes are known: they and what the instruction's other load gave are
written, or wait with the other load while that one is outstanding. -/
def Pod.loadDone (p : Pod) (i : Nat) (l : FabLoad) (bs : List Byte) : Pod :=
  let q := { p with loads := p.loads.eraseIdx i }
  let waits := fun (j : Nat) => ({ q with loads := q.loads.modify j fun m =>
    { m with mate := .alone, keep := if l.kind = .vec then some (l.rt, bs) else none } } : Pod)
  match l.mate with
  | .next => waits i
  | .prev => waits (i - 1)
  | .bufStore =>
    ({ q with stores := q.stores.modify (p.heldStore i) fun x => { x with held := false } } : Pod).loadReg l.rt l.kind bs
  | _ =>
    let q := q.loadReg l.rt l.kind bs
    match l.keep with
    | some (r, v) => q.loadReg r .vec v
    | none => q

/-- Data of an outstanding load arrives: the load is done, and a store to the own memories that waited for it is made. -/
def Chip.loadArrives (c : Chip) (n i : Nat) (l : FabLoad) (bs : List Byte) : Chip :=
  let c := c.modPod n fun p => p.loadDone i l bs
  match l.mate with
  | .localStore a v chk => c.ownStore n a v chk
  | _ => c

/-- Load `i` and the other access of its instruction are dropped. -/
def Pod.loadDrop (p : Pod) (i : Nat) (l : FabLoad) : Pod :=
  let q := { p with loads := p.loads.eraseIdx i }
  match l.mate with
  | .next => { q with loads := q.loads.eraseIdx i }
  | .prev => { q with loads := q.loads.eraseIdx (i - 1) }
  | .bufStore => q.acked (p.heldStore i)
  | _ => q

/-- A poisoned answer: no access of the instruction has an effect, the pointers it moved go back, and the pod traps with EPC
and the repeat levels at the load (R68, R69). A pod that a double trap halted stays so (R72).
(Model: DESIGN CHOICE, log 20; DESIGN CHOICE, log 103) -/
def Chip.loadPoisoned (c : Chip) (n i : Nat) (l : FabLoad) : Chip :=
  c.modPod n fun p =>
    if p.state = .doubleTrap then p.loadDrop i l
    else
      let p := (p.loadDrop i l).wake
      let p := l.undo.reverse.foldl (fun p u => p.agSet u.1 { p.agGet u.1 with ptr := u.2 }) p
      if p.inHandler then p.syncTrap 4 l.addr else { p with pc := l.pc, levels := l.levels }.syncTrap 4 l.addr

/-- Whether the store that waits for a load may be made with it. -/
def Chip.mateReady (c : Chip) (n : Nat) (l : FabLoad) : Bool := match l.mate with
  | .localStore a _ _ => !(ownData a && c.mem.handling.contains ((podWin n + a) / 64))
  | _ => true

/-- Data of outstanding load `i` of pod `n` arrives (R58). (Model: DESIGN CHOICE, log 20) -/
def Chip.fabricData (c : Chip) (n i : Nat) (chk : LineCheck) : Chip := match (c.pod n).loads[i]? with
  | none => c
  | some l =>
    if !c.mateReady n l then c
    else if l.fromRegs then
      if c.regLoadDue n i l then
        let r := c.busLoad n l.addr l.kind.bytes
        r.1.loadArrives n i l r.2
      else c
    else if spaceOf l.addr = .crcArea then c.loadArrives n i l (c.loadBytes l.addr l.kind.bytes)
    else match c.checkLine 2 n l.addr chk with
      | (c, .wait) => c
      | (c, .bad) => c.loadPoisoned n i l
      | (c, .ok) => c.loadArrives n i l (c.bytesAt l.addr l.kind.bytes)

/-- Whether store `i` may take effect: the load of its LDSTV has its bytes (R55), the earlier stores to its target have
taken effect (R60), and before a register store every earlier register access (R472). (Model: DESIGN CHOICE, log 23) -/
def Chip.storeDue (c : Chip) (n i : Nat) (x : FabStore) : Bool :=
  let p := c.pod n
  !x.held && !((p.stores.take i).any fun y => (y.toRegs && x.toRegs) || spaceOf y.addr == spaceOf x.addr) &&
  !(x.toRegs && (c.dwrWaits n || p.loads.any fun l => l.fromRegs && decide (l.behind ≤ i)))

/-- Consecutive words with their offsets in the register space. -/
def offWords (off : Nat) : List W32 → List (Nat × W32)
  | [] => []
  | v :: vs => (off, v) :: offWords (off + 4) vs

/-- The acknowledgement of store `i` of pod `n` (R60): it takes effect, or is not made where its transfer failed parity twice (R414).
A transfer is taken over by the engine that owns its destination (R106). (Model: DEDUCED, log 24) -/
def Chip.fabricAck (c : Chip) (n i : Nat) (chk : LineCheck) : Chip := match (c.pod n).stores[i]? with
  | none => c
  | some x =>
    if !c.storeDue n i x || (!x.toRegs && c.mem.handling.contains (x.addr / 64)) then c
    else
      let c := c.modPod n fun p => p.acked i
      match chk with
      | .fail _ _ => if spaceOf x.addr = .unmapped then c.busStore n x.addr x.bytes else c.storeParityFail x.addr
      | _ =>
        if x.dwr then { c with dwr := c.dwr ++ [(n, offWords (x.addr - regBase) (wordsOf x.bytes))] }
        else c.busStore n x.addr x.bytes

/-- The writes of a transfer, less the first `skip` words: an observer descriptor that lies within it is written as a
whole (R158). (Model: DEDUCED, log 106) -/
def Chip.dwrFrom (c : Chip) (n : Nat) : (skip : Nat) → List (Nat × W32) → Chip
  | _, [] => c
  | k + 1, _ :: vs => c.dwrFrom n k vs
  | 0, (off, v) :: vs =>
    if 0x401000 ≤ off ∧ off < 0x405000 ∧ off % 64 = 0 ∧ 15 ≤ vs.length then
      (c.obsWrites off (v :: (vs.take 15).map (·.2))).dwrFrom n 15 vs
    else (c.regWrite n off v).dwrFrom n 0 vs
/-- The writes of a transfer. -/
def Chip.dwrWrites (c : Chip) (n : Nat) (ws : List (Nat × W32)) : Chip := c.dwrFrom n 0 ws

/-- The oldest transfer of pod `n` is applied whole (R106). (Model: DEDUCED, log 24) -/
def Chip.dwrApply (c : Chip) (n : Nat) : Chip := match c.dwr.find? fun x => x.1 == n with
  | none => c
  | some x => ({ c with dwr := c.dwr.erase x } : Chip).dwrWrites n x.2

/-- FABRIC_LOAD_DATA: data of outstanding load `idx` arrives. -/
def execFabricLoadData (p : Fin 32) (idx : Fin 4) (chk : LineCheck) (s : State) : Out :=
  s.onChip (s.chip.inWork fun c => c.fabricData p.val idx.val chk)
/-- OUTSIDE_ACCESS_STALL: the pod loses one cycle and nothing else (R56). -/
def execOutsideAccessStall (_p : Fin 32) (s : State) : Out := s.onChip s.chip
/-- GET_WAKE: the pod completes the GET it slept in (R76). -/
def execGetWake (p : Fin 32) (s : State) : Out := s.onChip (s.chip.modPod p.val fun p => p.wake)

end Sys2Proof.Machine
end

