-- ==== Sys2Proof/Machine/PodSystem.lean ====
section
/-!
DEFINITION. The branches, repeats and system instructions of the pods (R64 to R67, R70, R76, R77, R97 to R106).
-/
namespace Sys2Proof.Machine

/-! ## Branches (R97, R98) -/

/-- PC + 4 in a link register. (Model: DESIGN CHOICE, log 112) -/
def Pod.link (p : Pod) (r : Nat) : Pod := p.sset r ((p.pc + 4).zeroExtend 64)

/-- Control of pod `n` goes to a target. -/
def Eff.goto (c : Chip) (n : Nat) (t : BitVec 16) : Eff := .jump (c.modPod n fun p => p.jump t)

/-- A conditional branch. -/
def Chip.branch (c : Chip) (n ra rb off : Nat) (cond : W64 → W64 → Bool) : Chip :=
  c.issue n true [.s ra, .s rb] fun c p =>
    if cond (p.sget ra) (p.sget rb) then Eff.goto c n (p.pc + BitVec.ofInt 16 (4 * signed 15 off)) else .done c

/-- BEQ: taken when ra = rb. -/
def Chip.iBeq (c : Chip) (n ra rb off : Nat) : Chip := c.branch n ra rb off fun a b => a == b
/-- BNE: taken when ra ≠ rb. -/
def Chip.iBne (c : Chip) (n ra rb off : Nat) : Chip := c.branch n ra rb off fun a b => a != b
/-- BLT: taken when ra < rb, signed. -/
def Chip.iBlt (c : Chip) (n ra rb off : Nat) : Chip := c.branch n ra rb off fun a b => decide (s64 a < s64 b)
/-- BGE: taken when ra ≥ rb, signed. -/
def Chip.iBge (c : Chip) (n ra rb off : Nat) : Chip := c.branch n ra rb off fun a b => decide (s64 b ≤ s64 a)
/-- BLTU: taken when ra < rb, unsigned. -/
def Chip.iBltu (c : Chip) (n ra rb off : Nat) : Chip := c.branch n ra rb off fun a b => decide (a < b)
/-- BGEU: taken when ra ≥ rb, unsigned. -/
def Chip.iBgeu (c : Chip) (n ra rb off : Nat) : Chip := c.branch n ra rb off fun a b => decide (b ≤ a)
/-- BR: always taken; RA and RB must be 0. -/
def Chip.iBr (c : Chip) (n ra rb off : Nat) : Chip :=
  c.issue n (ra == 0 && rb == 0) [] fun c p => Eff.goto c n (p.pc + BitVec.ofInt 16 (4 * signed 15 off))
/-- BL: always taken; RA receives PC + 4; RB must be 0. -/
def Chip.iBl (c : Chip) (n ra rb off : Nat) : Chip :=
  c.issue n (rb == 0) [.s ra] fun c p =>
    Eff.goto (c.modPod n fun p => p.link ra) n (p.pc + BitVec.ofInt 16 (4 * signed 15 off))

/-! ## Repeats (R64, R65, R99) -/

/-- A repeat of `cnt` iterations over the `len` instructions that follow. (Model: DEDUCED, log 25) -/
def Chip.repeat_ (c : Chip) (n lvl len cnt : Nat) (p : Pod) : Eff :=
  let last := p.pc.toNat + 4 * len
  if len = 0 ∨ cnt > 65535 ∨ last > 0xFFFC then .trap c 1 p.ownPc
  else if p.levels.length < 4 ∧ lvl ≠ p.levels.length then .trap c 1 p.ownPc
  else if p.levels.any fun l => decide (l.last.toNat < last) then .trap c 1 p.ownPc
  else if cnt = 0 then Eff.pod c n fun p => { p with pc := BitVec.ofNat 16 last }
  else if p.levels.length ≥ 4 then .trap c 2 p.ownPc
  else Eff.pod c n fun p => { p with levels := p.levels ++ [{ cnt := cnt, first := p.pc + 4, last := BitVec.ofNat 16 last }] }

/-- REP: a repeat with an immediate count. -/
def Chip.iRep (c : Chip) (n lvl len count : Nat) : Chip :=
  c.issue n (len != 0 && count != 0) [] fun c p => c.repeat_ n lvl len count p
/-- REPR: a repeat with a register count; a count of 0 skips the body. (Model: DEDUCED, log 25) -/
def Chip.iRepr (c : Chip) (n rd ra imm : Nat) : Chip :=
  c.issue n (decide (rd < 4) && imm != 0) [.s ra] fun c p => c.repeat_ n rd imm (p.sget ra).toNat p

/-! ## Sprouts (R76, R77, R101) -/

/-- GET: takes the oldest untaken sprout, answers NONE, or sleeps. Every GET loads the accept mask (R118). -/
def Chip.iGet (c : Chip) (n rd ra imm : Nat) : Chip :=
  c.issue n (imm == 0) [.s rd, .s ra] fun c p =>
    let mask := p.sget ra
    if mask = 0 then .trap c 1 p.ownPc
    else match p.oldestUntaken with
      | some (k, x) => Eff.pod c n fun p =>
          ({ p with accept := mask, stamp := p.stamp + 1 }.setSlot k
            (some { x with taken := true, takenAt := p.stamp })).sset rd (sproutWord k x.sprout)
      | none =>
        if p.held.length ≥ 8 then Eff.pod c n fun p => { p with accept := mask }.sset rd noSproutWord
        else .jump (c.modPod n fun p => { p with accept := mask, state := .sleeping, getRd := rd })

/-- An operation enters the four-entry queue to the scheduler; a fifth waits (R101). (Model: DESIGN CHOICE, log 26) -/
def Chip.toSched (c : Chip) (n : Nat) (op : SchedOp) (f : Pod → Pod) : Eff :=
  if (c.pod n).toSched.length ≥ 4 then .stall c
  else Eff.pod c n fun p => f { p with toSched := p.toSched ++ [op] }

/-- DONE: releases the slot named in ra[18:16] with the outcome ra[63:32]; a slot without a taken sprout is illegal.
(Model: DEDUCED, log 92) -/
def Chip.iDone (c : Chip) (n rd ra imm : Nat) : Chip :=
  c.issue n (rd == 0 && imm == 0) [.s ra] fun c p =>
    let v := (p.sget ra).toNat
    let k := bitsOf v 18 16
    match p.slot k with
    | some x =>
      if x.taken && !x.doneIssued then
        c.toSched n (.done k (BitVec.ofNat 32 (v / 2 ^ 32)) p.stores.length) fun p => p.setSlot k (some { x with doneIssued := true })
      else .trap c 1 p.ownPc
    | none => .trap c 1 p.ownPc

/-- POST and CANCEL: the task is IMM, or the scalar that RD names, and IMM is then 0. (Model: DEDUCED, log 28) -/
def Chip.taskOp (c : Chip) (n rd ra imm : Nat) (op : Nat → W32 → SchedOp) : Chip :=
  c.issue n (rd == 0 || imm == 0) [.s rd, .s ra] fun c p =>
    c.toSched n (op (if rd = 0 then imm else (p.sget rd).toNat % 4096) ((p.sget ra).truncate 32)) id
/-- POST: ORs ra[31:0] into the flags of a task. -/
def Chip.iPost (c : Chip) (n rd ra imm : Nat) : Chip := c.taskOp n rd ra imm .post
/-- CANCEL: cancels a task with the flag mask ra[31:0]. -/
def Chip.iCancel (c : Chip) (n rd ra imm : Nat) : Chip := c.taskOp n rd ra imm .cancel
/-- EVT: raises event source 480 + IMM[4:0]. -/
def Chip.iEvt (c : Chip) (n rd ra imm : Nat) : Chip :=
  c.issue n (rd == 0 && ra == 0 && decide (imm < 32)) [] fun c _ => c.toSched n (.evt imm) id

/-! ## The rest of R100 -/

/-- NOP: nothing but the next instruction. -/
def Chip.iNop (c : Chip) (n rd ra imm : Nat) : Chip := c.issue n (rd == 0 && ra == 0 && imm == 0) [] fun c _ => .done c
/-- FENCE: waits until every earlier store is acknowledged (R60). -/
def Chip.iFence (c : Chip) (n rd ra imm : Nat) : Chip :=
  c.issue n (rd == 0 && ra == 0 && imm == 0) [] fun c p => if p.stores.isEmpty && !p.storesOwn then .done c else .stall c
/-- ERET: the return from a handler; illegal outside one, and as the last instruction of an open body (R66, R70). -/
def Chip.iEret (c : Chip) (n rd ra imm : Nat) : Chip :=
  c.issue n (rd == 0 && ra == 0 && imm == 0) [] fun c p =>
    if !p.inHandler || p.levels.any (fun l => l.last == p.pc) then .trap c 1 p.ownPc
    else .jump (c.modPod n fun p => p.eret)

/-- MFSR: rd = special register IMM. The cycles that CYCLE has counted since it was last read are a free value.
(Model: DESIGN CHOICE, log 13; DEDUCED, log 100) -/
def Chip.iMfsr (c : Chip) (n rd ra imm : Nat) : Chip :=
  c.issue n (ra == 0 && decide (imm ≤ 9)) [.s rd] fun c p =>
    if imm = 7 then
      let d := c.draw
      Eff.pod d.2 n fun q => let q := q.count d.1; q.sset rd q.cyc
    else Eff.pod c n fun q => q.sset rd (p.srGet imm)

/-- A special register write under its field access codes (R52). -/
def Pod.srPut (p : Pod) (k : Nat) (v : W64) : Pod := match k with
  | 0 => { p with pstat := p.pstat &&& ~~~ (v &&& 0xFFFF0018#64) }
  | 1 => { p with trapen := v &&& 7#64 }
  | 2 => { p with epc := v }
  | 3 => { p with ecause := v &&& 0xFFFF#64 }
  | 4 => { p with eaddr := v &&& 0xFFFFFFFFFF#64 }
  | 5 => { p with erep := v }
  | 8 => { p with agstat := p.agstat &&& ~~~ (v &&& 0xFF#64) }
  | _ => p
/-- MTSR: special register IMM = ra. -/
def Chip.iMtsr (c : Chip) (n rd ra imm : Nat) : Chip :=
  c.issue n (rd == 0 && decide (imm ≤ 9)) [.s ra] fun c p => Eff.pod c n fun q => q.srPut imm (p.sget ra)

/-- A field of a generator (R103). -/
def AddrGen.field (g : AddrGen) (f : Nat) : W64 := match f with
  | 0 => g.base.zeroExtend 64
  | 1 => g.len.zeroExtend 64
  | 2 => g.ptr.zeroExtend 64
  | _ => g.step.signExtend 64
/-- A generator with a field written, and whether its pointer was reduced (R63). -/
def AddrGen.put (g : AddrGen) (f : Nat) (v : W64) : AddrGen × Bool :=
  let w := v.truncate 24
  let trim := fun (g : AddrGen) =>
    if g.len != 0 && decide (g.len ≤ g.ptr) then ({ g with ptr := g.ptr % g.len }, true) else (g, false)
  match f with
  | 0 => ({ g with base := v.truncate 40 }, false)
  | 1 => trim { g with len := w }
  | 2 => trim { g with ptr := w }
  | _ => ({ g with step := w }, false)
/-- The selector of AGW and AGR: IMM[2:0] and IMM[5:4]. -/
def agSelOk (imm : Nat) : Bool := decide (imm < 64) && !imm.testBit 3

/-- AGW: a field of a generator = ra; a reduced pointer sets its CIRC_TRIM bit. -/
def Chip.iAgw (c : Chip) (n rd ra imm : Nat) : Chip :=
  c.issue n (rd == 0 && agSelOk imm) [.s ra] fun c p =>
    let k := imm % 8
    let r := (p.agGet k).put (imm / 16) (p.sget ra)
    Eff.pod c n fun q =>
      let q := q.agSet k r.1
      if r.2 then { q with agstat := q.agstat ||| BitVec.ofNat 64 (2 ^ k) } else q
/-- AGR: rd = a field of a generator. -/
def Chip.iAgr (c : Chip) (n rd ra imm : Nat) : Chip :=
  c.issue n (ra == 0 && agSelOk imm) [.s rd] fun c p =>
    Eff.pod c n fun q => q.sset rd ((p.agGet (imm % 8)).field (imm / 16))

/-- JR: jumps to ra[15:0]. -/
def Chip.iJr (c : Chip) (n rd ra imm : Nat) : Chip :=
  c.issue n (rd == 0 && imm == 0) [.s ra] fun c p => Eff.goto c n ((p.sget ra).truncate 16 &&& 0xFFFC#16)
/-- JALR: as JR, and PC + 4 to RD. -/
def Chip.iJalr (c : Chip) (n rd ra imm : Nat) : Chip :=
  c.issue n (imm == 0) [.s rd, .s ra] fun c p =>
    Eff.goto (c.modPod n fun p => p.link rd) n ((p.sget ra).truncate 16 &&& 0xFFFC#16)

/-- What TIMRD reads (R104): part 0 and 1 of a time base, or the tick number. -/
def Chip.timeWord (c : Chip) (src part : Nat) : W64 :=
  if src = 6 then BitVec.ofNat 64 c.tick
  else
    let t := (c.base src).val / 2 ^ 28
    let sec := t / 2 ^ 16 / 1000000000
    if part = 1 then BitVec.ofNat 64 (sec % 2 ^ 48)
    else BitVec.ofNat 64 (sec % 2 ^ 16 * 2 ^ 48 + t / 2 ^ 16 % 1000000000 * 2 ^ 16 + t % 2 ^ 16)
def timeSelOk (imm : Nat) : Bool :=
  decide (imm < 32) && decide (imm % 8 ≠ 7) && (decide (imm / 8 = 0) || (decide (imm / 8 = 1) && decide (imm % 8 ≠ 6)))
/-- TIMRD: rd = a time base or the tick number. -/
def Chip.iTimrd (c : Chip) (n rd ra imm : Nat) : Chip :=
  c.issue n (ra == 0 && timeSelOk imm) [.s rd] fun c _ =>
    Eff.pod c n fun q => q.sset rd (c.timeWord (imm % 8) (imm / 8))

/-- A publish buffer of the plan in force. -/
def Chip.pubBuf (c : Chip) (b : Nat) : Option PubBuf := match c.sched.plan with
  | some p => p.bufs.find? fun x => x.buf == b
  | none => none
/-- FBW: the half of publish buffer IMM that receives this tick's output. Only a pod that holds a taken tick-bound sprout
of the owner may ask (R105). -/
def Chip.iFbw (c : Chip) (n rd ra imm : Nat) : Chip :=
  c.issue n (ra == 0) [.s rd] fun c p => match c.pubBuf imm with
    | some x =>
      if p.held.any fun h => h.2.taken && h.2.sprout.tb && h.2.sprout.task == x.owner then
        Eff.pod c n fun q => q.sset rd (BitVec.ofNat 64 (cellBase + if x.published then x.half0 else x.half1))
      else .trap c 1 p.ownPc
    | none => .trap c 1 p.ownPc
/-- FBR: the half last published. -/
def Chip.iFbr (c : Chip) (n rd ra imm : Nat) : Chip :=
  c.issue n (ra == 0) [.s rd] fun c p => match c.pubBuf imm with
    | some x => Eff.pod c n fun q => q.sset rd (BitVec.ofNat 64 (cellBase + if x.published then x.half1 else x.half0))
    | none => .trap c 1 p.ownPc

/-- DWR: `imm` 128-bit words of the own data memory go to the register space as one transfer (R106). (Model: DEDUCED, log 24) -/
def Chip.iDwr (c : Chip) (n rd ra imm : Nat) (chks : List LineCheck) : Chip :=
  c.issue n (decide (1 ≤ imm ∧ imm ≤ 64)) [.s rd, .s ra] fun c p =>
    let src := (p.sget ra).toNat
    let dst := (p.sget rd).toNat % 2 ^ 40
    let len := 16 * imm
    if src % 16 != 0 then .trap c 5 src
    else if dst % 16 != 0 || decide (dst % 4096 + len > 4096) then .trap c 5 dst
    else if src + len > 0x40000 then .trap c 4 src
    else if p.stores.length ≥ 8 || p.awaits src len then .stall c
    else match c.checkLines 2 n (linesOf (podWin n + src) len) chks with
      | (c, .wait) => .stall c
      | (c, .bad) => .trap c 4 src
      | (c, .ok) =>
        if spaceOf dst != .regs then .done (c.badStore n 3 dst)
        else Eff.pod c n fun p =>
          { p with stores := p.stores ++ [{ addr := dst, bytes := c.bytesAt (podWin n + src) len, dwr := true }] }

/-! ## The commands -/

/-- BEQ (see `Chip.iBeq`). -/
def execBeq (p : Fin 32) (ra rb : BitVec 5) (off : BitVec 15) (s : State) : Out :=
  s.onChip (s.chip.iBeq p.val ra.toNat rb.toNat off.toNat)
/-- BNE (see `Chip.iBne`). -/
def execBne (p : Fin 32) (ra rb : BitVec 5) (off : BitVec 15) (s : State) : Out :=
  s.onChip (s.chip.iBne p.val ra.toNat rb.toNat off.toNat)
/-- BLT (see `Chip.iBlt`). -/
def execBlt (p : Fin 32) (ra rb : BitVec 5) (off : BitVec 15) (s : State) : Out :=
  s.onChip (s.chip.iBlt p.val ra.toNat rb.toNat off.toNat)
/-- BGE (see `Chip.iBge`). -/
def execBge (p : Fin 32) (ra rb : BitVec 5) (off : BitVec 15) (s : State) : Out :=
  s.onChip (s.chip.iBge p.val ra.toNat rb.toNat off.toNat)
/-- BLTU (see `Chip.iBltu`). -/
def execBltu (p : Fin 32) (ra rb : BitVec 5) (off : BitVec 15) (s : State) : Out :=
  s.onChip (s.chip.iBltu p.val ra.toNat rb.toNat off.toNat)
/-- BGEU (see `Chip.iBgeu`). -/
def execBgeu (p : Fin 32) (ra rb : BitVec 5) (off : BitVec 15) (s : State) : Out :=
  s.onChip (s.chip.iBgeu p.val ra.toNat rb.toNat off.toNat)
/-- BR (see `Chip.iBr`). -/
def execBr (p : Fin 32) (ra rb : BitVec 5) (off : BitVec 15) (s : State) : Out :=
  s.onChip (s.chip.iBr p.val ra.toNat rb.toNat off.toNat)
/-- BL (see `Chip.iBl`). -/
def execBl (p : Fin 32) (ra rb : BitVec 5) (off : BitVec 15) (s : State) : Out :=
  s.onChip (s.chip.iBl p.val ra.toNat rb.toNat off.toNat)
/-- REP (see `Chip.iRep`). -/
def execRep (p : Fin 32) (lvl : BitVec 2) (len : BitVec 12) (count : BitVec 16) (s : State) : Out :=
  s.onChip (s.chip.iRep p.val lvl.toNat len.toNat count.toNat)
/-- GET (see `Chip.iGet`). -/
def execGet (p : Fin 32) (rd ra : BitVec 5) (imm : BitVec 12) (s : State) : Out :=
  s.onChip (s.chip.iGet p.val rd.toNat ra.toNat imm.toNat)
/-- DONE (see `Chip.iDone`). -/
def execDone (p : Fin 32) (rd ra : BitVec 5) (imm : BitVec 12) (s : State) : Out :=
  s.onChip (s.chip.iDone p.val rd.toNat ra.toNat imm.toNat)
/-- POST (see `Chip.iPost`). -/
def execPost (p : Fin 32) (rd ra : BitVec 5) (imm : BitVec 12) (s : State) : Out :=
  s.onChip (s.chip.iPost p.val rd.toNat ra.toNat imm.toNat)
/-- CANCEL (see `Chip.iCancel`). -/
def execCancel (p : Fin 32) (rd ra : BitVec 5) (imm : BitVec 12) (s : State) : Out :=
  s.onChip (s.chip.iCancel p.val rd.toNat ra.toNat imm.toNat)
/-- EVT (see `Chip.iEvt`). -/
def execEvt (p : Fin 32) (rd ra : BitVec 5) (imm : BitVec 12) (s : State) : Out :=
  s.onChip (s.chip.iEvt p.val rd.toNat ra.toNat imm.toNat)
/-- FENCE (see `Chip.iFence`). -/
def execFence (p : Fin 32) (rd ra : BitVec 5) (imm : BitVec 12) (s : State) : Out :=
  s.onChip (s.chip.iFence p.val rd.toNat ra.toNat imm.toNat)
/-- ERET (see `Chip.iEret`). -/
def execEret (p : Fin 32) (rd ra : BitVec 5) (imm : BitVec 12) (s : State) : Out :=
  s.onChip (s.chip.iEret p.val rd.toNat ra.toNat imm.toNat)
/-- MFSR (see `Chip.iMfsr`). -/
def execMfsr (p : Fin 32) (rd ra : BitVec 5) (imm : BitVec 12) (s : State) : Out :=
  s.onChip (s.chip.iMfsr p.val rd.toNat ra.toNat imm.toNat)
/-- MTSR (see `Chip.iMtsr`). -/
def execMtsr (p : Fin 32) (rd ra : BitVec 5) (imm : BitVec 12) (s : State) : Out :=
  s.onChip (s.chip.iMtsr p.val rd.toNat ra.toNat imm.toNat)
/-- AGW (see `Chip.iAgw`). -/
def execAgw (p : Fin 32) (rd ra : BitVec 5) (imm : BitVec 12) (s : State) : Out :=
  s.onChip (s.chip.iAgw p.val rd.toNat ra.toNat imm.toNat)
/-- AGR (see `Chip.iAgr`). -/
def execAgr (p : Fin 32) (rd ra : BitVec 5) (imm : BitVec 12) (s : State) : Out :=
  s.onChip (s.chip.iAgr p.val rd.toNat ra.toNat imm.toNat)
/-- REPR (see `Chip.iRepr`). -/
def execRepr (p : Fin 32) (rd ra : BitVec 5) (imm : BitVec 12) (s : State) : Out :=
  s.onChip (s.chip.iRepr p.val rd.toNat ra.toNat imm.toNat)
/-- JR (see `Chip.iJr`). -/
def execJr (p : Fin 32) (rd ra : BitVec 5) (imm : BitVec 12) (s : State) : Out :=
  s.onChip (s.chip.iJr p.val rd.toNat ra.toNat imm.toNat)
/-- JALR (see `Chip.iJalr`). -/
def execJalr (p : Fin 32) (rd ra : BitVec 5) (imm : BitVec 12) (s : State) : Out :=
  s.onChip (s.chip.iJalr p.val rd.toNat ra.toNat imm.toNat)
/-- TIMRD (see `Chip.iTimrd`). -/
def execTimrd (p : Fin 32) (rd ra : BitVec 5) (imm : BitVec 12) (s : State) : Out :=
  s.onChip (s.chip.iTimrd p.val rd.toNat ra.toNat imm.toNat)
/-- FBW (see `Chip.iFbw`). -/
def execFbw (p : Fin 32) (rd ra : BitVec 5) (imm : BitVec 12) (s : State) : Out :=
  s.onChip (s.chip.iFbw p.val rd.toNat ra.toNat imm.toNat)
/-- FBR (see `Chip.iFbr`). -/
def execFbr (p : Fin 32) (rd ra : BitVec 5) (imm : BitVec 12) (s : State) : Out :=
  s.onChip (s.chip.iFbr p.val rd.toNat ra.toNat imm.toNat)
/-- DWR (see `Chip.iDwr`). -/
def execDwr (p : Fin 32) (rd ra : BitVec 5) (imm : BitVec 12) (chks : List LineCheck) (s : State) : Out :=
  s.onChip (s.chip.iDwr p.val rd.toNat ra.toNat imm.toNat chks)

end Sys2Proof.Machine
end

