-- ==== Sys2Proof/Machine/PodWord.lean ====
section
/-!
DEFINITION. The words of the pod instructions (R80, R81, R83 to R108): which instruction a word spells, and the commands that
run a word: NOP with the illegal words, and STEP.
-/
namespace Sys2Proof.Machine

/-- What a word does when pod `n` issues it. -/
abbrev Run := Chip → Nat → Chip

/-! ## Fields -/

/-- A format R instruction. -/
def asR (w : W32) (f : Chip → Nat → Bool → Nat → Nat → Nat → Nat → Chip) : Run := fun c n =>
  f c n (bit w 27) (fld w 26 22) (fld w 21 17) (fld w 16 12) (fld w 3 0)
/-- A format R instruction with an element width. -/
def asRW (w : W32) (f : Chip → Nat → Bool → Nat → Nat → Nat → Nat → Nat → Chip) : Run := fun c n =>
  f c n (bit w 27) (fld w 26 22) (fld w 21 17) (fld w 16 12) (fld w 11 10) (fld w 3 0)
/-- A format I instruction. -/
def asI (w : W32) (f : Chip → Nat → Bool → Nat → Nat → Nat → Chip) : Run := fun c n =>
  f c n (bit w 27) (fld w 26 22) (fld w 21 17) (fld w 13 0)
/-- A format M instruction; its data access meets `chk`. -/
def asM (w : W32) (chk : LineCheck) (f : Chip → Nat → Nat → Nat → Nat → Nat → LineCheck → Chip) : Run := fun c n =>
  f c n (fld w 24 20) (fld w 19 17) (fld w 16 15) (fld w 14 0) chk
/-- A format P instruction. -/
def asP (w : W32) (k : StepCheck) (f : Chip → Nat → Nat → Nat → Nat → Nat → Nat → LineCheck → LineCheck → Chip) : Run := fun c n =>
  f c n (fld w 25 21) (fld w 20 16) (fld w 15 13) (fld w 12 10) (fld w 9 0) k.data k.data2
/-- A format B instruction. -/
def asB (w : W32) (f : Chip → Nat → Nat → Nat → Nat → Chip) : Run := fun c n => f c n (fld w 24 20) (fld w 19 15) (fld w 14 0)
/-- A format S instruction. -/
def asS (w : W32) (f : Chip → Nat → Nat → Nat → Nat → Chip) : Run := fun c n => f c n (fld w 21 17) (fld w 16 12) (fld w 11 0)

/-! ## The majors -/

/-- Major 0x0 by MINOR (R83). -/
def major0 (w : W32) : Option Run := match fld w 11 4 with
  | 1 => some (asR w Chip.iAdd)
  | 2 => some (asR w Chip.iAddu)
  | 3 => some (asR w Chip.iSub)
  | 4 => some (asR w Chip.iSubu)
  | 5 => some (asR w Chip.iMul)
  | 6 => some (asR w Chip.iMulh)
  | 7 => some (asR w Chip.iMulhu)
  | 8 => some (asR w Chip.iAnd)
  | 9 => some (asR w Chip.iOr)
  | 0xa => some (asR w Chip.iXor)
  | 0xb => some (asR w Chip.iAndn)
  | 0xc => some (asR w Chip.iSll)
  | 0xd => some (asR w Chip.iSrl)
  | 0xe => some (asR w Chip.iSra)
  | 0xf => some (asR w Chip.iSlt)
  | 0x10 => some (asR w Chip.iSltu)
  | 0x11 => some (asR w Chip.iMin)
  | 0x12 => some (asR w Chip.iMax)
  | 0x13 => some (asR w Chip.iMinu)
  | 0x14 => some (asR w Chip.iMaxu)
  | 0x15 => some (asR w Chip.iClz)
  | 0x16 => some (asR w Chip.iSextb)
  | 0x17 => some (asR w Chip.iSexth)
  | 0x18 => some (asR w Chip.iSextw)
  | _ => none

/-- Major 0x1 by MINOR[5:0] (R86). -/
def major1 (w : W32) : Option Run := match fld w 9 4 with
  | 0 => some (asRW w Chip.iVadd)
  | 1 => some (asRW w Chip.iVaddu)
  | 2 => some (asRW w Chip.iVsub)
  | 3 => some (asRW w Chip.iVsubu)
  | 4 => some (asRW w Chip.iVmul)
  | 5 => some (asRW w Chip.iVmulq)
  | 6 => some (asRW w Chip.iVand)
  | 7 => some (asRW w Chip.iVor)
  | 8 => some (asRW w Chip.iVxor)
  | 9 => some (asRW w Chip.iVsll)
  | 0xa => some (asRW w Chip.iVsrl)
  | 0xb => some (asRW w Chip.iVsra)
  | 0xc => some (asRW w Chip.iVmin)
  | 0xd => some (asRW w Chip.iVmax)
  | 0xe => some (asRW w Chip.iVcmpeq)
  | 0xf => some (asRW w Chip.iVcmplt)
  | 0x10 => some (asRW w Chip.iVsplat)
  | 0x11 => some (asRW w Chip.iVext)
  | 0x12 => some (asRW w Chip.iVins)
  | 0x13 => some (asRW w Chip.iVsel)
  | _ => none

/-- Major 0x2 by MINOR (R88). -/
def major2 (w : W32) : Option Run := match fld w 11 4 with
  | 0 => some (asR w Chip.iFadd)
  | 1 => some (asR w Chip.iFsub)
  | 2 => some (asR w Chip.iFmul)
  | 3 => some (asR w Chip.iFdiv)
  | 4 => some (asR w Chip.iFsqrt)
  | 5 => some (asR w Chip.iFma)
  | 6 => some (asR w Chip.iFms)
  | 7 => some (asR w Chip.iFmin)
  | 8 => some (asR w Chip.iFmax)
  | 9 => some (asR w Chip.iFabs)
  | 0xa => some (asR w Chip.iFneg)
  | 0xb => some (asR w Chip.iFcmpeq)
  | 0xc => some (asR w Chip.iFcmplt)
  | 0xd => some (asR w Chip.iFcmple)
  | 0xe => some (asR w Chip.iFcvtws)
  | 0xf => some (asR w Chip.iFcvtsw)
  | 0x10 => some (asR w Chip.iFsum)
  | 0x11 => some (asR w Chip.iFdot)
  | 0x12 => some (asR w Chip.iFsplat)
  | _ => none

/-- Major 0x3 by MINOR (R92). -/
def major3 (w : W32) : Option Run := match fld w 11 4 with
  | 1 => some (asR w Chip.iMac2l)
  | 2 => some (asR w Chip.iMac2h)
  | 3 => some (asR w Chip.iMsu2l)
  | 4 => some (asR w Chip.iMsu2h)
  | 5 => some (asR w Chip.iMacp)
  | 8 => some (asR w Chip.iAclr)
  | 9 => some (asR w Chip.iAload)
  | 0xa => some (asR w Chip.iAread)
  | 0xb => some (asR w Chip.iAadd)
  | 0xc => some (asR w Chip.iAgrd)
  | 0xd => some (asR w Chip.iAseth)
  | _ => none

/-- Major 0x4 by OP (R84). -/
def major4 (w : W32) : Option Run := match fld w 16 14 with
  | 0 => some (asI w Chip.iAddi)
  | 1 => some (asI w Chip.iAndi)
  | 2 => some (asI w Chip.iOri)
  | 3 => some (asI w Chip.iXori)
  | 4 => some (asI w Chip.iSlli)
  | 5 => some (asI w Chip.iSrli)
  | 6 => some (asI w Chip.iSrai)
  | 7 => some (asI w Chip.iSlti)
  | _ => none

/-- Major 0x6 by SZ (R94). -/
def major6 (w : W32) (k : StepCheck) : Option Run := match fld w 27 25 with
  | 0 => some (asM w k.data Chip.iLb)
  | 1 => some (asM w k.data Chip.iLbu)
  | 2 => some (asM w k.data Chip.iLh)
  | 3 => some (asM w k.data Chip.iLhu)
  | 4 => some (asM w k.data Chip.iLw)
  | 5 => some (asM w k.data Chip.iLwu)
  | 6 => some (asM w k.data Chip.iLd)
  | 7 => some (asM w k.data Chip.iLv)
  | _ => none

/-- Major 0x7 by SZ (R94). -/
def major7 (w : W32) (k : StepCheck) : Option Run := match fld w 27 25 with
  | 0 => some (asM w k.data Chip.iSb)
  | 2 => some (asM w k.data Chip.iSh)
  | 4 => some (asM w k.data Chip.iSw)
  | 6 => some (asM w k.data Chip.iSd)
  | 7 => some (asM w k.data Chip.iSv)
  | _ => none

/-- Major 0x8 by KIND (R96). -/
def major8 (w : W32) (k : StepCheck) : Option Run := match fld w 27 26 with
  | 0 => some (asP w k Chip.iLdvv)
  | 1 => some (asP w k Chip.iLdstv)
  | _ => none

/-- Major 0x9 by COND (R97). -/
def major9 (w : W32) : Option Run := match fld w 27 25 with
  | 0 => some (asB w Chip.iBeq)
  | 1 => some (asB w Chip.iBne)
  | 2 => some (asB w Chip.iBlt)
  | 3 => some (asB w Chip.iBge)
  | 4 => some (asB w Chip.iBltu)
  | 5 => some (asB w Chip.iBgeu)
  | 6 => some (asB w Chip.iBr)
  | 7 => some (asB w Chip.iBl)
  | _ => none

/-- Major 0xA by FUNC, NOP apart (R100). -/
def majorA (w : W32) (k : StepCheck) : Option Run := match fld w 27 22 with
  | 1 => some (asS w Chip.iGet)
  | 2 => some (asS w Chip.iDone)
  | 3 => some (asS w Chip.iPost)
  | 4 => some (asS w Chip.iCancel)
  | 5 => some (asS w Chip.iEvt)
  | 6 => some (asS w Chip.iFence)
  | 7 => some (asS w Chip.iEret)
  | 8 => some (asS w Chip.iMfsr)
  | 9 => some (asS w Chip.iMtsr)
  | 0xa => some (asS w Chip.iAgw)
  | 0xb => some (asS w Chip.iAgr)
  | 0xc => some (asS w Chip.iRepr)
  | 0xd => some (asS w Chip.iJr)
  | 0xe => some (asS w Chip.iJalr)
  | 0xf => some (asS w Chip.iTimrd)
  | 0x10 => some (asS w Chip.iFbw)
  | 0x11 => some (asS w Chip.iFbr)
  | 0x12 => some (asS w fun c n rd ra imm => c.iDwr n rd ra imm [k.data, k.data2])
  | _ => none

/-- The instruction that a word spells, its accesses with what their checks find; none for NOP and for the words that spell none. -/
def decodeChecked (w : W32) (k : StepCheck) : Option Run := match fld w 31 28 with
  | 0 => major0 w
  | 1 => major1 w
  | 2 => major2 w
  | 3 => major3 w
  | 4 => major4 w
  | 5 => some fun c n => c.iMovw n (fld w 27 26) (bit w 25) (fld w 24 20) (fld w 19 16) (fld w 15 0)
  | 6 => major6 w k
  | 7 => major7 w k
  | 8 => major8 w k
  | 9 => major9 w
  | 10 => majorA w k
  | 11 => none
  | _ => some fun c n => c.iRep n (fld w 29 28) (fld w 27 16) (fld w 15 0)

/-- The instruction that a word spells when every check passes. -/
def decodeWord (w : W32) : Option Run := decodeChecked w .pass

/-- NOP's FUNC, whatever its other fields hold. -/
def isNop (w : W32) : Bool := fld w 31 28 == 10 && fld w 27 22 == 0

/-- A word of no other instruction: NOP, or an illegal instruction (R108). -/
def Chip.iPlain (c : Chip) (n : Nat) (w : W32) : Chip :=
  if isNop w then c.iNop n (fld w 21 17) (fld w 16 12) (fld w 11 0) else c.issue n false [] fun c _ => .done c

/-- A word runs. -/
def Chip.runWord (c : Chip) (n : Nat) (w : W32) (k : StepCheck) : Chip := match decodeChecked w k with
  | some f => f c n
  | none => c.iPlain n w

/-- A word is fetched, with what its line check found, and runs (R68 cause 3). (Model: DESIGN CHOICE, log 5) -/
def Chip.fetchRun (c : Chip) (n : Nat) (chk : StepCheck) (w : W32) : Chip :=
  match c.checkLine 1 n ((c.pod n).fetchAddr n) chk.fetch with
  | (c, .wait) => c
  | (c, .bad) => c.fetchTrap n
  | (c, .ok) => c.runWord n w chk

/-- NOP, and every word that spells no instruction of another row: `chk` is what the fetch of its line found.
(Model: DESIGN CHOICE, log 91) -/
def execNop (p : Fin 32) (word : W32) (chk : LineCheck) (s : State) : Out :=
  if (decodeWord word).isSome then .refused (.illFormed "NOP")
  else if (s.chip.pod p.val).issues then s.onChip (s.chip.inWork fun c => c.fetchRun p.val { StepCheck.pass with fetch := chk } word)
  else s.onChip s.chip

/-! ## STEP (R73, R79) -/

/-- The pod stands halted again after its step. -/
def Pod.halt (p : Pod) : Pod :=
  { p with accept := 0, state := if p.state = .doubleTrap then .doubleTrap else .halted }

/-- One step of a halted pod: a pending overrun trap is entered and nothing else; else the instruction at its program counter
runs, with what its checks find. A GET that would sleep does not complete. (Model: DESIGN CHOICE, log 7) -/
def Chip.stepPod (c : Chip) (n : Nat) (chk : StepCheck) : Chip :=
  let p := c.pod n
  if p.state != .halted then c
  else match p.pendOverrun, p.inHandler with
    | some esp, false => c.modPod n fun p => { p with pendOverrun := none, started := true }.enterTrap 6 0 p.pc 0 esp
    | _, _ =>
      let c := c.modPod n fun p => { p with started := true, state := if p.inHandler then .handler else .running }
      let w := BitVec.ofNat 32 (c.numAt (p.fetchAddr n) 4)
      (c.inWork fun c => c.fetchRun n chk w).modPod n Pod.halt

end Sys2Proof.Machine
end

