-- ==== Sys2Proof/Machine/Settle.lean ====
section
/-!
DEFINITION. What a command asks of the parts beside the chip: a safety set committed or dropped (R301, R306), a pod stepped
(R73), a reset (R462). The chip notes each request; it is met within the same command.
-/
namespace Sys2Proof.Machine

/-- COMMIT of the set at SYS_SPS_ADDR (R301). In CONFIG a new commit takes the place of a pending set. -/
def State.commitSet (s : State) : State :=
  let h := if s.chip.inConfig && s.core.started && !s.core.fault then { s.husk with pend := [], confirm := false } else s.husk
  let a := s.chip.pair 0x300 % 2 ^ 40
  let chip := if s.chip.inConfig && s.core.started && !s.core.fault then
      s.chip.engineMeets a (min 65536 (max 64 (setLen (s.chip.engineBytes a 64))))
    else s.chip
  { s with husk := h, core := s.core.commit s.chip a, chip := chip }

/-- DISCARD, or the end of the 60 s: a pending set is dropped (R301). -/
def State.dropPending (s : State) : State :=
  let r := discardSet s.husk s.core
  { s with husk := r.1, core := r.2 }

/-- A write to SYS_SPS_CMD. (Model: DESIGN CHOICE, log 8; DEDUCED, log 90) -/
def State.spsCommand (s : State) : State :=
  let v := s.chip.spsReq
  let s := { s with chip := { s.chip with spsReq := 0 } }
  let s := if bit v 1 then s.dropPending else s
  if bit v 0 then s.commitSet else s

/-- The pods that were told to step do so; each meets `chk`. (Model: DESIGN CHOICE, log 7) -/
def State.stepPods (s : State) (chk : StepCheck) : State :=
  { s with chip := forL s.chip.stepReq (fun n c => c.stepPod n chk) { s.chip with stepReq := [] } }

/-- A reset of Corukan and the core. A module held by an order violation stays held until a power-on (R488).
(Model: DESIGN CHOICE, log 72; DEDUCED, log 84) -/
def State.resetBy (s : State) (cause : Nat) : State :=
  let r := s.resetTo cause
  { r with chip := { r.chip with orderHeld := s.chip.orderHeld && cause != 1 } }

/-- SYS_RESET KIND 1 and 2. (Model: DESIGN CHOICE, log 8) -/
def State.sysReset (s : State) : State :=
  let k := s.chip.resetReq
  { s with chip := { s.chip with resetReq := 0 } }.resetBy (if k = 1 then 4 else 5)

/-- Whether a command left a request. -/
def Chip.quiet (c : Chip) : Bool := c.spsReq == 0 && c.stepReq.isEmpty && c.resetReq == 0

/-- The requests of a command are met. (Model: DESIGN CHOICE, log 8) -/
def State.settle (s : State) (chk : StepCheck) : State :=
  if s.chip.quiet then s
  else
    let s := (s.spsCommand).stepPods chk
    if s.chip.resetReq = 0 then s else s.sysReset

/-- A command's change of the chip, with the requests it left. -/
def State.onChipThen (s : State) (c : Chip) : Out := .next ({ s with chip := c }.settle .pass)

/-- A write of a master to a register. (Model: DESIGN CHOICE, log 8) -/
def State.regw (s : State) (m : Master) (off : Nat) (v : W32) : Out := s.onChipThen (s.chip.regWrite m.val off v)
/-- A read of a master of a register. -/
def State.regr (s : State) (m : Master) (off : Nat) : Out := s.onChip (s.chip.afterRead m.val off)
/-- A change of the chip in which live work of a tick happens; nothing while no tick runs, or while a replay does the
work of ticks (R360). -/
def State.live (s : State) (f : Chip → Chip) : Out := s.onChip (if s.chip.liveWork then f s.chip else s.chip)

end Sys2Proof.Machine
end

