-- ==== Sys2Proof/Machine/ExecBoot.lean ====
section
/-!
DEFINITION. The resets, BOOT, the module states, AUTORUN, the watchdog, snapshots and the tick registers (R21, R441, R449 to R467, R488, R489).
-/
namespace Sys2Proof.Machine

/-- POWER_ON_RESET (R462): The rails rise. -/
def execPowerOnReset (s : State) : Out := .next (s.resetBy 1)

/-- PIN_RESET (R462): RESET_N is low. -/
def execPinReset (s : State) : Out := .next (s.resetBy 2)

/-- RAIL_RESET (R441): A rail is below its reset level. -/
def execRailReset (s : State) : Out := .next (s.resetBy 3)

/-- RAIL_ORDER_VIOLATION (R488): A rail falls out of order: the module is held in RESET. -/
def execRailOrderViolation (s : State) : Out :=
  let t := s.resetBy 3
  .next { t with chip := { t.chip with orderHeld := true } }

/-- XREF_LOSS (R489): XREF is missing in a state later than RESET: a pin reset. -/
def execXrefLoss (s : State) : Out := .next (if s.chip.modState == .reset then s else s.resetBy 2)

/-- FULL_RESET (R462): SYS_RESET is written with KIND 1. -/
def execFullReset (m : Master) (v : W32) (s : State) : Out := s.regw m 0x21C (setFld v 1 0 1)

/-- WARM_RESET (R462): SYS_RESET is written with KIND 2. -/
def execWarmReset (m : Master) (v : W32) (s : State) : Out := s.regw m 0x21C (setFld v 1 0 2)

/-- BOOT (R454): RESET_N rises with the straps at their levels; `trained` and `fwOk` say how steps 1 and 9 end. -/
def execBoot (straps : BitVec 6) (trained fwOk : Bool) (s : State) : Out := .next ((s.boot straps trained fwOk).settle .pass)

/-- SYS_BOOT_CTRL_GO (R454): SYS_BOOT_CTRL.GO is written 1. -/
def execSysBootCtrlGo (_m : Master) (v : W32) (fwOk : Bool) (s : State) : Out :=
  .next ((s.bootGoWrite (setBit v 0 true) fwOk).settle .pass)

/-- STATE_REQUEST_CONFIG (R459): SYS_STATE_REQ.TO is written CONFIG. -/
def execStateRequestConfig (m : Master) (s : State) : Out := s.regw m 0x208 2

/-- STATE_REQUEST_SYNC (R457): SYS_STATE_REQ.TO is written SYNC. -/
def execStateRequestSync (m : Master) (s : State) : Out := s.regw m 0x208 3

/-- STATE_REQUEST_RUN (R458): SYS_STATE_REQ.TO is written RUN. -/
def execStateRequestRun (m : Master) (s : State) : Out := s.regw m 0x208 5

/-- RUN_ENTRY (R458): RUN is entered at its tick. -/
def execRunEntry (s : State) : Out := s.onChip s.chip.runEntry

/-- CONFIG_ENTRY (R459): CONFIG is entered when it falls due. (Model: DESIGN CHOICE, log 3) -/
def execConfigEntry (s : State) : Out := s.onChip s.chip.configEntry

/-- STANDBY_ENTRY (R345): SYNC ends. -/
def execStandbyEntry (s : State) : Out := s.onChip s.chip.standbyEntry

/-- AUTORUN_RUN_REQUEST (R461): 64 ticks after entry to STANDBY. -/
def execAutorunRunRequest (s : State) : Out := s.onChip s.chip.autoRun

/-- HOST_WATCHDOG_EXPIRY (R463): The host watchdog expires. -/
def execHostWatchdogExpiry (s : State) : Out := s.onChip s.chip.hostWdExpiry

/-- SYS_HOSTWD_KICK (R463): SYS_HOSTWD_KICK is written. -/
def execSysHostwdKick (m : Master) (v : W32) (s : State) : Out := s.regw m 0x224 (setBit v 0 true)

/-- SNAPSHOT_REQUEST (R464): SYS_SNAP_CTRL.GO is written 1. -/
def execSnapshotRequest (m : Master) (v : W32) (s : State) : Out := s.regw m 0x238 (setBit v 0 true)

/-- SNAPSHOT_DONE (R464): The copy of a snapshot completes. -/
def execSnapshotDone (s : State) : Out := s.onChip s.chip.snapDone

/-- TICK_REG_PERIOD_WRITE (R21): SYS_TICK_PERIOD is written. -/
def execTickRegPeriodWrite (m : Master) (v : W32) (s : State) : Out := s.regw m 0x100 v

/-- TICK_REG_UL_WRITE (R21): SYS_TICK_UL is written. -/
def execTickRegUlWrite (m : Master) (v : W32) (s : State) : Out := s.regw m 0x104 v

/-- TICK_REG_DL_WRITE (R21): SYS_TICK_DL is written. -/
def execTickRegDlWrite (m : Master) (v : W32) (s : State) : Out := s.regw m 0x108 v

/-- TICK_REG_TIER_WRITE (R21): SYS_TICK_TIER is written. -/
def execTickRegTierWrite (m : Master) (v : W32) (s : State) : Out := s.regw m 0x10C v

end Sys2Proof.Machine
end

