-- ==== Sys2Proof/Machine/ExecDio.lean ====
section
/-!
DEFINITION. The commands of the general inputs and outputs (R396 to R412).
-/
namespace Sys2Proof.Machine

/-- DIO_DEBOUNCED_EDGE (R397, R399): The level at a pin changes; one held for DEB is the debounced level. -/
def execDioDebouncedEdge (n : Fin 32) (x : PinEdge) (s : State) : Out := s.onChip (s.chip.dioEdge n.val x)

/-- DIO_OUT_WRITE (R401): DIO_OUT is written. -/
def execDioOutWrite (m : Master) (v : W32) (s : State) : Out := s.regw m 0xD00018 v

/-- DIO_OSET_WRITE (R401): DIO_OSET is written. -/
def execDioOsetWrite (m : Master) (v : W32) (s : State) : Out := s.regw m 0xD0001C v

/-- DIO_ORST_WRITE (R401): DIO_ORST is written. -/
def execDioOrstWrite (m : Master) (v : W32) (s : State) : Out := s.regw m 0xD00020 v

/-- DIO_CLR (R406): DIO_CLR is written; `cool` says whether every junction is below 135 °C at the next t0. -/
def execDioClr (_m : Master) (v : W32) (cool : Bool) (s : State) : Out :=
  if bit v 0 then s.onChip (s.chip.modDio fun d => { d with clr := some (some cool) }) else .next s

/-- DIO_DEB_WRITE (R397): DIO_DEB[n] is written. -/
def execDioDebWrite (m : Master) (n : Fin 32) (v : W32) (s : State) : Out := s.regw m (0xD00100 + 4 * n.val) v

/-- DIO_OVERCURRENT (R405): A switch has been in current limit for 500 µs. -/
def execDioOvercurrent (n : Fin 32) (s : State) : Out := s.onChip (s.chip.dioTrip n.val)

/-- DIO_OVERTEMPERATURE (R405): A switch junction is above 150 °C. -/
def execDioOvertemperature (n : Fin 32) (s : State) : Out := s.onChip (s.chip.dioTrip n.val)

/-- FIELD_UNDERVOLTAGE (R405): The field supply has been below 16 V for 100 µs. -/
def execFieldUndervoltage (s : State) : Out := s.onChip s.chip.fieldUnder

/-- FIELD_GOOD (R408): The field supply has been good for 10 ms. -/
def execFieldGood (s : State) : Out := s.onChip s.chip.fieldGood

/-- FIELD_WARN_CROSSING (R408): The field supply crosses 19.2 V or 16 V. -/
def execFieldWarnCrossing (x : FieldCross) (s : State) : Out := s.onChip (s.chip.fieldCross x)

/-- DIO_LINK_TIMEOUT (R410): 100 µs without a well-formed command frame. -/
def execDioLinkTimeout (s : State) : Out := s.onChip s.chip.dioTimeout

end Sys2Proof.Machine
end

