-- ==== Sys2Proof/Machine/ExecEth.lean ====
section
/-!
DEFINITION. The commands of the plant ports (R382 to R395).
-/
namespace Sys2Proof.Machine

/-- ETH_FRAME_RECEIVE (R386): A frame, without its FCS, is received. -/
def execEthFrameReceive (p : Fin 2) (bytes : List Byte) (fcsOk : Bool) (s : State) : Out :=
  s.onChip (s.chip.ethReceive p.val bytes fcsOk)

/-- KPP_COMMAND (R391): The oldest command frame is checked. -/
def execKppCommand (s : State) : Out := s.onChip s.chip.kppCommand

/-- KPP_READ (R392): A READ operation runs. -/
def execKppRead (s : State) : Out := s.onChip s.chip.kppRead

/-- KPP_WRITE (R392): A WRITE operation runs. -/
def execKppWrite (s : State) : Out := s.onChipThen s.chip.kppWrite

/-- KPP_DOORBELL (R392): A DOORBELL operation runs. -/
def execKppDoorbell (s : State) : Out := s.onChip s.chip.kppDoorbell

/-- ETH_TRANSMIT (R389): An owned transmit descriptor is sent. -/
def execEthTransmit (p : Fin 2) (s : State) : Out := s.onChip (s.chip.ethTransmit p.val)

/-- ETH_TX_COMPLETE (R389): A frame has left. -/
def execEthTxComplete (p : Fin 2) (s : State) : Out := s.onChip (s.chip.ethTxComplete p.val)

/-- FORWARDED_FRAME_EGRESS (R388): A frame of an egress queue leaves. -/
def execForwardedFrameEgress (p : Fin 2) (s : State) : Out := s.onChip (s.chip.forwardEgress p.val)

/-- ETH_LINK_CHANGE (R394): The link of a port changes. -/
def execEthLinkChange (p : Fin 2) (up : Bool) (s : State) : Out := s.onChip (s.chip.ethLink p.val up)

/-- ETH_KEY_WRITE (R393): A word of ETH_KEY[k] is written. -/
def execEthKeyWrite (m : Master) (k : Fin 4) (word : Fin 16) (v : W32) (s : State) : Out :=
  s.regw m (ethKey k.val word.val) v

/-- ETH_PORT_WRITE (R395): A word of ETH_PORT[p] is written. -/
def execEthPortWrite (m : Master) (p : Fin 2) (word : Fin 32) (v : W32) (s : State) : Out :=
  s.regw m (ethPort p.val word.val) v

/-- ETH_CNT_READ (R395): A counter of a port is read: words 0 to 8, or DROP of a bucket. -/
def execEthCntRead (m : Master) (p : Fin 2) (word : Fin 15) (s : State) : Out :=
  s.regr m (if word.val < 9 then ethCnt p.val word.val else ethRl p.val (2 * (word.val - 9) + 1))

end Sys2Proof.Machine
end

