-- ==== Sys2Proof/Machine/ExecFeedback.lean ====
section
/-!
DEFINITION. The commands of the feedback unit (R138 to R160).
-/
namespace Sys2Proof.Machine

/-- FBK_CLR (R155): An observer number is written to FBK_CLR. -/
def execFbkClr (m : Master) (k : BitVec 8) (s : State) : Out := s.regw m 0x400008 (k.zeroExtend 32)

/-- FBK_OBS_WRITE (R158): A word of FBK_OBS[k] is written. -/
def execFbkObsWrite (m : Master) (k : BitVec 8) (word : Fin 16) (v : W32) (s : State) : Out :=
  s.regw m (obsReg k.toNat word.val) v

/-- FBK_LCH_WRITE (R138): FBK_LCH[n] is written. -/
def execFbkLchWrite (m : Master) (n : Fin 16) (v : W32) (s : State) : Out := s.regw m (lchReg n.val 0) v

/-- FBK_DIV_WRITE (R156): A word of FBK_DIV[d] is written. -/
def execFbkDivWrite (m : Master) (d : Fin 4) (word : Fin 4) (v : W32) (s : State) : Out := s.regw m (divReg d.val word.val) v

/-- FBK_MIRROR_WRITE (R160): FBK_MIRROR is written. -/
def execFbkMirrorWrite (m : Master) (v : W32) (s : State) : Out := s.regw m 0x400004 v

/-- LCH_COUNT_EDGE (R139): The filtered levels of A and B change. -/
def execLchCountEdge (n : Fin 16) (a b : Bool) (s : State) : Out := s.onChip (s.chip.lchCountEdge n.val a b)

/-- LCH_Z_EDGE (R149): A qualified Z edge. -/
def execLchZEdge (n : Fin 16) (s : State) : Out := s.onChip (s.chip.lchZEdge n.val)

/-- HALL_EDGE (R141): The Hall levels change. -/
def execHallEdge (n : Fin 16) (hu hv hw : Bool) (s : State) : Out := s.onChip (s.chip.hallEdge n.val hu hv hw)

/-- DIVIDED_OUTPUT_EMIT (R157): A divided output emits `due` owed counts; `limited` says that its rate held it back. -/
def execDividedOutputEmit (d : Fin 4) (due : Nat) (limited : Bool) (s : State) : Out :=
  s.onChip (s.chip.divEmit d.val due limited)

/-- FBK_LCH_QERR_READ (R160): FBK_LCH[n].QERR is read. -/
def execFbkLchQerrRead (m : Master) (n : Fin 16) (s : State) : Out := s.regr m (lchReg n.val 3)

end Sys2Proof.Machine
end

