-- ==== Sys2Proof/Machine/ExecHealth.lean ====
section
/-!
DEFINITION. The commands of the health unit (R433 to R447).
-/
namespace Sys2Proof.Machine

/-- HEALTH_EVALUATION (R435): The readings of the replicas, every 1 ms. -/
def execHealthEvaluation (w : BitVec 128) (s : State) : Out := s.onChip (s.chip.evaluateHealth w.toNat)

/-- CRITICAL_REACTION (R438): The critical reaction, where its cause stands. -/
def execCriticalReaction (s : State) : Out := s.onChip s.chip.criticalReaction

/-- TEMPERATURE_SAMPLE (R433): The temperature sensors. -/
def execTemperatureSample (w : BitVec 256) (s : State) : Out := s.onChip (s.chip.temperature w.toNat)

/-- AGEING_SAMPLE (R433): The ageing sensors. -/
def execAgeingSample (w : BitVec 384) (s : State) : Out := s.onChip (s.chip.ageing w.toNat)

/-- TTL_UPDATE (R439): The hourly minimum of S4. -/
def execTtlUpdate (s : State) : Out := s.onChip s.chip.ttlUpdate

/-- DRAM_RETENTION_MEASURE (R439): The retention margin is measured. -/
def execDramRetentionMeasure (ms : BitVec 16) (s : State) : Out := s.onChip (s.chip.retention ms.toNat)

/-- DRAM_REFRESH_CHANGE (R439): The refresh rate changes at a ring-cycle boundary. -/
def execDramRefreshChange (s : State) : Out := s.onChip s.chip.refreshChange

/-- EYE_MEASURE (R445): The eye of a link is measured. -/
def execEyeMeasure (port : Fin 37) (h w : BitVec 16) (s : State) : Out := s.onChip (s.chip.eye port.val h.toNat w.toNat)

/-- RON_MEASURE (R445): The on-resistance of a switch is measured. -/
def execRonMeasure (k : Fin 40) (r : BitVec 16) (s : State) : Out := s.onChip (s.chip.ron k.val r.toNat)

/-- SUPPLY_DIP_START (R442): A rail falls below its warning level. -/
def execSupplyDipStart (x : RailFall) (s : State) : Out := s.onChip (s.chip.dipStart x.r.val x.mv.toNat)

/-- SUPPLY_DIP (R442): A dip of a rail ends. -/
def execSupplyDip (r : Fin 8) (dur : W32) (vmin : BitVec 16) (s : State) : Out :=
  s.onChip (s.chip.dipOver r.val dur.toNat vmin.toNat)

/-- NV_INHIBIT_END (R443): 1 ms after a dip. -/
def execNvInhibitEnd (s : State) : Out := s.onChip s.chip.inhibitEnd

/-- HLT_SHED_CMD (R440): HLT_SHED_CMD is written with GO 1. -/
def execHltShedCmd (m : Master) (v : W32) (s : State) : Out := s.regw m 0xB00020 (setBit v 31 true)

/-- HLT_RAIL_VMIN_READ (R447): VMIN of a rail is read. -/
def execHltRailVminRead (m : Master) (r : Fin 8) (s : State) : Out := s.regr m (0xB00400 + 4 * r.val)

end Sys2Proof.Machine
end

