-- ==== Sys2Proof/Machine/ExecHost.lean ====
section
/-!
DEFINITION. Register accesses without a row of their own, and the commands of the host interface (R3, R469 to R485).
-/
namespace Sys2Proof.Machine

/-- SYS_AERR_CNT_READ (R474): SYS_AERR_INFO is read. -/
def execSysAerrCntRead (m : Master) (s : State) : Out := s.regr m 0x28

/-- LO_WORD_READ_LATCH (R473): A word is read: a LO word of a read-only pair latches its HI word. -/
def execLoWordReadLatch (m : Master) (off : BitVec 24) (s : State) : Out := s.regr m off.toNat

/-- REGISTER_WRITE (R3): A register is written; a write that is not one whole aligned word is discarded and logged with KIND 4 (R470). -/
def execRegisterWrite (m : Master) (off : BitVec 24) (v : W32) (whole : Bool) (s : State) : Out :=
  if whole && off.toNat % 4 == 0 then s.regw m off.toNat v
  else s.onChip (s.chip.logAccess m.val 4 (regBase + off.toNat))

/-- BAR2_ACCESS (R477): A PCIe access through BAR2. -/
def execBar2Access (write : Bool) (off : BitVec 24) (data : List Byte) (chks : List LineCheck) (s : State) : Out :=
  s.onChip (s.chip.barAccess write off.toNat data chks)

/-- HST_DOORBELL (R482): A doorbell number is written. -/
def execHstDoorbell (m : Master) (v : W32) (s : State) : Out := s.regw m (hst 8) v

/-- COMMIT_SUBMIT (R479): HST_CMT_STAT.GO is written 1. -/
def execCommitSubmit (m : Master) (v : W32) (s : State) : Out := s.regw m (hst 0x24) (setBit v 31 true)

/-- COMMIT_COPY_DONE (R479): The copy of a commit list completes. -/
def execCommitCopyDone (chks : List LineCheck) (s : State) : Out := s.onChip (s.chip.commitCopied chks)

/-- COMMIT_APPLY (R480): The commits of this tick are applied. (Model: DESIGN CHOICE, log 3) -/
def execCommitApply (s : State) : Out := s.onChipThen s.chip.joinCommit

/-- MSIX_MESSAGE (R483): A vector sends its message. -/
def execMsixMessage (x : MsixSend) (s : State) : Out := s.onChip ((s.chip.pciWrite x.pci).msix x.vec.val)

/-- DMA_GO (R484): GO of a channel is written 1. -/
def execDmaGo (m : Master) (ch : Fin 8) (v : W32) (s : State) : Out := s.regw m (dmaReg ch.val 0) (setBit v 31 true)

/-- DMA_PIECE (R484): The next piece of the channel whose turn it is. -/
def execDmaPiece (data : List Byte) (pcieOk : Bool) (chks : List LineCheck) (s : State) : Out :=
  s.onChipThen (s.chip.dmaPiece data pcieOk chks)

/-- DMA_DONE (R484): A channel completes. -/
def execDmaDone (ch : Fin 8) (s : State) : Out := s.onChip (s.chip.dmaDone ch.val)

/-- PCIE_HOT_RESET (R478): A PCIe hot reset or the loss of the link. -/
def execPcieHotReset (s : State) : Out := s.onChip s.chip.endpointReset

end Sys2Proof.Machine
end

