-- ==== Sys2Proof/Machine/ExecLoop.lean ====
section
/-!
DEFINITION. The commands of the loop engine (R161 to R187).
-/
namespace Sys2Proof.Machine

/-- LPE_SWAP_SLOT (R176): A slot swap request. -/
def execLpeSwapSlot (m : Master) (v : W32) (s : State) : Out := s.regw m 0x200008 (setBit v 31 false)

/-- LPE_SWAP_GROUP (R177): A group swap request. -/
def execLpeSwapGroup (m : Master) (v : W32) (s : State) : Out := s.regw m 0x200008 (setBit v 31 true)

/-- LPE_MSW (R180): A mode-switch request. -/
def execLpeMsw (m : Master) (v : W32) (s : State) : Out := s.regw m 0x20000C v

/-- LPE_SLOT_WRITE (R185): A word of a slot is written: of its descriptor and OUT, or with `st` of its states. -/
def execLpeSlotWrite (m : Master) (slot : Fin 1024) (st : Bool) (word : Fin 16) (v : W32) (s : State) : Out :=
  s.regw m (if st then stateReg slot.val word.val else slotReg slot.val word.val) v

/-- LPE_BANK_WRITE (R175): A word of a coefficient bank is written. -/
def execLpeBankWrite (m : Master) (slot : Fin 1024) (bank : Fin 2) (word : Fin 64) (v : W32) (s : State) : Out :=
  s.regw m (bankReg slot.val bank.val word.val) v

/-- LPE_XF_WRITE (R185): A word of a transform unit is written. -/
def execLpeXfWrite (m : Master) (j : Fin 128) (word : Fin 8) (v : W32) (s : State) : Out := s.regw m (xfReg j.val word.val) v

/-- LPE_MSET_WRITE (R185): A word of a mode set is written. -/
def execLpeMsetWrite (m : Master) (n : Fin 128) (word : Fin 8) (v : W32) (s : State) : Out :=
  s.regw m (msetReg n.val word.val) v

/-- LPE_PEAK_READ (R187): LPE_PEAK is read. -/
def execLpePeakRead (m : Master) (s : State) : Out := s.regr m 0x200004

/-- LPE_GRP_CAUSE_READ (R186): CAUSE of a slot group is read. -/
def execLpeGrpCauseRead (m : Master) (g : Fin 64) (s : State) : Out := s.regr m (slotGrpReg g.val 1)

end Sys2Proof.Machine
end

