-- ==== Sys2Proof/Machine/ExecMem.lean ====
section
/-!
DEFINITION. The commands of the memory-integrity unit (R413 to R432).
-/
namespace Sys2Proof.Machine

/-- LINE_CORRECTION_DONE (R421): A correction is written back. -/
def execLineCorrectionDone (line : BitVec 34) (s : State) : Out := s.onChip (s.chip.correctionDone line.toNat)

/-- SCRUB_LINE (R430): The scrubber reads its next line. -/
def execScrubLine (chk : LineCheck) (s : State) : Out := s.onChip (s.chip.scrubLine chk)

/-- MEM_RELOAD (R426): MEM_RELOAD is written with FILL 0. -/
def execMemReload (m : Master) (v : W32) (s : State) : Out := s.regw m 0xA00008 (setBit v 31 false)

/-- MEM_ZERO_FILL (R426): MEM_RELOAD is written with FILL 1. -/
def execMemZeroFill (m : Master) (v : W32) (s : State) : Out := s.regw m 0xA00008 (setBit v 31 true)

/-- RELOAD_DONE (R426): A reload ends. -/
def execReloadDone (x : ReloadEnd) (s : State) : Out :=
  s.onChip (s.chip.reloadDone x.r.val (x.srcs.map fun e => (e.1.toNat, e.2)))

/-- MEM_REBUILT (R425): A region number is written to MEM_REBUILT; `bad` names the pending lines that fail their check. -/
def execMemRebuilt (_m : Master) (v : W32) (bad : List (BitVec 34)) (s : State) : Out :=
  s.onChip (s.chip.memRebuilt v (bad.map fun l => l.toNat))

/-- CORRECTION_LOG_EXPIRY (R427): WIN hours after the first correction of a line. -/
def execCorrectionLogExpiry (line : BitVec 34) (s : State) : Out := s.onChip (s.chip.logExpiry line.toNat)

/-- MEM_CFG_WRITE (R432): MEM_CFG is written. -/
def execMemCfgWrite (m : Master) (v : W32) (s : State) : Out := s.regw m 0xA00004 v

/-- MEM_CNT_READ (R432): MEM_CNT is read. -/
def execMemCntRead (m : Master) (s : State) : Out := s.regr m 0xA00020

end Sys2Proof.Machine
end

