-- ==== Sys2Proof/Machine/ExecPod.lean ====
section
/-!
DEFINITION. The commands that control pods and answer their fabric accesses (R38, R60, R73, R77 to R79, R106).
-/
namespace Sys2Proof.Machine

/-- FABRIC_STORE_ACK (R60): Store `idx` of the buffer is acknowledged: it takes effect. -/
def execFabricStoreAck (p : Fin 32) (idx : Fin 8) (chk : LineCheck) (s : State) : Out :=
  s.onChipThen (s.chip.inWork fun c => c.fabricAck p.val idx.val chk)

/-- DWR_TRANSFER_APPLY (R106): The oldest accepted transfer of a pod is applied whole. -/
def execDwrTransferApply (p : Fin 32) (s : State) : Out := s.onChipThen (s.chip.inWork fun c => c.dwrApply p.val)

/-- IMEM_WINDOW_WRITE (R419): Bytes to the instruction memory of a pod through its global window, as far as the memory reaches. -/
def execImemWindowWrite (m : Master) (p : Fin 32) (off : BitVec 16) (data : Transfer) (s : State) : Out :=
  let a := podWin p.val + 0x40000 + off.toNat
  s.onChip (match data.chk with
    | .fail _ _ => s.chip.storeParityFail a
    | _ => (s.chip.memStore m.val 1 a (data.bytes.take (0x10000 - off.toNat))).1)

/-- POD_RUN (R79): POD_CTRL.RUN is written 1. -/
def execPodRun (m : Master) (p : Fin 32) (s : State) : Out := s.regw m (0xE00000 + 0x1000 * p.val) 1

/-- POD_HALT (R118): POD_CTRL.RUN is written 0. -/
def execPodHalt (m : Master) (p : Fin 32) (s : State) : Out := s.regw m (0xE00000 + 0x1000 * p.val) 0

/-- POD_STEP (R73): POD_CTRL.STEP is written 1; the step meets `chk`. -/
def execPodStep (m : Master) (p : Fin 32) (chk : StepCheck) (s : State) : Out :=
  .next ({ s with chip := s.chip.regWrite m.val (0xE00000 + 0x1000 * p.val) 2 }.settle chk)

/-- POD_RESTART (R77): POD_CTRL.RESTART is written 1. -/
def execPodRestart (m : Master) (p : Fin 32) (s : State) : Out := s.regw m (0xE00000 + 0x1000 * p.val) 4

end Sys2Proof.Machine
end

