-- ==== Sys2Proof/Machine/ProfEvents.lean ====
section
/-!
DEFINITION. The events within a profile phase as commands of their own (R212, R213, R222, R226, R228, R230, R235): each does,
for the unit it names, what the phase does when the event falls due in it, and nothing when the event is not due.
-/
namespace Sys2Proof.Machine

/-- The underrun allowance of a channel is used up. (Model: DESIGN CHOICE, log 4) -/
def Chip.allowanceEnds (c : Chip) (k : Nat) : Chip :=
  let r := c.allowanceTick k
  if r.2 then r.1 else c

/-- A switch whose level has now held for QUAL ticks: its edge, and what follows from it. (Model: DESIGN CHOICE, log 4) -/
def Chip.switchQualified (c : Chip) (k i : Nat) : Chip := match c.switchTick k i with
  | (d, some (level, p)) =>
    if c.swIsHome k i || i == 0 then
      if c.chState k = stHoming && i == c.homeSw k then d.homeCapture k (some (level, p)) else d
    else if level then (d.limitHit k i).1 else d
  | (_, none) => c

/-- The hard-stop condition has held for ITICKS ticks. (Model: DESIGN CHOICE, log 4) -/
def Chip.stallDetected (c : Chip) (k : Nat) : Chip :=
  if c.chState k = stHoming ∧ c.hstate k = 1 ∧ c.hmode k = 4 ∧ c.stallNow k = true ∧
      (c.chan k).home.stall + 1 ≥ max 1 (c.regF (homeReg k 0) 7 0) then c.homeStalled k
  else c

/-- The last tick of a hysteresis window. (Model: DESIGN CHOICE, log 4) -/
def Chip.windowCloses (c : Chip) (k : Nat) : Chip := match (c.chan k).home.window with
  | some n =>
    if 1 < n then c
    else
      let r := c.windowTick k
      if r.2 && c.chState k == stHoming then r.1.homeChatter k else r.1
  | none => c

/-- Homing has taken TIMEOUT ticks. (Model: DESIGN CHOICE, log 4) -/
def Chip.homeTimesOut (c : Chip) (k : Nat) : Chip :=
  let r := c.homeClock k
  if c.chState k = stHoming ∧ r.2 = true then r.1.homeAbortStop k 2 else c

/-- A stepper channel that has rested for HOLDT ticks selects its holding current: HOLDING, and with OUTK 1 the reference
record. (Model: DESIGN CHOICE, log 4) -/
def Chip.holdSelected (c : Chip) (st : Nat) : Chip :=
  let d := c.holdCurrent st
  if !c.regB (stpReg st 0) 31 || c.regB (stpReg st 10) 1 || !d.regB (stpReg st 10) 3 then c
  else match (c.stepper st).prev with
    | some t => d.stepRef st t true
    | none => d

end Sys2Proof.Machine
end

