-- ==== Sys2Proof/Machine/ExecProfile.lean ====
section
/-!
DEFINITION. The commands of the profile engine (R192 to R239).
-/
namespace Sys2Proof.Machine

/-- DISARM (R199): PRF_CMD of a channel is written with CMD 0. -/
def execDisarm (m : Master) (k : Fin 256) (v : W32) (s : State) : Out := s.regw m (prfCh k.val 13) (setFld v 31 28 0)

/-- MOVE_POS (R194): PRF_CMD of a channel is written with CMD 1. -/
def execMovePos (m : Master) (k : Fin 256) (v : W32) (s : State) : Out := s.regw m (prfCh k.val 13) (setFld v 31 28 1)

/-- MOVE_VEL (R194): PRF_CMD of a channel is written with CMD 2. -/
def execMoveVel (m : Master) (k : Fin 256) (v : W32) (s : State) : Out := s.regw m (prfCh k.val 13) (setFld v 31 28 2)

/-- MOVE_TAB (R210): PRF_CMD of a channel is written with CMD 3. -/
def execMoveTab (m : Master) (k : Fin 256) (v : W32) (s : State) : Out := s.regw m (prfCh k.val 13) (setFld v 31 28 3)

/-- PAUSE (R201): PRF_CMD of a channel is written with CMD 4. -/
def execPause (m : Master) (k : Fin 256) (v : W32) (s : State) : Out := s.regw m (prfCh k.val 13) (setFld v 31 28 4)

/-- RESUME (R201): PRF_CMD of a channel is written with CMD 5. -/
def execResume (m : Master) (k : Fin 256) (v : W32) (s : State) : Out := s.regw m (prfCh k.val 13) (setFld v 31 28 5)

/-- STOP (R201): PRF_CMD of a channel is written with CMD 6. -/
def execStop (m : Master) (k : Fin 256) (v : W32) (s : State) : Out := s.regw m (prfCh k.val 13) (setFld v 31 28 6)

/-- HOME (R225): PRF_CMD of a channel is written with CMD 8. -/
def execHome (m : Master) (k : Fin 256) (v : W32) (s : State) : Out := s.regw m (prfCh k.val 13) (setFld v 31 28 8)

/-- CLR_LIM (R224): PRF_CMD of a channel is written with CMD 9. -/
def execClrLim (m : Master) (k : Fin 256) (v : W32) (s : State) : Out := s.regw m (prfCh k.val 13) (setFld v 31 28 9)

/-- PRF_CH_EN_WRITE (R192): Word 0 of PRF_CH[k], with EN, is written. -/
def execPrfChEnWrite (m : Master) (k : Fin 256) (v : W32) (s : State) : Out := s.regw m (prfCh k.val 0) v

/-- LIMIT_WRITE (R204): A limit of a channel is written: words 1 to 8. -/
def execLimitWrite (m : Master) (k : Fin 256) (word : Fin 8) (v : W32) (s : State) : Out :=
  s.regw m (prfCh k.val (1 + word.val)) v

/-- KAPPA_TGT_WRITE (R197): KAPPA_TGT of a channel is written. -/
def execKappaTgtWrite (m : Master) (k : Fin 256) (v : W32) (s : State) : Out := s.regw m (prfCh k.val 9) v

/-- PRF_GFIRE_NOW (R213): PRF_GFIRE is written with AT 0. -/
def execPrfGfireNow (m : Master) (v : W32) (s : State) : Out := s.regw m 0x300004 (setBit v 31 false)

/-- PRF_GFIRE_AT_TICK (R213): PRF_GFIRE is written with AT 1. -/
def execPrfGfireAtTick (m : Master) (v : W32) (s : State) : Out := s.regw m 0x300004 (setBit v 31 true)

/-- GROUP_FIRE_TICK_REACHED (R213): The FIRE_TICK of a group has come. -/
def execGroupFireTickReached (g : Fin 32) (s : State) : Out := s.live fun c => c.dueFire g.val

/-- TABLE_COMMIT (R210): COMMIT of a table is written with GO 1. -/
def execTableCommit (m : Master) (t : Fin 64) (v : W32) (s : State) : Out := s.regw m (tblReg t.val 5) (setBit v 31 true)

/-- TABLE_WITHDRAW (R210): COMMIT of a table is written with GO 0. -/
def execTableWithdraw (m : Master) (t : Fin 64) (v : W32) (s : State) : Out := s.regw m (tblReg t.val 5) (setBit v 31 false)

/-- BANK_VERIFY_DONE (R210): The verification of a bank ends. -/
def execBankVerifyDone (t : Fin 64) (s : State) : Out := s.onChip (s.chip.verifyDone t.val)

/-- PRF_TBL_WRITE (R210): A word of PRF_TBL[t] is written. -/
def execPrfTblWrite (m : Master) (t : Fin 64) (word : Fin 8) (v : W32) (s : State) : Out :=
  s.regw m (tblReg t.val word.val) v

/-- PRF_CMP_WRITE (R218): A word of PRF_CMP[u] is written. -/
def execPrfCmpWrite (m : Master) (u : Fin 64) (word : Fin 16) (v : W32) (s : State) : Out :=
  s.regw m (cmpReg u.val word.val) v

/-- UNDERRUN_ALLOWANCE_EXPIRY (R212): The underrun allowance of a channel ends. -/
def execUnderrunAllowanceExpiry (k : Fin 256) (s : State) : Out := s.live fun c => c.allowanceEnds k.val

/-- SWITCH_QUALIFIED (R222): A switch of a channel has held its level for QUAL ticks. -/
def execSwitchQualified (k : Fin 256) (j : Fin 3) (s : State) : Out := s.live fun c => c.switchQualified k.val j.val

/-- HOME_STALL_DETECTED (R226): The hard-stop condition has held for ITICKS ticks. -/
def execHomeStallDetected (k : Fin 256) (s : State) : Out := s.live fun c => c.stallDetected k.val

/-- HYST_WINDOW_CLOSE (R228): A hysteresis window closes. -/
def execHystWindowClose (k : Fin 256) (s : State) : Out := s.live fun c => c.windowCloses k.val

/-- HOME_TIMEOUT (R230): TIMEOUT ticks have elapsed in homing. -/
def execHomeTimeout (k : Fin 256) (s : State) : Out := s.live fun c => c.homeTimesOut k.val

/-- STEP_PULSE (R234): A step pulse rises, or falls after PW. -/
def execStepPulse (st : Fin 32) (rise : Bool) (s : State) : Out := s.onChip (s.chip.stepPulse st.val rise)

/-- STEPPER_HOLD_CURRENT (R235): COUNT has not changed for HOLDT ticks. -/
def execStepperHoldCurrent (st : Fin 32) (s : State) : Out := s.live fun c => c.holdSelected st.val

/-- PRF_STP_WRITE (R237): A word of PRF_STP[s] is written. -/
def execPrfStpWrite (m : Master) (st : Fin 32) (word : Fin 16) (v : W32) (s : State) : Out :=
  s.regw m (stpReg st.val word.val) v

/-- PRF_HOME_WRITE (R237): A word of PRF_HOME[k] is written. -/
def execPrfHomeWrite (m : Master) (k : Fin 256) (word : Fin 32) (v : W32) (s : State) : Out :=
  s.regw m (homeReg k.val word.val) v

/-- PRF_MSTAB_WRITE (R236): A word of a microstep table is written. -/
def execPrfMstabWrite (m : Master) (t : Fin 5) (index : Fin 128) (v : W32) (s : State) : Out :=
  s.regw m (0x33D000 + 512 * t.val + 4 * index.val) v

/-- PRF_GRP_CAUSE_READ (R219): CAUSE of a start group is read. -/
def execPrfGrpCauseRead (m : Master) (g : Fin 32) (s : State) : Out := s.regr m (prfGrp g.val 1)

end Sys2Proof.Machine
end

