-- ==== Sys2Proof/Machine/ExecRing.lean ====
section
/-!
DEFINITION. The commands of the cascade ring and the twins (R333 to R364).
-/
namespace Sys2Proof.Machine

/-- RING_SLOT_SEND (R338): A slot of the station starts: status, data or join. -/
def execRingSlotSend (kind : Fin 3) (s : State) : Out := s.onChip (s.chip.slotSend kind.val s.chip.twin.image)

/-- STATUS_FRAME (R347): A status frame, `t` sixteenths of a ns into the ring cycle. -/
def execStatusFrame (east : Bool) (t : Nat) (bytes : List Byte) (codeOk : Bool) (s : State) : Out :=
  s.onChip (s.chip.statusFrame east t bytes codeOk)

/-- DATA_FRAME (R342): A data frame. -/
def execDataFrame (east : Bool) (t : Nat) (bytes : List Byte) (codeOk : Bool) (s : State) : Out :=
  s.onChip (s.chip.dataFrame east t bytes codeOk)

/-- COLD_START_FRAME (R345): A cold-start frame, which arrives at the time that TB0 shows. -/
def execColdStartFrame (east : Bool) (bytes : List Byte) (codeOk : Bool) (s : State) : Out :=
  s.onChip (s.chip.coldStartFrame east s.chip.ringNow bytes codeOk)

/-- JOIN_FRAME (R360): A join frame. -/
def execJoinFrame (east : Bool) (t : Nat) (bytes : List Byte) (codeOk : Bool) (s : State) : Out :=
  let r := s.chip.joinFrame s.core east t bytes codeOk
  .next { s with chip := r.1, core := r.2 }

/-- TWIN_INPUT_FLASH (R354): The partner's twin input flash. -/
def execTwinInputFlash (bytes : List Byte) (codeOk : Bool) (s : State) : Out :=
  s.onChip (s.chip.twinInputFlash bytes codeOk).joinFlash

/-- MASK_FLASH (R320): The partner's mask flash. -/
def execMaskFlash (bytes : List Byte) (codeOk : Bool) (s : State) : Out := s.onChip (s.chip.maskFlash bytes codeOk)

/-- TWIN_FLASH_SEND (R354): The twin input flash of this twin. -/
def execTwinFlashSend (s : State) : Out := s.onChip (s.chip.flashSend (s.core.sseq s.chip))

/-- MASK_FLASH_SEND (R354): The mask flash of this twin. -/
def execMaskFlashSend (s : State) : Out := s.onChip s.chip.maskFlashSend

/-- LIR_MISS (R354): The partner's record, or with `mask` its mask, is missing. -/
def execLirMiss (mask : Bool) (s : State) : Out := s.onChip (s.chip.lirMiss mask)

/-- PEER_DELAY_EXCHANGE (R335): A peer-delay exchange measured `d`. -/
def execPeerDelayExchange (east : Bool) (d : Nat) (s : State) : Out := s.onChip (s.chip.peerDelay east d)

/-- RING_CYCLE_END (R347): The end of a ring cycle. -/
def execRingCycleEnd (s : State) : Out := s.onChip s.chip.ringCycleEnd.twinCycleEnd.joinExcluded

/-- EXCLUSION_END (R343): 8 ring cycles of exclusion have passed. -/
def execExclusionEnd (s : State) : Out := s.onChip s.chip.exclusionEnd

/-- LISTEN_TIMEOUT (R344): The listen timer expires. -/
def execListenTimeout (s : State) : Out := s.onChip s.chip.listenTimeout

/-- COLD_START_SEND (R344): A cold starter sends its frame. -/
def execColdStartSend (s : State) : Out := s.onChip s.chip.coldSend

/-- COLD_START_WATCH_END (R344): The watch after a cold-start frame ends. -/
def execColdStartWatchEnd (s : State) : Out := s.onChip s.chip.coldWatchEnd

/-- RING_PORT_FAULT (R351): A ring port detects a fault. -/
def execRingPortFault (east : Bool) (s : State) : Out := s.onChip (s.chip.portFault east)

/-- RING_LINK_OK (R352): A ring link has been free of errors for 1 ms. -/
def execRingLinkOk (east : Bool) (s : State) : Out := s.onChip (s.chip.linkOk east)

/-- HEARTBEAT_TIMEOUT (R357): RING_CYCLE ticks without the owner's heartbeat. -/
def execHeartbeatTimeout (s : State) : Out := s.onChip s.chip.heartbeatTimeout

/-- CRN_MODEREQ (R350): A mode is written to CRN_MODEREQ. -/
def execCrnModereq (m : Master) (v : W32) (s : State) : Out := s.regw m 0x70000C v

/-- CRN_TWIN_JOIN (R360): CRN_TWIN.JOIN is written 1. -/
def execCrnTwinJoin (m : Master) (s : State) : Out := s.regw m 0x70001C 0x20

/-- CRN_TWIN_KEEP (R356): CRN_TWIN.DECIDE is written KEEP. -/
def execCrnTwinKeep (m : Master) (s : State) : Out := s.regw m 0x70001C 1

/-- CRN_TWIN_SWAP (R356): CRN_TWIN.DECIDE is written SWAP. -/
def execCrnTwinSwap (m : Master) (s : State) : Out := s.regw m 0x70001C 2

/-- REPLAY_TICK (R360): The joiner replays one tick. -/
def execReplayTick (s : State) : Out :=
  let r := s.chip.replayTick s.core
  .next ({ s with chip := r.1, core := r.2 }.settle .pass)

/-- CRN_STA_CNT_READ (R364): The CUT and TRUNC counters of a station are read. -/
def execCrnStaCntRead (m : Master) (sta : Fin 16) (s : State) : Out := s.regr m (staReg sta.val 3)

end Sys2Proof.Machine
end

