-- ==== Sys2Proof/Machine/ExecSafety.lean ====
section
/-!
DEFINITION. The commands of the Husk and the safety core (R266 to R307).
-/
namespace Sys2Proof.Machine

/-- SAFETY_CYCLE (R285): The ring-cycle mark: a safety cycle. A joiner that replays runs it in the replay. -/
def execSafetyCycle (onTime : Bool) (s : State) : Out :=
  if s.chip.twin.replay.isSome then .next s
  else
    let r := s.core.cycle s.chip onTime
    .next { s with chip := r.2, core := r.1 }

/-- GROUP_STOP_T1_EXPIRY (R290): T1 of a group has passed. -/
def execGroupStopT1Expiry (g : Fin 16) (s : State) : Out := .next { s with core := s.core.t1Expiry g.val }

/-- SAFETY_CORE_FAULT (R291): An internal fault of the core; in BOOT it fails step 9 (R454, R489). -/
def execSafetyCoreFault (s : State) : Out :=
  let c := if s.chip.modState == .boot then s.chip.setF 0x214 11 8 8 else s.chip
  .next { s with core := s.core.internalFault, chip := c.needSafe }

/-- STATUS_TELEGRAM (R266): The status telegram, with the switch currents in mA. -/
def execStatusTelegram (i0 i1 i2 i3 : BitVec 16) (s : State) : Out :=
  let r := telegram s.husk s.core s.chip [i0.toNat, i1.toNat, i2.toNat, i3.toNat]
  .next { s with husk := r.1, core := r.2.1, chip := r.2.2 }

/-- LSDRV_FRAME (R266): A low-side enable frame, which only a core that runs sends. -/
def execLsdrvFrame (s : State) : Out :=
  if s.core.started && !s.core.fault then .next { s with husk := s.husk.lsdrv s.core.lsdrv } else .next s

/-- CSTOP_FRAME (R266): A stop-demand frame, which only a core that runs sends. -/
def execCstopFrame (s : State) : Out :=
  if s.core.started && !s.core.fault then .next { s with husk := s.husk.cstopFrame s.core.cstop } else .next s

/-- CORE_LINK_TIMEOUT (R266): 4 µs without a frame of one kind. -/
def execCoreLinkTimeout (cstop : Bool) (s : State) : Out := .next { s with husk := s.husk.linkTimeout cstop }

/-- HUSK_LINK_TIMEOUT (R266): 50 µs without a telegram. -/
def execHuskLinkTimeout (s : State) : Out := .next { s with core := s.core.huskTimeout }

/-- SAFETY_INPUT_QUALIFIED (R270): A level of SInA, or with `b` of SInB, is qualified. -/
def execSafetyInputQualified (n : Fin 8) (b level : Bool) (s : State) : Out :=
  .next { s with husk := s.husk.inputQualified n.val b level }

/-- DISCREPANCY_TIMEOUT (R271): The channels of a pair have been in discrepancy longer than DISC. -/
def execDiscrepancyTimeout (n : Fin 8) (s : State) : Out := .next { s with husk := s.husk.discrepancy n.val }

/-- TWO_HAND_TIMEOUT (R272): 500 ms without the second actuation. -/
def execTwoHandTimeout (e : Fin 8) (s : State) : Out := .next { s with husk := s.husk.twoHandTimeout (evenPair e.val) }

/-- TEST_PULSE (R274): An off-pulse of TPk: which inputs read low in it, and which high around it. -/
def execTestPulse (k : Fin 4) (low around : BitVec 16) (s : State) : Out :=
  .next { s with husk := s.husk.testPulse k.val low.toNat around.toNat }

/-- TP_OVERCURRENT (R275): TPk in overcurrent for 100 µs. -/
def execTpOvercurrent (k : Fin 4) (s : State) : Out := .next { s with husk := s.husk.tpOvercurrent k.val }

/-- CAT1_DELAY_EXPIRY (R277): The end of a category 1 delay. -/
def execCat1DelayExpiry (m : Fin 4) (s : State) : Out := .next { s with husk := s.husk.delayExpiry m.val }

/-- OUTPUT_SWITCH_TEST (R279): A switch of an output is opened for its test. -/
def execOutputSwitchTest (m : Fin 4) (low : Bool) (s : State) : Out := .next { s with husk := s.husk.testSwitch m.val low }

/-- OUTPUT_TEST_TIMEOUT (R280): 300 µs without the response of a test. -/
def execOutputTestTimeout (m : Fin 4) (low : Bool) (s : State) : Out := .next { s with husk := s.husk.testTimeout m.val low }

/-- SWITCH_TEST_RESPONSE (R279): The response of the switch under test. -/
def execSwitchTestResponse (m : Fin 4) (low : Bool) (s : State) : Out :=
  .next { s with husk := s.husk.testResponse m.val low }

/-- SAFE_OUTPUT_OVERCURRENT (R280): A switch current above its limit. -/
def execSafeOutputOvercurrent (m : Fin 4) (s : State) : Out := .next { s with husk := s.husk.overcurrent m.val }

/-- SAFE_OUTPUT_BACKFEED (R280): SOnH above 5 V for 1 ms while OFF. -/
def execSafeOutputBackfeed (m : Fin 4) (s : State) : Out := .next { s with husk := s.husk.backfeed m.val }

/-- HUSK_LANE_DISAGREE (R267): The lanes of the Husk disagree. -/
def execHuskLaneDisagree (s : State) : Out := .next { s with husk := s.husk.laneFault }

/-- SAFETY_SUPPLY_FAULT (R268): The safety supply is out of range. -/
def execSafetySupplyFault (s : State) : Out := .next { s with husk := s.husk.supplyFault, chip := s.chip.dioDown }

/-- SAFETY_SUPPLY_RETURN (R268, R410): The safety supply returns. -/
def execSafetySupplyReturn (s : State) : Out :=
  .next { s with husk := s.husk.supplyReturn, chip := if s.husk.supply then s.chip else s.chip.dioUp }

/-- SRST_PRESS (R282): SRST is qualified active. -/
def execSrstPress (s : State) : Out := .next { s with husk := s.husk.srstPress }

/-- SRST_RELEASE (R282): the falling edge of SRST. -/
def execSrstRelease (x : SrstEdge) (s : State) : Out := .next { s with husk := s.husk.srstRelease x }

/-- RESET_HELD (R282): SRST has been active for more than 3 s. -/
def execResetHeld (s : State) : Out := .next { s with husk := s.husk.resetHeld }

/-- PARAM_SET_COMMIT (R301): SYS_SPS_CMD.COMMIT is written 1. -/
def execParamSetCommit (m : Master) (s : State) : Out := s.regw m 0x308 1

/-- PARAM_SET_AWAIT_CONFIRM (R301): The Husk has checked the pending set. -/
def execParamSetAwaitConfirm (s : State) : Out :=
  let r := awaitConfirm s.husk s.core s.chip
  .next { s with husk := r.1, core := r.2 }

/-- PARAM_SET_DISCARD (R301): SYS_SPS_CMD.DISCARD is written 1. -/
def execParamSetDiscard (m : Master) (s : State) : Out := s.regw m 0x308 2

/-- PARAM_CONFIRM_TIMEOUT (R301): 60 s without a confirmation. -/
def execParamConfirmTimeout (s : State) : Out :=
  if s.core.awaiting && decide (s.core.awaitAt + 60000000000 ≤ s.chip.tb3) then .next s.dropPending else .next s

end Sys2Proof.Machine
end

