-- ==== Sys2Proof/Machine/ExecSched.lean ====
section
/-!
DEFINITION. The commands of the scheduler (R112 to R131, R436, R440, R501).
-/
namespace Sys2Proof.Machine

/-- SCHEDULER_CYCLE (R115): One CK_FAB cycle. -/
def execSchedulerCycle (s : State) : Out := s.onChip (s.chip.inWork fun c => c.schedCycle false)

/-- SCH_TASK_WRITE (R112): A word of SCH_TASK[t] is written. -/
def execSchTaskWrite (m : Master) (t : BitVec 12) (word : Fin 8) (v : W32) (s : State) : Out :=
  s.regw m (taskReg t.toNat word.val) v

/-- SCH_OFLOW_WRITE (R501): A word of SCH_OFLOW[f] is written. -/
def execSchOflowWrite (m : Master) (f : Fin 16) (word : Fin 4) (v : W32) (s : State) : Out :=
  s.regw m (oflowReg f.val word.val) v

/-- SCH_HPOST (R126): A task number is written to SCH_HPOST. -/
def execSchHpost (m : Master) (v : W32) (s : State) : Out := s.regw m 0x10000C v

/-- SCH_HCANCEL (R126): A task number is written to SCH_HCANCEL. -/
def execSchHcancel (m : Master) (v : W32) (s : State) : Out := s.regw m 0x100010 v

/-- PLAN_LOAD (R129): SCH_PLAN_CTRL.LOAD is written 1. -/
def execPlanLoad (m : Master) (v : W32) (s : State) : Out := s.regw m 0x100028 (setBit v 0 true)

/-- SHED_LEVEL_APPLY (R436): A decided clock step and shed level take effect at their tick. -/
def execShedLevelApply (s : State) : Out := s.onChip s.chip.shedApply

/-- SHED_COMMIT_APPLY (R440): A committed shed level takes effect at its tick. A joiner that replays leaves it to the replay. -/
def execShedCommitApply (s : State) : Out := s.onChip (if s.chip.twin.replay.isSome then s.chip else s.chip.shedCommitApply)

end Sys2Proof.Machine
end

