-- ==== Sys2Proof/Machine/ExecSep.lean ====
section
/-!
DEFINITION. The commands of the separation engine (R242 to R265).
-/
namespace Sys2Proof.Machine

/-- WORKSPACE_SEAL (R242): The workspace set is sealed. -/
def execWorkspaceSeal (s : State) : Out := s.live Chip.seal

/-- SEPARATION_CHECK (R259): The check at CHK_TICK. -/
def execSeparationCheck (s : State) : Out := s.live Chip.sepCheck

/-- CHK_DONE (R264): The check ends. -/
def execChkDone (s : State) : Out := s.live Chip.checkDone

/-- WORKSPACE_RESULT_APPLY (R262): The results are applied in the first tick of the next frame. -/
def execWorkspaceResultApply (s : State) : Out := s.live Chip.resultApply

/-- SEP_PSREL (R261): An arm number is written to SEP_PSREL. -/
def execSepPsrel (m : Master) (v : W32) (s : State) : Out := s.regw m 0x500034 v

/-- AUTO_RELEASE (R261): Arms that have stood AUTOREL frames in protective stop request their release. -/
def execAutoRelease (s : State) : Out := s.live Chip.autoRelease

/-- SEP_ARM_WRITE (R265): A word of SEP_ARM[a] is written. -/
def execSepArmWrite (m : Master) (a : Fin 16) (word : Fin 16) (v : W32) (s : State) : Out :=
  s.regw m (sepArm a.val word.val) v

/-- SEP_PEAK_READ (R265): SEP_PEAK is read. -/
def execSepPeakRead (m : Master) (s : State) : Out := s.regr m 0x500030

end Sys2Proof.Machine
end

