-- ==== Sys2Proof/Machine/ExecStar.lean ====
section
/-!
DEFINITION. The commands of the star (R310 to R332).
-/
namespace Sys2Proof.Machine

/-- DOWNLINK_FRAME_SEND (R316): The downlink of a port, with HS as HUSK_STOP stands. -/
def execDownlinkFrameSend (n : Fin 32) (s : State) : Out := s.onChip (s.chip.downlinkSend n.val s.husk.stop)

/-- UPLINK_FRAME (R318): An uplink frame whose SOF came `ts` sixteenths of a ns after t0; `codeOk` says that the line code held. -/
def execUplinkFrame (n : Fin 32) (ts : Nat) (bytes : List Byte) (codeOk : Bool) (s : State) : Out :=
  s.onChip (s.chip.uplinkFrame n.val ts bytes codeOk)

/-- STAR_LINK_LOSS (R310): A receiver loses link. -/
def execStarLinkLoss (n : Fin 32) (s : State) : Out := s.onChip (s.chip.starLoss n.val)

/-- STAR_LINK_REGAIN (R310): A receiver has link again. -/
def execStarLinkRegain (n : Fin 32) (s : State) : Out := s.onChip (s.chip.starRegain n.val)

/-- STR_ADMIT (R319): A port number is written to STR_ADMIT. -/
def execStrAdmit (m : Master) (v : W32) (s : State) : Out := s.regw m 0x600008 v

/-- STR_PORT_WRITE (R317): A word of STR_PORT[n] is written. -/
def execStrPortWrite (m : Master) (n : Fin 32) (word : Fin 16) (v : W32) (s : State) : Out :=
  s.regw m (portReg n.val word.val) v

/-- STR_GUARD_WRITE (R332): STR_GUARD is written. -/
def execStrGuardWrite (m : Master) (v : W32) (s : State) : Out := s.regw m 0x600004 v

/-- STR_PST_CNT_READ (R332): The counters of a port are read: CUT and TRUNC, or BAD. -/
def execStrPstCntRead (m : Master) (n : Fin 32) (bad : Bool) (s : State) : Out :=
  s.regr m (pstReg n.val (if bad then 4 else 3))

end Sys2Proof.Machine
end

