-- ==== Sys2Proof/Machine/ExecTick.lean ====
section
/-!
DEFINITION. The events of a tick (R9, R15, R22, R124, R143, R161, R190, R318).
-/
namespace Sys2Proof.Machine

/-- TICK (R9): t0: a joiner that has caught up goes live, the tick begins, an owner takes its image for a joiner.
(Model: DESIGN CHOICE, log 3) -/
def execTick (s : State) : Out :=
  if !s.chip.ticking then .next s
  else
    let r := s.chip.joinTick s.core
    .next { s with chip := r.1.liveTick.joinOwner r.2, core := r.2 }

/-- UPLINK_WINDOW_CLOSE (R318): The uplink window closes at every port. -/
def execUplinkWindowClose (s : State) : Out := s.onChip s.chip.windowClose

/-- FEEDBACK_PHASE (R143): The feedback phase; a joiner logs the inputs of the tick. (Model: DESIGN CHOICE, log 3) -/
def execFeedbackPhase (s : State) : Out :=
  if !s.chip.ticking then .next s
  else s.onChip (if s.chip.twin.replay.isSome then s.chip.joinLog else s.chip.feedbackWork.joinLog)

/-- PROFILE_PHASE (R190): The profile phase. (Model: DESIGN CHOICE, log 3) -/
def execProfilePhase (s : State) : Out := s.live Chip.profileWork

/-- LOOP_PHASE (R161): The loop phase. (Model: DESIGN CHOICE, log 3) -/
def execLoopPhase (s : State) : Out := s.live Chip.loopPhase

/-- PUBLISH_DEADLINE (R124): The publish deadline. (Model: DESIGN CHOICE, log 3) -/
def execPublishDeadline (s : State) : Out :=
  if s.chip.liveWork then
    let r := s.chip.publish s.core
    .next { s with chip := r.1, core := r.2 }
  else .next s

end Sys2Proof.Machine
end

