-- ==== Sys2Proof/Machine/ExecTime.lean ====
section
/-!
DEFINITION. The commands of the time unit (R365 to R381).
-/
namespace Sys2Proof.Machine

/-- TIME_CYCLE (R367): A CK_TIME cycle ends and the next begins. (Model: DESIGN CHOICE, log 3) -/
def execTimeCycle (s : State) : Out := s.onChip s.chip.timeCycle

/-- TRIGGER_INSTANCE (R374): The base of a trigger reaches its instance. -/
def execTriggerInstance (n : Fin 32) (s : State) : Out := s.onChip (s.chip.triggerInstance n.val)

/-- TRIGGER_PULSE_END (R374): WIDTH cycles have passed. -/
def execTriggerPulseEnd (n : Fin 32) (s : State) : Out := s.onChip (s.chip.triggerPulseEnd n.val)

/-- COMPARE_PULSE_START (R377): TB0 reaches t_c of a compare request. -/
def execComparePulseStart (n : Fin 32) (s : State) : Out := s.onChip (s.chip.comparePulse n.val)

/-- CAPTURE_EDGE (R378): A filtered capture edge. -/
def execCaptureEdge (n : Fin 16) (level : Bool) (s : State) : Out := s.onChip (s.chip.captureEdge n.val level)

/-- OFFSET_SAMPLE (R369): OFS of a base is written. -/
def execOffsetSample (m : Master) (b : Fin 6) (v : W32) (s : State) : Out := s.regw m (tbReg b.val 6) v

/-- TIME_SET (R372): SET of a base is written. -/
def execTimeSet (m : Master) (b : Fin 6) (v : W32) (s : State) : Out := s.regw m (tbReg b.val 9) v

/-- SLEW_COMPLETE (R370): A slew reaches its offset. -/
def execSlewComplete (b : Fin 6) (s : State) : Out := s.onChip (s.chip.slewComplete b.val)

/-- HOLDOVER_ENTRY (R371): HOLD_TO ms without a sample. -/
def execHoldoverEntry (b : Fin 6) (s : State) : Out := s.onChip (s.chip.holdoverEntry b.val)

/-- TIM_XTS_GO (R373): TIM_XTS.GO is written 1. -/
def execTimXtsGo (m : Master) (v : W32) (s : State) : Out := s.regw m 0x800004 (setBit v 0 true)

/-- TRIGGER_ARM (R375): TIM_TO[n] is written with ARM 1. -/
def execTriggerArm (m : Master) (n : Fin 32) (v : W32) (s : State) : Out := s.regw m (toReg n.val 0) (setBit v 31 true)

/-- TRIGGER_DISARM (R375): TIM_TO[n] is written with ARM 0. -/
def execTriggerDisarm (m : Master) (n : Fin 32) (v : W32) (s : State) : Out := s.regw m (toReg n.val 0) (setBit v 31 false)

/-- TIM_CP_WRITE (R378): TIM_CP[n] is written. -/
def execTimCpWrite (m : Master) (n : Fin 16) (v : W32) (s : State) : Out := s.regw m (cpReg n.val 0) v

/-- TIM_CP_NS_READ (R378): NS of a capture input is read. -/
def execTimCpNsRead (m : Master) (n : Fin 16) (s : State) : Out := s.regr m (cpReg n.val 2)

/-- TIM_TB_CAUSE_READ (R381): CAUSE of a base is read. -/
def execTimTbCauseRead (m : Master) (b : Fin 6) (s : State) : Out := s.regr m (tbReg b.val 12)

end Sys2Proof.Machine
end

