-- ==== Sys2Proof/Machine/Dispatch.lean ====
section
/-!
DEFINITION. The meaning of each command: one arm per constructor of `Instr`, one definition per command.
-/
namespace Sys2Proof.Machine

/-- The effect of a command on everything but the queue. -/
def exec (i : Instr) (s : State) : Host.Outcome State Fault Refusal :=
  match i with
  | .tick => Sys2Proof.Machine.execTick s
  | .uplinkWindowClose => Sys2Proof.Machine.execUplinkWindowClose s
  | .feedbackPhase => Sys2Proof.Machine.execFeedbackPhase s
  | .profilePhase => Sys2Proof.Machine.execProfilePhase s
  | .loopPhase => Sys2Proof.Machine.execLoopPhase s
  | .publishDeadline => Sys2Proof.Machine.execPublishDeadline s
  | .downlinkFrameSend n => Sys2Proof.Machine.execDownlinkFrameSend n s
  | .uplinkFrame n ts bytes codeOk => Sys2Proof.Machine.execUplinkFrame n ts bytes codeOk s
  | .starLinkLoss n => Sys2Proof.Machine.execStarLinkLoss n s
  | .starLinkRegain n => Sys2Proof.Machine.execStarLinkRegain n s
  | .strAdmit m v => Sys2Proof.Machine.execStrAdmit m v s
  | .strPortWrite m n word v => Sys2Proof.Machine.execStrPortWrite m n word v s
  | .strGuardWrite m v => Sys2Proof.Machine.execStrGuardWrite m v s
  | .safetyCycle onTime => Sys2Proof.Machine.execSafetyCycle onTime s
  | .groupStopT1Expiry g => Sys2Proof.Machine.execGroupStopT1Expiry g s
  | .safetyCoreFault => Sys2Proof.Machine.execSafetyCoreFault s
  | .statusTelegram i0 i1 i2 i3 => Sys2Proof.Machine.execStatusTelegram i0 i1 i2 i3 s
  | .lsdrvFrame => Sys2Proof.Machine.execLsdrvFrame s
  | .cstopFrame => Sys2Proof.Machine.execCstopFrame s
  | .coreLinkTimeout cstop => Sys2Proof.Machine.execCoreLinkTimeout cstop s
  | .huskLinkTimeout => Sys2Proof.Machine.execHuskLinkTimeout s
  | .safetyInputQualified n b level => Sys2Proof.Machine.execSafetyInputQualified n b level s
  | .discrepancyTimeout n => Sys2Proof.Machine.execDiscrepancyTimeout n s
  | .twoHandTimeout e => Sys2Proof.Machine.execTwoHandTimeout e s
  | .testPulse k low around => Sys2Proof.Machine.execTestPulse k low around s
  | .tpOvercurrent k => Sys2Proof.Machine.execTpOvercurrent k s
  | .cat1DelayExpiry m => Sys2Proof.Machine.execCat1DelayExpiry m s
  | .outputSwitchTest m low => Sys2Proof.Machine.execOutputSwitchTest m low s
  | .outputTestTimeout m low => Sys2Proof.Machine.execOutputTestTimeout m low s
  | .safeOutputOvercurrent m => Sys2Proof.Machine.execSafeOutputOvercurrent m s
  | .safeOutputBackfeed m => Sys2Proof.Machine.execSafeOutputBackfeed m s
  | .huskLaneDisagree => Sys2Proof.Machine.execHuskLaneDisagree s
  | .safetySupplyFault => Sys2Proof.Machine.execSafetySupplyFault s
  | .safetySupplyReturn => Sys2Proof.Machine.execSafetySupplyReturn s
  | .srstPress => Sys2Proof.Machine.execSrstPress s
  | .srstRelease act => Sys2Proof.Machine.execSrstRelease act s
  | .resetHeld => Sys2Proof.Machine.execResetHeld s
  | .paramSetCommit m => Sys2Proof.Machine.execParamSetCommit m s
  | .paramSetAwaitConfirm => Sys2Proof.Machine.execParamSetAwaitConfirm s
  | .paramSetDiscard m => Sys2Proof.Machine.execParamSetDiscard m s
  | .paramConfirmTimeout => Sys2Proof.Machine.execParamConfirmTimeout s
  | .schedulerCycle => Sys2Proof.Machine.execSchedulerCycle s
  | .schTaskWrite m t word v => Sys2Proof.Machine.execSchTaskWrite m t word v s
  | .schOflowWrite m f word v => Sys2Proof.Machine.execSchOflowWrite m f word v s
  | .schHpost m v => Sys2Proof.Machine.execSchHpost m v s
  | .schHcancel m v => Sys2Proof.Machine.execSchHcancel m v s
  | .planLoad m v => Sys2Proof.Machine.execPlanLoad m v s
  | .shedLevelApply => Sys2Proof.Machine.execShedLevelApply s
  | .shedCommitApply => Sys2Proof.Machine.execShedCommitApply s
  | .dwrTransferApply p => Sys2Proof.Machine.execDwrTransferApply p s
  | .getWake p => Sys2Proof.Machine.execGetWake p s
  | .fabricLoadData p idx chk => Sys2Proof.Machine.execFabricLoadData p idx chk s
  | .fabricStoreAck p idx chk => Sys2Proof.Machine.execFabricStoreAck p idx chk s
  | .outsideAccessStall p => Sys2Proof.Machine.execOutsideAccessStall p s
  | .add p sat rd ra rb mask => Sys2Proof.Machine.execAdd p sat rd ra rb mask s
  | .addu p sat rd ra rb mask => Sys2Proof.Machine.execAddu p sat rd ra rb mask s
  | .sub p sat rd ra rb mask => Sys2Proof.Machine.execSub p sat rd ra rb mask s
  | .subu p sat rd ra rb mask => Sys2Proof.Machine.execSubu p sat rd ra rb mask s
  | .mul p sat rd ra rb mask => Sys2Proof.Machine.execMul p sat rd ra rb mask s
  | .mulh p sat rd ra rb mask => Sys2Proof.Machine.execMulh p sat rd ra rb mask s
  | .mulhu p sat rd ra rb mask => Sys2Proof.Machine.execMulhu p sat rd ra rb mask s
  | .and p sat rd ra rb mask => Sys2Proof.Machine.execAnd p sat rd ra rb mask s
  | .or p sat rd ra rb mask => Sys2Proof.Machine.execOr p sat rd ra rb mask s
  | .xor p sat rd ra rb mask => Sys2Proof.Machine.execXor p sat rd ra rb mask s
  | .andn p sat rd ra rb mask => Sys2Proof.Machine.execAndn p sat rd ra rb mask s
  | .sll p sat rd ra rb mask => Sys2Proof.Machine.execSll p sat rd ra rb mask s
  | .srl p sat rd ra rb mask => Sys2Proof.Machine.execSrl p sat rd ra rb mask s
  | .sra p sat rd ra rb mask => Sys2Proof.Machine.execSra p sat rd ra rb mask s
  | .slt p sat rd ra rb mask => Sys2Proof.Machine.execSlt p sat rd ra rb mask s
  | .sltu p sat rd ra rb mask => Sys2Proof.Machine.execSltu p sat rd ra rb mask s
  | .min p sat rd ra rb mask => Sys2Proof.Machine.execMin p sat rd ra rb mask s
  | .max p sat rd ra rb mask => Sys2Proof.Machine.execMax p sat rd ra rb mask s
  | .minu p sat rd ra rb mask => Sys2Proof.Machine.execMinu p sat rd ra rb mask s
  | .maxu p sat rd ra rb mask => Sys2Proof.Machine.execMaxu p sat rd ra rb mask s
  | .clz p sat rd ra rb mask => Sys2Proof.Machine.execClz p sat rd ra rb mask s
  | .sextb p sat rd ra rb mask => Sys2Proof.Machine.execSextb p sat rd ra rb mask s
  | .sexth p sat rd ra rb mask => Sys2Proof.Machine.execSexth p sat rd ra rb mask s
  | .sextw p sat rd ra rb mask => Sys2Proof.Machine.execSextw p sat rd ra rb mask s
  | .addi p sat rd ra imm => Sys2Proof.Machine.execAddi p sat rd ra imm s
  | .andi p sat rd ra imm => Sys2Proof.Machine.execAndi p sat rd ra imm s
  | .ori p sat rd ra imm => Sys2Proof.Machine.execOri p sat rd ra imm s
  | .xori p sat rd ra imm => Sys2Proof.Machine.execXori p sat rd ra imm s
  | .slli p sat rd ra imm => Sys2Proof.Machine.execSlli p sat rd ra imm s
  | .srli p sat rd ra imm => Sys2Proof.Machine.execSrli p sat rd ra imm s
  | .srai p sat rd ra imm => Sys2Proof.Machine.execSrai p sat rd ra imm s
  | .slti p sat rd ra imm => Sys2Proof.Machine.execSlti p sat rd ra imm s
  | .movw p hw keep rd rsv imm => Sys2Proof.Machine.execMovw p hw keep rd rsv imm s
  | .vadd p sat rd ra rb w mask => Sys2Proof.Machine.execVadd p sat rd ra rb w mask s
  | .vaddu p sat rd ra rb w mask => Sys2Proof.Machine.execVaddu p sat rd ra rb w mask s
  | .vsub p sat rd ra rb w mask => Sys2Proof.Machine.execVsub p sat rd ra rb w mask s
  | .vsubu p sat rd ra rb w mask => Sys2Proof.Machine.execVsubu p sat rd ra rb w mask s
  | .vmul p sat rd ra rb w mask => Sys2Proof.Machine.execVmul p sat rd ra rb w mask s
  | .vmulq p sat rd ra rb w mask => Sys2Proof.Machine.execVmulq p sat rd ra rb w mask s
  | .vand p sat rd ra rb w mask => Sys2Proof.Machine.execVand p sat rd ra rb w mask s
  | .vor p sat rd ra rb w mask => Sys2Proof.Machine.execVor p sat rd ra rb w mask s
  | .vxor p sat rd ra rb w mask => Sys2Proof.Machine.execVxor p sat rd ra rb w mask s
  | .vsll p sat rd ra rb w mask => Sys2Proof.Machine.execVsll p sat rd ra rb w mask s
  | .vsrl p sat rd ra rb w mask => Sys2Proof.Machine.execVsrl p sat rd ra rb w mask s
  | .vsra p sat rd ra rb w mask => Sys2Proof.Machine.execVsra p sat rd ra rb w mask s
  | .vmin p sat rd ra rb w mask => Sys2Proof.Machine.execVmin p sat rd ra rb w mask s
  | .vmax p sat rd ra rb w mask => Sys2Proof.Machine.execVmax p sat rd ra rb w mask s
  | .vcmpeq p sat rd ra rb w mask => Sys2Proof.Machine.execVcmpeq p sat rd ra rb w mask s
  | .vcmplt p sat rd ra rb w mask => Sys2Proof.Machine.execVcmplt p sat rd ra rb w mask s
  | .vsplat p sat rd ra rb w mask => Sys2Proof.Machine.execVsplat p sat rd ra rb w mask s
  | .vext p sat rd ra rb w mask => Sys2Proof.Machine.execVext p sat rd ra rb w mask s
  | .vins p sat rd ra rb w mask => Sys2Proof.Machine.execVins p sat rd ra rb w mask s
  | .vsel p sat rd ra rb w mask => Sys2Proof.Machine.execVsel p sat rd ra rb w mask s
  | .fadd p sat rd ra rb mask => Sys2Proof.Machine.execFadd p sat rd ra rb mask s
  | .fsub p sat rd ra rb mask => Sys2Proof.Machine.execFsub p sat rd ra rb mask s
  | .fmul p sat rd ra rb mask => Sys2Proof.Machine.execFmul p sat rd ra rb mask s
  | .fdiv p sat rd ra rb mask => Sys2Proof.Machine.execFdiv p sat rd ra rb mask s
  | .fsqrt p sat rd ra rb mask => Sys2Proof.Machine.execFsqrt p sat rd ra rb mask s
  | .fma p sat rd ra rb mask => Sys2Proof.Machine.execFma p sat rd ra rb mask s
  | .fms p sat rd ra rb mask => Sys2Proof.Machine.execFms p sat rd ra rb mask s
  | .fmin p sat rd ra rb mask => Sys2Proof.Machine.execFmin p sat rd ra rb mask s
  | .fmax p sat rd ra rb mask => Sys2Proof.Machine.execFmax p sat rd ra rb mask s
  | .fabs p sat rd ra rb mask => Sys2Proof.Machine.execFabs p sat rd ra rb mask s
  | .fneg p sat rd ra rb mask => Sys2Proof.Machine.execFneg p sat rd ra rb mask s
  | .fcmpeq p sat rd ra rb mask => Sys2Proof.Machine.execFcmpeq p sat rd ra rb mask s
  | .fcmplt p sat rd ra rb mask => Sys2Proof.Machine.execFcmplt p sat rd ra rb mask s
  | .fcmple p sat rd ra rb mask => Sys2Proof.Machine.execFcmple p sat rd ra rb mask s
  | .fcvtws p sat rd ra rb mask => Sys2Proof.Machine.execFcvtws p sat rd ra rb mask s
  | .fcvtsw p sat rd ra rb mask => Sys2Proof.Machine.execFcvtsw p sat rd ra rb mask s
  | .fsum p sat rd ra rb mask => Sys2Proof.Machine.execFsum p sat rd ra rb mask s
  | .fdot p sat rd ra rb mask => Sys2Proof.Machine.execFdot p sat rd ra rb mask s
  | .fsplat p sat rd ra rb mask => Sys2Proof.Machine.execFsplat p sat rd ra rb mask s
  | .mac2l p sat rd ra rb mask => Sys2Proof.Machine.execMac2l p sat rd ra rb mask s
  | .mac2h p sat rd ra rb mask => Sys2Proof.Machine.execMac2h p sat rd ra rb mask s
  | .msu2l p sat rd ra rb mask => Sys2Proof.Machine.execMsu2l p sat rd ra rb mask s
  | .msu2h p sat rd ra rb mask => Sys2Proof.Machine.execMsu2h p sat rd ra rb mask s
  | .macp p sat rd ra rb mask => Sys2Proof.Machine.execMacp p sat rd ra rb mask s
  | .aclr p sat rd ra rb mask => Sys2Proof.Machine.execAclr p sat rd ra rb mask s
  | .aload p sat rd ra rb mask => Sys2Proof.Machine.execAload p sat rd ra rb mask s
  | .aread p sat rd ra rb mask => Sys2Proof.Machine.execAread p sat rd ra rb mask s
  | .aadd p sat rd ra rb mask => Sys2Proof.Machine.execAadd p sat rd ra rb mask s
  | .agrd p sat rd ra rb mask => Sys2Proof.Machine.execAgrd p sat rd ra rb mask s
  | .aseth p sat rd ra rb mask => Sys2Proof.Machine.execAseth p sat rd ra rb mask s
  | .lb p rt ag mode off chk => Sys2Proof.Machine.execLb p rt ag mode off chk s
  | .lbu p rt ag mode off chk => Sys2Proof.Machine.execLbu p rt ag mode off chk s
  | .lh p rt ag mode off chk => Sys2Proof.Machine.execLh p rt ag mode off chk s
  | .lhu p rt ag mode off chk => Sys2Proof.Machine.execLhu p rt ag mode off chk s
  | .lw p rt ag mode off chk => Sys2Proof.Machine.execLw p rt ag mode off chk s
  | .lwu p rt ag mode off chk => Sys2Proof.Machine.execLwu p rt ag mode off chk s
  | .ld p rt ag mode off chk => Sys2Proof.Machine.execLd p rt ag mode off chk s
  | .lv p rt ag mode off chk => Sys2Proof.Machine.execLv p rt ag mode off chk s
  | .sb p rt ag mode off chk => Sys2Proof.Machine.execSb p rt ag mode off chk s
  | .sh p rt ag mode off chk => Sys2Proof.Machine.execSh p rt ag mode off chk s
  | .sw p rt ag mode off chk => Sys2Proof.Machine.execSw p rt ag mode off chk s
  | .sd p rt ag mode off chk => Sys2Proof.Machine.execSd p rt ag mode off chk s
  | .sv p rt ag mode off chk => Sys2Proof.Machine.execSv p rt ag mode off chk s
  | .ldvv p v1 v2 ag1 ag2 rsv chk chk2 => Sys2Proof.Machine.execLdvv p v1 v2 ag1 ag2 rsv chk chk2 s
  | .ldstv p v1 v2 ag1 ag2 rsv chk chk2 => Sys2Proof.Machine.execLdstv p v1 v2 ag1 ag2 rsv chk chk2 s
  | .beq p ra rb off => Sys2Proof.Machine.execBeq p ra rb off s
  | .bne p ra rb off => Sys2Proof.Machine.execBne p ra rb off s
  | .blt p ra rb off => Sys2Proof.Machine.execBlt p ra rb off s
  | .bge p ra rb off => Sys2Proof.Machine.execBge p ra rb off s
  | .bltu p ra rb off => Sys2Proof.Machine.execBltu p ra rb off s
  | .bgeu p ra rb off => Sys2Proof.Machine.execBgeu p ra rb off s
  | .br p ra rb off => Sys2Proof.Machine.execBr p ra rb off s
  | .bl p ra rb off => Sys2Proof.Machine.execBl p ra rb off s
  | .rep p lvl len count => Sys2Proof.Machine.execRep p lvl len count s
  | .nop p word chk => Sys2Proof.Machine.execNop p word chk s
  | .get p rd ra imm => Sys2Proof.Machine.execGet p rd ra imm s
  | .done p rd ra imm => Sys2Proof.Machine.execDone p rd ra imm s
  | .post p rd ra imm => Sys2Proof.Machine.execPost p rd ra imm s
  | .cancel p rd ra imm => Sys2Proof.Machine.execCancel p rd ra imm s
  | .evt p rd ra imm => Sys2Proof.Machine.execEvt p rd ra imm s
  | .fence p rd ra imm => Sys2Proof.Machine.execFence p rd ra imm s
  | .eret p rd ra imm => Sys2Proof.Machine.execEret p rd ra imm s
  | .mfsr p rd ra imm => Sys2Proof.Machine.execMfsr p rd ra imm s
  | .mtsr p rd ra imm => Sys2Proof.Machine.execMtsr p rd ra imm s
  | .agw p rd ra imm => Sys2Proof.Machine.execAgw p rd ra imm s
  | .agr p rd ra imm => Sys2Proof.Machine.execAgr p rd ra imm s
  | .repr p rd ra imm => Sys2Proof.Machine.execRepr p rd ra imm s
  | .jr p rd ra imm => Sys2Proof.Machine.execJr p rd ra imm s
  | .jalr p rd ra imm => Sys2Proof.Machine.execJalr p rd ra imm s
  | .timrd p rd ra imm => Sys2Proof.Machine.execTimrd p rd ra imm s
  | .fbw p rd ra imm => Sys2Proof.Machine.execFbw p rd ra imm s
  | .fbr p rd ra imm => Sys2Proof.Machine.execFbr p rd ra imm s
  | .dwr p rd ra imm chk => Sys2Proof.Machine.execDwr p rd ra imm chk s
  | .imemWindowWrite m p off data => Sys2Proof.Machine.execImemWindowWrite m p off data s
  | .podRun m p => Sys2Proof.Machine.execPodRun m p s
  | .podHalt m p => Sys2Proof.Machine.execPodHalt m p s
  | .podStep m p chk => Sys2Proof.Machine.execPodStep m p chk s
  | .podRestart m p => Sys2Proof.Machine.execPodRestart m p s
  | .fbkClr m k => Sys2Proof.Machine.execFbkClr m k s
  | .fbkObsWrite m k word v => Sys2Proof.Machine.execFbkObsWrite m k word v s
  | .fbkLchWrite m n v => Sys2Proof.Machine.execFbkLchWrite m n v s
  | .fbkDivWrite m d word v => Sys2Proof.Machine.execFbkDivWrite m d word v s
  | .fbkMirrorWrite m v => Sys2Proof.Machine.execFbkMirrorWrite m v s
  | .lchCountEdge n a b => Sys2Proof.Machine.execLchCountEdge n a b s
  | .lchZEdge n => Sys2Proof.Machine.execLchZEdge n s
  | .hallEdge n hu hv hw => Sys2Proof.Machine.execHallEdge n hu hv hw s
  | .dividedOutputEmit d due limited => Sys2Proof.Machine.execDividedOutputEmit d due limited s
  | .lpeSwapSlot m v => Sys2Proof.Machine.execLpeSwapSlot m v s
  | .lpeSwapGroup m v => Sys2Proof.Machine.execLpeSwapGroup m v s
  | .lpeMsw m v => Sys2Proof.Machine.execLpeMsw m v s
  | .lpeSlotWrite m slot st word v => Sys2Proof.Machine.execLpeSlotWrite m slot st word v s
  | .lpeBankWrite m slot bank word v => Sys2Proof.Machine.execLpeBankWrite m slot bank word v s
  | .lpeXfWrite m j word v => Sys2Proof.Machine.execLpeXfWrite m j word v s
  | .lpeMsetWrite m n word v => Sys2Proof.Machine.execLpeMsetWrite m n word v s
  | .lpePeakRead m => Sys2Proof.Machine.execLpePeakRead m s
  | .lpeGrpCauseRead m g => Sys2Proof.Machine.execLpeGrpCauseRead m g s
  | .disarm m k v => Sys2Proof.Machine.execDisarm m k v s
  | .movePos m k v => Sys2Proof.Machine.execMovePos m k v s
  | .moveVel m k v => Sys2Proof.Machine.execMoveVel m k v s
  | .moveTab m k v => Sys2Proof.Machine.execMoveTab m k v s
  | .pause m k v => Sys2Proof.Machine.execPause m k v s
  | .resume m k v => Sys2Proof.Machine.execResume m k v s
  | .stop m k v => Sys2Proof.Machine.execStop m k v s
  | .home m k v => Sys2Proof.Machine.execHome m k v s
  | .clrLim m k v => Sys2Proof.Machine.execClrLim m k v s
  | .prfChEnWrite m k v => Sys2Proof.Machine.execPrfChEnWrite m k v s
  | .limitWrite m k word v => Sys2Proof.Machine.execLimitWrite m k word v s
  | .kappaTgtWrite m k v => Sys2Proof.Machine.execKappaTgtWrite m k v s
  | .prfGfireNow m v => Sys2Proof.Machine.execPrfGfireNow m v s
  | .prfGfireAtTick m v => Sys2Proof.Machine.execPrfGfireAtTick m v s
  | .groupFireTickReached g => Sys2Proof.Machine.execGroupFireTickReached g s
  | .tableCommit m t v => Sys2Proof.Machine.execTableCommit m t v s
  | .tableWithdraw m t v => Sys2Proof.Machine.execTableWithdraw m t v s
  | .bankVerifyDone t => Sys2Proof.Machine.execBankVerifyDone t s
  | .prfTblWrite m t word v => Sys2Proof.Machine.execPrfTblWrite m t word v s
  | .prfCmpWrite m u word v => Sys2Proof.Machine.execPrfCmpWrite m u word v s
  | .underrunAllowanceExpiry k => Sys2Proof.Machine.execUnderrunAllowanceExpiry k s
  | .switchQualified k j => Sys2Proof.Machine.execSwitchQualified k j s
  | .homeStallDetected k => Sys2Proof.Machine.execHomeStallDetected k s
  | .hystWindowClose k => Sys2Proof.Machine.execHystWindowClose k s
  | .homeTimeout k => Sys2Proof.Machine.execHomeTimeout k s
  | .stepPulse st rise => Sys2Proof.Machine.execStepPulse st rise s
  | .stepperHoldCurrent st => Sys2Proof.Machine.execStepperHoldCurrent st s
  | .prfStpWrite m st word v => Sys2Proof.Machine.execPrfStpWrite m st word v s
  | .prfHomeWrite m k word v => Sys2Proof.Machine.execPrfHomeWrite m k word v s
  | .prfMstabWrite m t index v => Sys2Proof.Machine.execPrfMstabWrite m t index v s
  | .prfGrpCauseRead m g => Sys2Proof.Machine.execPrfGrpCauseRead m g s
  | .workspaceSeal => Sys2Proof.Machine.execWorkspaceSeal s
  | .separationCheck => Sys2Proof.Machine.execSeparationCheck s
  | .chkDone => Sys2Proof.Machine.execChkDone s
  | .workspaceResultApply => Sys2Proof.Machine.execWorkspaceResultApply s
  | .sepPsrel m v => Sys2Proof.Machine.execSepPsrel m v s
  | .autoRelease => Sys2Proof.Machine.execAutoRelease s
  | .sepArmWrite m a word v => Sys2Proof.Machine.execSepArmWrite m a word v s
  | .sepPeakRead m => Sys2Proof.Machine.execSepPeakRead m s
  | .ringSlotSend kind => Sys2Proof.Machine.execRingSlotSend kind s
  | .statusFrame east t bytes codeOk => Sys2Proof.Machine.execStatusFrame east t bytes codeOk s
  | .dataFrame east t bytes codeOk => Sys2Proof.Machine.execDataFrame east t bytes codeOk s
  | .coldStartFrame east bytes codeOk => Sys2Proof.Machine.execColdStartFrame east bytes codeOk s
  | .joinFrame east t bytes codeOk => Sys2Proof.Machine.execJoinFrame east t bytes codeOk s
  | .twinInputFlash bytes codeOk => Sys2Proof.Machine.execTwinInputFlash bytes codeOk s
  | .maskFlash bytes codeOk => Sys2Proof.Machine.execMaskFlash bytes codeOk s
  | .twinFlashSend => Sys2Proof.Machine.execTwinFlashSend s
  | .maskFlashSend => Sys2Proof.Machine.execMaskFlashSend s
  | .lirMiss mask => Sys2Proof.Machine.execLirMiss mask s
  | .peerDelayExchange east d => Sys2Proof.Machine.execPeerDelayExchange east d s
  | .ringCycleEnd => Sys2Proof.Machine.execRingCycleEnd s
  | .exclusionEnd => Sys2Proof.Machine.execExclusionEnd s
  | .listenTimeout => Sys2Proof.Machine.execListenTimeout s
  | .coldStartSend => Sys2Proof.Machine.execColdStartSend s
  | .coldStartWatchEnd => Sys2Proof.Machine.execColdStartWatchEnd s
  | .ringPortFault east => Sys2Proof.Machine.execRingPortFault east s
  | .ringLinkOk east => Sys2Proof.Machine.execRingLinkOk east s
  | .heartbeatTimeout => Sys2Proof.Machine.execHeartbeatTimeout s
  | .crnModereq m v => Sys2Proof.Machine.execCrnModereq m v s
  | .crnTwinJoin m => Sys2Proof.Machine.execCrnTwinJoin m s
  | .crnTwinKeep m => Sys2Proof.Machine.execCrnTwinKeep m s
  | .crnTwinSwap m => Sys2Proof.Machine.execCrnTwinSwap m s
  | .replayTick => Sys2Proof.Machine.execReplayTick s
  | .crnStaCntRead m sta => Sys2Proof.Machine.execCrnStaCntRead m sta s
  | .strPstCntRead m n bad => Sys2Proof.Machine.execStrPstCntRead m n bad s
  | .timeCycle => Sys2Proof.Machine.execTimeCycle s
  | .triggerInstance n => Sys2Proof.Machine.execTriggerInstance n s
  | .triggerPulseEnd n => Sys2Proof.Machine.execTriggerPulseEnd n s
  | .comparePulseStart n => Sys2Proof.Machine.execComparePulseStart n s
  | .captureEdge n level => Sys2Proof.Machine.execCaptureEdge n level s
  | .offsetSample m b v => Sys2Proof.Machine.execOffsetSample m b v s
  | .timeSet m b v => Sys2Proof.Machine.execTimeSet m b v s
  | .slewComplete b => Sys2Proof.Machine.execSlewComplete b s
  | .holdoverEntry b => Sys2Proof.Machine.execHoldoverEntry b s
  | .timXtsGo m v => Sys2Proof.Machine.execTimXtsGo m v s
  | .triggerArm m n v => Sys2Proof.Machine.execTriggerArm m n v s
  | .triggerDisarm m n v => Sys2Proof.Machine.execTriggerDisarm m n v s
  | .timCpWrite m n v => Sys2Proof.Machine.execTimCpWrite m n v s
  | .timCpNsRead m n => Sys2Proof.Machine.execTimCpNsRead m n s
  | .timTbCauseRead m b => Sys2Proof.Machine.execTimTbCauseRead m b s
  | .ethFrameReceive p bytes fcsOk => Sys2Proof.Machine.execEthFrameReceive p bytes fcsOk s
  | .kppCommand => Sys2Proof.Machine.execKppCommand s
  | .kppRead => Sys2Proof.Machine.execKppRead s
  | .kppWrite => Sys2Proof.Machine.execKppWrite s
  | .kppDoorbell => Sys2Proof.Machine.execKppDoorbell s
  | .ethTransmit p => Sys2Proof.Machine.execEthTransmit p s
  | .ethTxComplete p => Sys2Proof.Machine.execEthTxComplete p s
  | .ethLinkChange p up => Sys2Proof.Machine.execEthLinkChange p up s
  | .ethKeyWrite m k word v => Sys2Proof.Machine.execEthKeyWrite m k word v s
  | .ethPortWrite m p word v => Sys2Proof.Machine.execEthPortWrite m p word v s
  | .ethCntRead m p word => Sys2Proof.Machine.execEthCntRead m p word s
  | .dioDebouncedEdge n level => Sys2Proof.Machine.execDioDebouncedEdge n level s
  | .dioOutWrite m v => Sys2Proof.Machine.execDioOutWrite m v s
  | .dioOsetWrite m v => Sys2Proof.Machine.execDioOsetWrite m v s
  | .dioOrstWrite m v => Sys2Proof.Machine.execDioOrstWrite m v s
  | .dioClr m v cool => Sys2Proof.Machine.execDioClr m v cool s
  | .dioDebWrite m n v => Sys2Proof.Machine.execDioDebWrite m n v s
  | .dioOvercurrent n => Sys2Proof.Machine.execDioOvercurrent n s
  | .dioOvertemperature n => Sys2Proof.Machine.execDioOvertemperature n s
  | .fieldUndervoltage => Sys2Proof.Machine.execFieldUndervoltage s
  | .fieldGood => Sys2Proof.Machine.execFieldGood s
  | .fieldWarnCrossing up => Sys2Proof.Machine.execFieldWarnCrossing up s
  | .dioLinkTimeout => Sys2Proof.Machine.execDioLinkTimeout s
  | .lineCorrectionDone line => Sys2Proof.Machine.execLineCorrectionDone line s
  | .scrubLine chk => Sys2Proof.Machine.execScrubLine chk s
  | .memReload m v => Sys2Proof.Machine.execMemReload m v s
  | .memZeroFill m v => Sys2Proof.Machine.execMemZeroFill m v s
  | .reloadDone r => Sys2Proof.Machine.execReloadDone r s
  | .memRebuilt m v bad => Sys2Proof.Machine.execMemRebuilt m v bad s
  | .correctionLogExpiry line => Sys2Proof.Machine.execCorrectionLogExpiry line s
  | .memCfgWrite m v => Sys2Proof.Machine.execMemCfgWrite m v s
  | .memCntRead m => Sys2Proof.Machine.execMemCntRead m s
  | .healthEvaluation w => Sys2Proof.Machine.execHealthEvaluation w s
  | .criticalReaction => Sys2Proof.Machine.execCriticalReaction s
  | .temperatureSample w => Sys2Proof.Machine.execTemperatureSample w s
  | .ageingSample w => Sys2Proof.Machine.execAgeingSample w s
  | .ttlUpdate => Sys2Proof.Machine.execTtlUpdate s
  | .dramRetentionMeasure ms => Sys2Proof.Machine.execDramRetentionMeasure ms s
  | .dramRefreshChange => Sys2Proof.Machine.execDramRefreshChange s
  | .eyeMeasure port h w => Sys2Proof.Machine.execEyeMeasure port h w s
  | .ronMeasure k r => Sys2Proof.Machine.execRonMeasure k r s
  | .supplyDipStart r => Sys2Proof.Machine.execSupplyDipStart r s
  | .supplyDip r dur vmin => Sys2Proof.Machine.execSupplyDip r dur vmin s
  | .nvInhibitEnd => Sys2Proof.Machine.execNvInhibitEnd s
  | .hltShedCmd m v => Sys2Proof.Machine.execHltShedCmd m v s
  | .hltRailVminRead m r => Sys2Proof.Machine.execHltRailVminRead m r s
  | .powerOnReset => Sys2Proof.Machine.execPowerOnReset s
  | .pinReset => Sys2Proof.Machine.execPinReset s
  | .railReset => Sys2Proof.Machine.execRailReset s
  | .railOrderViolation => Sys2Proof.Machine.execRailOrderViolation s
  | .xrefLoss => Sys2Proof.Machine.execXrefLoss s
  | .fullReset m v => Sys2Proof.Machine.execFullReset m v s
  | .warmReset m v => Sys2Proof.Machine.execWarmReset m v s
  | .boot straps trained fwOk => Sys2Proof.Machine.execBoot straps trained fwOk s
  | .sysBootCtrlGo m v fwOk => Sys2Proof.Machine.execSysBootCtrlGo m v fwOk s
  | .stateRequestConfig m => Sys2Proof.Machine.execStateRequestConfig m s
  | .stateRequestSync m => Sys2Proof.Machine.execStateRequestSync m s
  | .stateRequestRun m => Sys2Proof.Machine.execStateRequestRun m s
  | .runEntry => Sys2Proof.Machine.execRunEntry s
  | .configEntry => Sys2Proof.Machine.execConfigEntry s
  | .standbyEntry => Sys2Proof.Machine.execStandbyEntry s
  | .autorunRunRequest => Sys2Proof.Machine.execAutorunRunRequest s
  | .hostWatchdogExpiry => Sys2Proof.Machine.execHostWatchdogExpiry s
  | .sysHostwdKick m v => Sys2Proof.Machine.execSysHostwdKick m v s
  | .snapshotRequest m v => Sys2Proof.Machine.execSnapshotRequest m v s
  | .snapshotDone => Sys2Proof.Machine.execSnapshotDone s
  | .tickRegPeriodWrite m v => Sys2Proof.Machine.execTickRegPeriodWrite m v s
  | .tickRegUlWrite m v => Sys2Proof.Machine.execTickRegUlWrite m v s
  | .tickRegDlWrite m v => Sys2Proof.Machine.execTickRegDlWrite m v s
  | .tickRegTierWrite m v => Sys2Proof.Machine.execTickRegTierWrite m v s
  | .sysAerrCntRead m => Sys2Proof.Machine.execSysAerrCntRead m s
  | .loWordReadLatch m off => Sys2Proof.Machine.execLoWordReadLatch m off s
  | .registerWrite m off v whole => Sys2Proof.Machine.execRegisterWrite m off v whole s
  | .bar2Access write off data chk => Sys2Proof.Machine.execBar2Access write off data chk s
  | .hstDoorbell m v => Sys2Proof.Machine.execHstDoorbell m v s
  | .commitSubmit m v => Sys2Proof.Machine.execCommitSubmit m v s
  | .commitCopyDone chk => Sys2Proof.Machine.execCommitCopyDone chk s
  | .commitApply => Sys2Proof.Machine.execCommitApply s
  | .msixMessage vec => Sys2Proof.Machine.execMsixMessage vec s
  | .dmaGo m ch v => Sys2Proof.Machine.execDmaGo m ch v s
  | .dmaPiece data pcieOk chk => Sys2Proof.Machine.execDmaPiece data pcieOk chk s
  | .dmaDone ch => Sys2Proof.Machine.execDmaDone ch s
  | .pcieHotReset => Sys2Proof.Machine.execPcieHotReset s
  | .switchTestResponse m low => Sys2Proof.Machine.execSwitchTestResponse m low s
  | .fbkLchQerrRead m n => Sys2Proof.Machine.execFbkLchQerrRead m n s
  | .forwardedFrameEgress p => Sys2Proof.Machine.execForwardedFrameEgress p s

end Sys2Proof.Machine
end

