-- ==== Sys2Proof/Safety.lean ====
section
/-!
DEFINITION. The terms the statements use: what counts as a safe Husk, when a pod issues its next instruction and what a
completed instruction leaves, and when the requests and the tick work of the module stand still.
-/
namespace Sys2Proof.Machine

/-! ## The safe outputs (R276, R277, R279) -/

/-- A closed output has the permission of R276; of the pairs it may lack only what a running category 1 delay bridges. -/
def Husk.outSafe (h : Husk) (m : Nat) : Prop :=
  (h.out m).on = true → h.corePermit m = true ∧ (h.pairsPermit m = true ∨ (h.out m).delay = true)
/-- A switch is under test only in a closed output (R279). -/
def Husk.testSafe (h : Husk) (m : Nat) : Prop := (h.out m).test.isSome = true → (h.out m).on = true
/-- One switch of the whole module is under test at any moment (R279). -/
def Husk.oneTest (h : Husk) : Prop :=
  ∀ m k, m < 4 → k < 4 → (h.out m).test.isSome = true → (h.out k).test.isSome = true → m = k
/-- The tables of pairs and outputs in canonical form. -/
def Husk.Tables (h : Husk) : Prop := tabWf (fun _ => HPair.zero) h.pairs = true ∧ tabWf (fun _ => HOut.zero) h.outs = true
/-- A safe Husk. -/
def Husk.Safe (h : Husk) : Prop := h.Tables ∧ (∀ m, m < 4 → h.outSafe m ∧ h.testSafe m) ∧ h.oneTest

/-- What R8 keeps from software: the switches, the pairs and all that decides HUSK_STOP. -/
def Husk.wired (h : Husk) : List Byte × Tab HPair × Tab HOut × Bool × Bool × Bool :=
  (h.set, h.pairs, h.outs, h.internal, h.supply, h.stop)

/-! ## Pods -/

/-- A line reads without a wait or an error. -/
def Chip.lineGood (c : Chip) (a : Nat) : Prop :=
  c.mem.handling.contains (a / 64) = false ∧ (c.line (a / 64)).poisoned = false ∧ (c.line (a / 64)).pending = false ∧
    (c.line (a / 64)).refetch = false
/-- Pod `n` issues its next instruction: it runs, no joiner replays, and the line its word lies in is good. -/
def Chip.podReady (c : Chip) (n : Nat) : Prop :=
  (c.pod n).issues = true ∧ c.twin.replay = none ∧ c.lineGood ((c.pod n).fetchAddr n)
/-- No outstanding load owes one of these registers. -/
def Pod.free (p : Pod) (rs : List PReg) : Prop := ∀ r, r ∈ rs → p.owes r = false
/-- Pod `n` has completed an instruction that changed it by `f`: it moves on, and a flag that went from 0 to 1 may trap. -/
def State.podDone (s : State) (n : Nat) (f : Pod → Pod) : State :=
  { s with chip := (s.chip.modPod n f).modPod n fun q => q.retire.flagTrap (s.chip.pod n).pstat }
/-- The same after a change of the whole chip. -/
def State.podDoneOn (s : State) (n : Nat) (d : Chip) : State :=
  { s with chip := d.modPod n fun q => q.retire.flagTrap (s.chip.pod n).pstat }
/-- The state with pod `n` changed and nothing else. -/
def State.podNow (s : State) (n : Nat) (f : Pod → Pod) : State := { s with chip := s.chip.modPod n f }

/-! ## The module -/

/-- Live tick work happens: ticks run and no joiner replays. -/
def Chip.alive (c : Chip) : Prop := c.ticking = true ∧ c.twin.replay = none
/-- The state with another chip and nothing else changed. -/
def State.withChip (s : State) (c : Chip) : State := { s with chip := c }
/-- The state with another Husk and nothing else changed. -/
def State.withHusk (s : State) (h : Husk) : State := { s with husk := h }
/-- The state with another safety core and nothing else changed. -/
def State.withCore (s : State) (k : SafetyCore) : State := { s with core := k }

end Sys2Proof.Machine
end

