-- ==== Sys2Proof/WellFormed.lean ====
section
/-!
DEFINITION. Which commands are well formed: the operands are ones the hardware can meet. The types of `Instr` rule out most
others.
-/
namespace Sys2Proof

/-- The checks on a command. The word of a NOP row spells no instruction of another row; what a window carries lies within
it; a DMA piece and a plant frame have a possible length (R386, R477, R484). (Model: DESIGN CHOICE, log 91) -/
def Instr.wellFormed : Instr → Bool
  | .nop _ word _ => (Machine.decodeWord word).isNone
  | .imemWindowWrite _ _ off data => !data.bytes.isEmpty && decide (off.toNat + data.bytes.length ≤ 0x10000)
  | .bar2Access _ off data _ => !data.isEmpty && decide (off.toNat + data.length ≤ 0x1000000)
  | .dmaPiece data _ _ => decide (data.length ≤ 512)
  | .ethFrameReceive _ bytes _ => decide (14 ≤ bytes.length)
  | _ => true

end Sys2Proof
end

