-- ==== Sys2Proof/Certificates/Slice0/Obligations.lean ====
section
/-!
DEFINITION. The statements about the KY96 model, from the numbered rules of the spec. `State.podDone s n f` is the state in
which pod `n` has completed an instruction that changed it by `f`, and nothing else has changed.
-/
open Sys2Proof Sys2Proof.Machine

/-! ## The queue of commands -/

/-- A step with a command in front of the queue is that command's meaning on the state with the rest of the queue.
It rests on the model's choices and deductions of log entry 1. -/
def Obligations.StepRunsFrontCommand : Prop :=
  ∀ (i : Instr) (rest : List Instr) (s : State), step { s with pending := i :: rest } = exec i { s with pending := rest }

/-- On an empty queue the block idles (the model's choice, log entry 2). -/
def Obligations.EmptyQueueIdles : Prop := ∀ s : State, s.pending = [] → step s = .next s

/-! ## Scalar integer instructions (R83 to R85) -/

/-- R83 with S = 0: the results of the format R scalar instructions, each into RD, with nothing else changed. A write to s0
is discarded and a read of s0 gives 0, which `Pod.sset` and `Pod.sget` say (R41).
R83: CLZ counts the leading zeros of RA: 64 for zero, else k with the highest one at bit 63 − k. -/
def Obligations.ScalarRegisterResults : Prop :=
  (∀ (s : State) (p : Fin 32) (rd ra rb : BitVec 5), s.chip.podReady p.val →
    (s.chip.pod p.val).free [.s rd.toNat, .s ra.toNat, .s rb.toNat] →
    let a := (s.chip.pod p.val).sget ra.toNat
    let b := (s.chip.pod p.val).sget rb.toNat
    let gives := fun (i : Instr) (v : W64) => exec i s = .next (s.podDone p.val fun q => q.sset rd.toNat v)
    gives (.add p false rd ra rb 0) (a + b) ∧
    gives (.addu p false rd ra rb 0) (a + b) ∧
    gives (.sub p false rd ra rb 0) (a - b) ∧
    gives (.subu p false rd ra rb 0) (a - b) ∧
    gives (.mul p false rd ra rb 0) (a * b) ∧
    gives (.mulh p false rd ra rb 0) (BitVec.ofInt 64 (a.toInt * b.toInt / 2 ^ 64)) ∧
    gives (.mulhu p false rd ra rb 0) (BitVec.ofNat 64 (a.toNat * b.toNat / 2 ^ 64)) ∧
    gives (.and p false rd ra rb 0) (a &&& b) ∧
    gives (.or p false rd ra rb 0) (a ||| b) ∧
    gives (.xor p false rd ra rb 0) (a ^^^ b) ∧
    gives (.andn p false rd ra rb 0) (a &&& ~~~ b) ∧
    gives (.sll p false rd ra rb 0) (a <<< (b.toNat % 64)) ∧
    gives (.srl p false rd ra rb 0) (a >>> (b.toNat % 64)) ∧
    gives (.sra p false rd ra rb 0) (a.sshiftRight (b.toNat % 64)) ∧
    gives (.slt p false rd ra rb 0) (if a.slt b then 1 else 0) ∧
    gives (.sltu p false rd ra rb 0) (if a.ult b then 1 else 0) ∧
    gives (.min p false rd ra rb 0) (if b.slt a then b else a) ∧
    gives (.max p false rd ra rb 0) (if b.slt a then a else b) ∧
    gives (.minu p false rd ra rb 0) (if b.ult a then b else a) ∧
    gives (.maxu p false rd ra rb 0) (if b.ult a then a else b) ∧
    gives (.sextb p false rd ra 0 0) ((a.truncate 8).signExtend 64) ∧
    gives (.sexth p false rd ra 0 0) ((a.truncate 16).signExtend 64) ∧
    gives (.sextw p false rd ra 0 0) ((a.truncate 32).signExtend 64)) ∧
  (∀ (s : State) (p : Fin 32) (rd ra : BitVec 5), s.chip.podReady p.val →
    (s.chip.pod p.val).free [.s rd.toNat, .s ra.toNat, .s 0] →
    let a := (s.chip.pod p.val).sget ra.toNat
    ∃ k : Nat, exec (.clz p false rd ra 0 0) s = .next (s.podDone p.val fun q => q.sset rd.toNat (BitVec.ofNat 64 k)) ∧
      k ≤ 64 ∧ a.toNat < 2 ^ (64 - k) ∧ (k < 64 → 2 ^ (63 - k) ≤ a.toNat))

/-- R48, R83 with S = 1: ADD, SUB, MUL and SLL clamp the exact signed result to the signed range, ADDU and SUBU the exact
unsigned result to the unsigned range; ISAT (PSTAT bit 4) is set when a clamp changed the result, and only then touched. -/
def Obligations.ScalarSaturation : Prop :=
  ∀ (s : State) (p : Fin 32) (rd ra rb : BitVec 5), s.chip.podReady p.val →
    (s.chip.pod p.val).free [.s rd.toNat, .s ra.toNat, .s rb.toNat] →
    let a := (s.chip.pod p.val).sget ra.toNat
    let b := (s.chip.pod p.val).sget rb.toNat
    let gives := fun (i : Instr) (lo hi x : Int) =>
      (lo ≤ x → x ≤ hi → exec i s = .next (s.podDone p.val fun q => q.sset rd.toNat (BitVec.ofInt 64 x))) ∧
      (x < lo → exec i s = .next (s.podDone p.val fun q =>
        { q.sset rd.toNat (BitVec.ofInt 64 lo) with pstat := q.pstat ||| 0x10#64 })) ∧
      (hi < x → exec i s = .next (s.podDone p.val fun q =>
        { q.sset rd.toNat (BitVec.ofInt 64 hi) with pstat := q.pstat ||| 0x10#64 }))
    let signedRange := fun i x => gives i (-(2 ^ 63)) (2 ^ 63 - 1) x
    let unsignedRange := fun i x => gives i 0 (2 ^ 64 - 1) x
    signedRange (.add p true rd ra rb 0) (a.toInt + b.toInt) ∧
    signedRange (.sub p true rd ra rb 0) (a.toInt - b.toInt) ∧
    signedRange (.mul p true rd ra rb 0) (a.toInt * b.toInt) ∧
    signedRange (.sll p true rd ra rb 0) (a.toInt * 2 ^ (b.toNat % 64)) ∧
    unsignedRange (.addu p true rd ra rb 0) (a.toNat + b.toNat) ∧
    unsignedRange (.subu p true rd ra rb 0) (a.toNat - b.toNat)

/-- R84, R85: the immediate instructions. IMM is sign-extended to 64 bits; a shift takes IMM[5:0]; ADDI
and SLLI with S = 1 clamp as ADD and SLL do (R48). MOVW writes a halfword
of RD, with KEEP 0 over zeros. -/
def Obligations.ScalarImmediateResults : Prop :=
  ∀ (s : State) (p : Fin 32) (rd ra : BitVec 5), s.chip.podReady p.val →
    (s.chip.pod p.val).free [.s rd.toNat, .s ra.toNat] →
    let a := (s.chip.pod p.val).sget ra.toNat
    let d := (s.chip.pod p.val).sget rd.toNat
    let gives := fun (i : Instr) (v : W64) => exec i s = .next (s.podDone p.val fun q => q.sset rd.toNat v)
    let clamps := fun (i : Instr) (x : Int) =>
      (-(2 ^ 63) ≤ x → x < 2 ^ 63 → exec i s = .next (s.podDone p.val fun q => q.sset rd.toNat (BitVec.ofInt 64 x))) ∧
      (x < -(2 ^ 63) → exec i s = .next (s.podDone p.val fun q =>
        { q.sset rd.toNat (BitVec.ofInt 64 (-(2 ^ 63))) with pstat := q.pstat ||| 0x10#64 })) ∧
      (2 ^ 63 ≤ x → exec i s = .next (s.podDone p.val fun q =>
        { q.sset rd.toNat (BitVec.ofInt 64 (2 ^ 63 - 1)) with pstat := q.pstat ||| 0x10#64 }))
    (∀ imm : BitVec 14, clamps (.addi p true rd ra imm) (a.toInt + imm.toInt)) ∧
    (∀ k : BitVec 6, clamps (.slli p true rd ra (k.zeroExtend 14)) (a.toInt * 2 ^ k.toNat)) ∧
    (∀ imm : BitVec 14,
      gives (.addi p false rd ra imm) (a + imm.signExtend 64) ∧
      gives (.andi p false rd ra imm) (a &&& imm.signExtend 64) ∧
      gives (.ori p false rd ra imm) (a ||| imm.signExtend 64) ∧
      gives (.xori p false rd ra imm) (a ^^^ imm.signExtend 64) ∧
      gives (.slti p false rd ra imm) (if a.slt (imm.signExtend 64) then 1 else 0)) ∧
    (∀ k : BitVec 6,
      gives (.slli p false rd ra (k.zeroExtend 14)) (a <<< k.toNat) ∧
      gives (.srli p false rd ra (k.zeroExtend 14)) (a >>> k.toNat) ∧
      gives (.srai p false rd ra (k.zeroExtend 14)) (a.sshiftRight k.toNat)) ∧
    (∀ (hw : BitVec 2) (imm : BitVec 16),
      gives (.movw p hw false rd 0 imm) (imm.zeroExtend 64 <<< (16 * hw.toNat)) ∧
      gives (.movw p hw true rd 0 imm)
        ((d &&& ~~~ (0xFFFF#64 <<< (16 * hw.toNat))) ||| (imm.zeroExtend 64 <<< (16 * hw.toNat))))

/-! ## Vector integer instructions (R42, R43, R48, R86, R87) -/

/-- The lane-wise integer instructions and their exact lane results: `u` says that S clamps to the unsigned range, and a
row whose S has no meaning is listed with S = 0 only. -/
def Sys2Proof.Machine.vectorRows (p : Fin 32) (sat : Bool) (rd ra rb : BitVec 5) (wf : BitVec 2) (mask : BitVec 4) (w : Nat) :
    List (Instr × Bool × (Nat → Nat → Int)) :=
  [ (.vadd p sat rd ra rb wf mask, false, fun a b => signed w a + signed w b),
    (.vaddu p sat rd ra rb wf mask, true, fun a b => (a : Int) + b),
    (.vsub p sat rd ra rb wf mask, false, fun a b => signed w a - signed w b),
    (.vsubu p sat rd ra rb wf mask, true, fun a b => (a : Int) - b),
    (.vmul p sat rd ra rb wf mask, false, fun a b => signed w a * signed w b),
    (.vmulq p sat rd ra rb wf mask, false, fun a b => signed w a * signed w b / 2 ^ (w - 1)),
    (.vsll p sat rd ra rb wf mask, false, fun a b => signed w a * 2 ^ (b % w)) ] ++
  if sat then [] else ([ (.vsrl p false rd ra rb wf mask, true, fun a b => (a : Int) / 2 ^ (b % w)),
    (.vsra p false rd ra rb wf mask, false, fun a b => signed w a / 2 ^ (b % w)),
    (.vmin p false rd ra rb wf mask, false, fun a b => min (signed w a) (signed w b)),
    (.vmax p false rd ra rb wf mask, false, fun a b => max (signed w a) (signed w b)),
    (.vcmpeq p false rd ra rb wf mask, false, fun a b => if a = b then -1 else 0),
    (.vcmplt p false rd ra rb wf mask, false, fun a b => if signed w a < signed w b then -1 else 0) ] :
    List (Instr × Bool × (Nat → Nat → Int)))

/-- R42, R43, R48, R86, R87: a lane-wise instruction at each width W of 16, 32 and 64 bits writes in every lane that MASK
enables the exact result of that lane, wrapped with S = 0 and clamped with S = 1; every other lane of VD stays; ISAT is set
when a clamp changed an enabled lane, and only then touched.
R86, R87: VAND, VOR, VXOR and VSEL (with W = 01) work on whole enabled words; VSPLAT copies the low bits of a scalar to
every enabled lane; VEXT takes lane RB sign-extended; VINS replaces lane RB. -/
def Obligations.VectorResults : Prop :=
  (∀ (s : State) (p : Fin 32) (sat : Bool) (rd ra rb : BitVec 5) (wf : BitVec 2) (mask : BitVec 4), s.chip.podReady p.val →
    (s.chip.pod p.val).free [.v rd.toNat, .v ra.toNat, .v rb.toNat] → wf ≠ 3 → maskOk mask.toNat (laneWidth wf.toNat) = true →
    let w := laneWidth wf.toNat
    let d := (s.chip.pod p.val).vget rd.toNat
    let a := (s.chip.pod p.val).vget ra.toNat
    let b := (s.chip.pod p.val).vget rb.toNat
    ∀ row, row ∈ vectorRows p sat rd ra rb wf mask w →
      let lo : Int := if row.2.1 then 0 else -(2 ^ (w - 1))
      let hi : Int := if row.2.1 then 2 ^ w - 1 else 2 ^ (w - 1) - 1
      let exact := fun i => row.2.2 (lane a w i) (lane b w i)
      let clamped := fun i => if sat then max lo (min hi (exact i)) else exact i
      ∃ (v : W128) (f : Bool),
        exec row.1 s = .next (s.podDone p.val fun q => (q.vset rd.toNat v).isat f) ∧
        (∀ i, i < 128 / w → lane v w i = if laneOn mask.toNat w i then wrapN w (clamped i) else lane d w i) ∧
        (f = true ↔ ∃ i, i < 128 / w ∧ laneOn mask.toNat w i = true ∧ clamped i ≠ exact i)) ∧
  (∀ (s : State) (p : Fin 32) (rd ra rb : BitVec 5), s.chip.podReady p.val →
    let q0 := s.chip.pod p.val
    (∀ mask : BitVec 4, q0.free [.v rd.toNat, .v ra.toNat, .v rb.toNat] →
      let gives := fun (i : Instr) (x : W128) => ∃ v : W128,
        exec i s = .next (s.podDone p.val fun q => q.vset rd.toNat v) ∧
        ∀ k, k < 4 → lane v 32 k = if mask.toNat.testBit k then lane x 32 k else lane (q0.vget rd.toNat) 32 k
      gives (.vand p false rd ra rb 1 mask) (q0.vget ra.toNat &&& q0.vget rb.toNat) ∧
      gives (.vor p false rd ra rb 1 mask) (q0.vget ra.toNat ||| q0.vget rb.toNat) ∧
      gives (.vxor p false rd ra rb 1 mask) (q0.vget ra.toNat ^^^ q0.vget rb.toNat) ∧
      gives (.vsel p false rd ra rb 1 mask)
        ((q0.vget ra.toNat &&& q0.vget rd.toNat) ||| (q0.vget rb.toNat &&& ~~~ q0.vget rd.toNat))) ∧
    (∀ wf : BitVec 2, wf ≠ 3 →
      let w := laneWidth wf.toNat
      (∀ mask : BitVec 4, q0.free [.v rd.toNat, .s ra.toNat] → maskOk mask.toNat w = true → ∃ v : W128,
        exec (.vsplat p false rd ra 0 wf mask) s = .next (s.podDone p.val fun q => q.vset rd.toNat v) ∧
        ∀ k, k < 128 / w → lane v w k =
          if laneOn mask.toNat w k then (q0.sget ra.toNat).toNat % 2 ^ w else lane (q0.vget rd.toNat) w k) ∧
      (q0.free [.s rd.toNat, .v ra.toNat] → rb.toNat < 128 / w →
        exec (.vext p false rd ra rb wf 0) s = .next (s.podDone p.val fun q =>
          q.sset rd.toNat (BitVec.ofInt 64 (signed w (lane (q0.vget ra.toNat) w rb.toNat))))) ∧
      (q0.free [.v rd.toNat, .s ra.toNat] → rb.toNat < 128 / w → ∃ v : W128,
        exec (.vins p false rd ra rb wf 0) s = .next (s.podDone p.val fun q => q.vset rd.toNat v) ∧
        ∀ k, k < 128 / w → lane v w k =
          if k = rb.toNat then (q0.sget ra.toNat).toNat % 2 ^ w else lane (q0.vget rd.toNat) w k)))

/-! ## Vector f32 instructions (R43 to R47, R88 to R91) -/

/-- The f32 instructions: what each gives in lane `i` of operands VD, VA and VB: the word, whether the lane raises FINV and
whether it raises ISAT. The Bool says that RB names a vector. An instruction whose S has no meaning is listed with S = 0 only. -/
def Sys2Proof.Machine.floatRows (p : Fin 32) (sat : Bool) (rd ra rb : BitVec 5) (mask : BitVec 4) (k : Fin 4) (d a b : W128) :
    List (Instr × Bool × (Nat → W32 × Bool × Bool)) :=
  [ (.fadd p sat rd ra rb mask, true, fun i => onlyInv (fadd sat (flane a i) (flane b i))),
    (.fsub p sat rd ra rb mask, true, fun i => onlyInv (fadd sat (flane a i) (flane b i ^^^ 0x80000000#32))),
    (.fmul p sat rd ra rb mask, true, fun i => onlyInv (fmul sat (flane a i) (flane b i))),
    (.fdiv p sat rd ra rb mask, true, fun i => onlyInv (fdiv sat (flane a i) (flane b i))),
    (.fsqrt p sat rd ra 0 mask, false, fun i => onlyInv (fsqrt sat (flane a i))),
    (.fma p sat rd ra rb mask, true, fun i => onlyInv (fma sat (flane d i) (flane a i) (flane b i))),
    (.fms p sat rd ra rb mask, true, fun i => onlyInv (fms sat (flane d i) (flane a i) (flane b i))),
    (.fmin p sat rd ra rb mask, true, fun i => onlyInv (fmin sat (flane a i) (flane b i))),
    (.fmax p sat rd ra rb mask, true, fun i => onlyInv (fmax sat (flane a i) (flane b i))),
    (.fcvtws p sat rd ra 0 mask, false, fun i => fcvtws sat (flane a i)),
    (.fsum p sat rd ra 0 mask, false, fun _ => onlyInv (sum4 sat (flane a))),
    (.fdot p sat rd ra rb mask, true, fun _ => onlyInv (dot4 sat a b)) ] ++
  if sat then [] else ([ (.fabs p false rd ra 0 mask, false, fun i => plainF (flane a i &&& 0x7FFFFFFF#32)),
    (.fneg p false rd ra 0 mask, false, fun i => plainF (flane a i ^^^ 0x80000000#32)),
    (.fcmpeq p false rd ra rb mask, true, fun i => onlyInv (fcmp (fun x y => x == y) (flane a i) (flane b i))),
    (.fcmplt p false rd ra rb mask, true, fun i => onlyInv (fcmp (fun x y => decide (x < y)) (flane a i) (flane b i))),
    (.fcmple p false rd ra rb mask, true, fun i => onlyInv (fcmp (fun x y => decide (x ≤ y)) (flane a i) (flane b i))),
    (.fcvtsw p false rd ra 0 mask, false, fun i => plainF (intToF32 (flane a i).toInt)),
    (.fsplat p false rd ra (BitVec.ofNat 5 k.val) mask, false, fun _ => plainF (flane a k.val)) ] :
    List (Instr × Bool × (Nat → W32 × Bool × Bool)))

/-- R43, R46, R88 to R91: an f32 instruction writes its result in every lane that MASK enables and leaves the other lanes of
VD; FINV (PSTAT bit 3) and ISAT (bit 4) are set when an enabled lane raises them, and only then touched. -/
def Obligations.FloatLaneResults : Prop :=
  ∀ (s : State) (p : Fin 32) (sat : Bool) (rd ra rb : BitVec 5) (mask : BitVec 4) (k : Fin 4), s.chip.podReady p.val →
    (s.chip.pod p.val).free [.v rd.toNat, .v ra.toNat] →
    let d := (s.chip.pod p.val).vget rd.toNat
    ∀ row, row ∈ floatRows p sat rd ra rb mask k d ((s.chip.pod p.val).vget ra.toNat) ((s.chip.pod p.val).vget rb.toNat) →
      (row.2.1 = true → (s.chip.pod p.val).owes (.v rb.toNat) = false) →
      ∃ (v : W128) (inv clamp : Bool),
        exec row.1 s = .next (s.podDone p.val fun q => ((q.vset rd.toNat v).finv inv).isat clamp) ∧
        (∀ i, i < 4 → flane v i = if mask.toNat.testBit i then (row.2.2 i).1 else flane d i) ∧
        (inv = true ↔ ∃ i, i < 4 ∧ mask.toNat.testBit i = true ∧ (row.2.2 i).2.1 = true) ∧
        (clamp = true ↔ ∃ i, i < 4 ∧ mask.toNat.testBit i = true ∧ (row.2.2 i).2.2 = true)

/-- R44: the exact value m × 2^e of a sum or product is truncated toward zero to a 24-bit significand; a magnitude of 2^128
or more becomes the largest finite value of its sign, one below 2^−126 becomes zero of its sign.
R44 step 5, R88: with finite operands FADD, FSUB, FMUL, FMA and FMS give the exact sum or product, truncated so once; FDIV and
FSQRT give the quotient and the root with the largest 24-bit significand that does not exceed it. An exact zero sum of operands of
opposite sign is +0 (step 6), a finite value over zero is ∞ of the quotient's sign, with S = 1 the largest finite value (step 4, R45).
R44 steps 2 and 3, R45: a NaN operand, and each invalid operation (∞ − ∞, 0 × ∞, 0 / 0, ∞ / ∞, the root of a value below
−0), raises FINV; the result is the canonical NaN 0x7FC00000 with S = 0 and +0 with S = 1. With S = 1 an infinite operand counts as
the largest finite value of its sign. -/
def Obligations.FloatRoundingAndInvalids : Prop :=
  (∀ (z : W32) (m e : Int), m ≠ 0 →
    let r := trunc32 z m e
    let top : Int := (Nat.log2 m.natAbs : Int) + e
    (128 ≤ top → r = if m < 0 then 0xFF7FFFFF#32 else 0x7F7FFFFF#32) ∧
    (top < -126 → r = if m < 0 then 0x80000000#32 else 0) ∧
    (-126 ≤ top → top < 128 →
      (sigOf r < 0 ↔ m < 0) ∧ 2 ^ 23 ≤ (sigOf r).natAbs ∧ (sigOf r).natAbs < 2 ^ 24 ∧
      (e ≤ expOf r → (sigOf r).natAbs * 2 ^ (expOf r - e).toNat ≤ m.natAbs ∧
        m.natAbs < ((sigOf r).natAbs + 1) * 2 ^ (expOf r - e).toNat) ∧
      (expOf r ≤ e → (sigOf r).natAbs = m.natAbs * 2 ^ (e - expOf r).toNat))) ∧
  ((∀ (sat : Bool) (d a b : W32),
    let finite := fun (x : W32) => isNaN32 x = false ∧ isInf32 x = false
    let zero := fun (neg : Bool) => if neg then 0x80000000#32 else 0#32
    let largest := fun (neg : Bool) => if neg then 0xFF7FFFFF#32 else 0x7F7FFFFF#32
    let sum := sumExact (sigOf a) (expOf a) (sigOf b) (expOf b)
    let difference := sumExact (sigOf a) (expOf a) (-sigOf b) (expOf b)
    let product := sigOf a * sigOf b
    let neg := f32Sign a != f32Sign b
    let plus := sumExact (sigOf d) (expOf d) product (expOf a + expOf b)
    let minus := sumExact (sigOf d) (expOf d) (-product) (expOf a + expOf b)
    (finite a → finite b →
      (sum.1 ≠ 0 → fadd sat a b = (trunc32 0 sum.1 sum.2, false)) ∧
      (sum.1 = 0 → fadd sat a b = (zero (isZero32 a && f32Sign a && f32Sign b), false)) ∧
      (difference.1 ≠ 0 → fsub sat a b = (trunc32 0 difference.1 difference.2, false)) ∧
      (difference.1 = 0 → fsub sat a b = (zero (isZero32 a && f32Sign a && !f32Sign b), false)) ∧
      fmul sat a b = (trunc32 (zero neg) product (expOf a + expOf b), false)) ∧
    (finite d → finite a → finite b →
      (plus.1 ≠ 0 → fma sat d a b = (trunc32 0 plus.1 plus.2, false)) ∧
      (plus.1 = 0 → fma sat d a b = (zero (f32Sign d && neg), false)) ∧
      (minus.1 ≠ 0 → fms sat d a b = (trunc32 0 minus.1 minus.2, false)) ∧
      (minus.1 = 0 → fms sat d a b = (zero (f32Sign d && !neg), false))) ∧
    (finite a → finite b → isZero32 b = false →
      let r := (fdiv sat a b).1
      let n := (sigOf a).natAbs
      let k := (sigOf b).natAbs
      let e := expOf a - expOf b
      let top := if k ≤ n then e else e - 1
      (fdiv sat a b).2 = false ∧
      (isZero32 a = true → r = zero neg) ∧
      (isZero32 a = false → 128 ≤ top → r = largest neg) ∧
      (isZero32 a = false → top < -126 → r = zero neg) ∧
      (isZero32 a = false → -126 ≤ top → top < 128 → finite r ∧ f32Sign r = neg ∧ expOf r = top - 23 ∧
        2 ^ 23 ≤ (sigOf r).natAbs ∧ (sigOf r).natAbs < 2 ^ 24 ∧
        (sigOf r).natAbs * k ≤ n * 2 ^ (e - expOf r).toNat ∧ n * 2 ^ (e - expOf r).toNat < ((sigOf r).natAbs + 1) * k)) ∧
    (finite a → isZero32 a = false → isZero32 b = true →
      fdiv sat a b = (if sat then largest neg else if neg then 0xFF800000#32 else 0x7F800000#32, false)) ∧
    (finite a → isZero32 a = true → fsqrt sat a = (zero (f32Sign a), false)) ∧
    (finite a → isZero32 a = false → f32Sign a = false →
      let r := (fsqrt sat a).1
      (fsqrt sat a).2 = false ∧ finite r ∧ f32Sign r = false ∧ 2 ^ 23 ≤ (sigOf r).natAbs ∧ (sigOf r).natAbs < 2 ^ 24 ∧
      2 * expOf r ≤ expOf a ∧
      (sigOf r).natAbs ^ 2 ≤ (sigOf a).natAbs * 2 ^ (expOf a - 2 * expOf r).toNat ∧
      (sigOf a).natAbs * 2 ^ (expOf a - 2 * expOf r).toNat < ((sigOf r).natAbs + 1) ^ 2)) ∧
  (∀ (d a b : W32),
    let cap := fun (x : W32) => if isInf32 x then (if f32Sign x then 0xFF7FFFFF#32 else 0x7F7FFFFF#32) else x
    fadd true a b = fadd true (cap a) (cap b) ∧ fsub true a b = fsub true (cap a) (cap b) ∧
    fmul true a b = fmul true (cap a) (cap b) ∧ fdiv true a b = fdiv true (cap a) (cap b) ∧ fsqrt true a = fsqrt true (cap a) ∧
    fma true d a b = fma true (cap d) (cap a) (cap b) ∧ fms true d a b = fms true (cap d) (cap a) (cap b)) ∧
  (∀ (sat : Bool) (d a b : W32),
    let bad : W32 × Bool := (if sat then 0 else 0x7FC00000#32, true)
    (isNaN32 a = true →
      fadd sat a b = bad ∧ fadd sat b a = bad ∧ fsub sat a b = bad ∧ fsub sat b a = bad ∧ fmul sat a b = bad ∧
      fmul sat b a = bad ∧ fdiv sat a b = bad ∧ fdiv sat b a = bad ∧ fsqrt sat a = bad ∧
      fma sat a d b = bad ∧ fma sat d a b = bad ∧ fma sat d b a = bad ∧
      fms sat a d b = bad ∧ fms sat d a b = bad ∧ fms sat d b a = bad) ∧
    (isZero32 a = true → isZero32 b = true → fdiv sat a b = bad) ∧
    (f32Sign a = true → isZero32 a = false → fsqrt sat a = bad) ∧
    (sat = false → isInf32 a = true → isInf32 b = true →
      fdiv sat a b = bad ∧ (f32Sign a ≠ f32Sign b → fadd sat a b = bad) ∧ (f32Sign a = f32Sign b → fsub sat a b = bad)) ∧
    (sat = false → isInf32 a = true → isZero32 b = true →
      fmul sat a b = bad ∧ fmul sat b a = bad ∧ fma sat d a b = bad ∧ fma sat d b a = bad ∧ fms sat d a b = bad ∧ fms sat d b a = bad) ∧
    (sat = false → isInf32 d = true → (isInf32 a = true ∨ isInf32 b = true) →
      let neg := f32Sign a != f32Sign b
      (neg ≠ f32Sign d → fma sat d a b = bad) ∧ (neg = f32Sign d → fms sat d a b = bad))))

/-! ## Accumulators (R49 to R51, R92, R93) -/

/-- R50: one step adds an exact value to an 80-bit accumulator. With S = 0 it wraps and sets the accumulator's overflow flag
(PSTAT bit 16 + n) when the exact sum leaves the 80-bit range; with S = 1 it clamps and sets its saturation flag (24 + n). -/
def Obligations.AccumulatorStep : Prop :=
  ∀ (p : Pod) (sat : Bool) (n : Nat) (x : Int),
    let sum := (p.accGet n).toInt + x
    (-(2 ^ 79) ≤ sum → sum < 2 ^ 79 → p.accAdd sat n x = p.accSet n (BitVec.ofInt 80 sum)) ∧
    (sum < -(2 ^ 79) → p.accAdd sat n x =
      if sat then (p.accSet n (BitVec.ofInt 80 (-(2 ^ 79)))).flag (24 + n) true
      else (p.accSet n (BitVec.ofInt 80 sum)).flag (16 + n) true) ∧
    (2 ^ 79 ≤ sum → p.accAdd sat n x =
      if sat then (p.accSet n (BitVec.ofInt 80 (2 ^ 79 - 1))).flag (24 + n) true
      else (p.accSet n (BitVec.ofInt 80 sum)).flag (16 + n) true)

/-- R92: MAC2L, MAC2H, MSU2L and MSU2H make two accumulation steps of lane products, the lower lane first; MACP makes one
step into each accumulator of a pair; AADD one step by another accumulator; ACLR, ALOAD and ASETH write an accumulator.
R51, R93: AREAD shifts an accumulator right by RB and gives the low 64 bits, or with S = 1 the value clamped to 64 bits
with ISAT when the clamp changed it; AGRD gives the guard bits, sign-extended. The accumulator stays. -/
def Obligations.AccumulatorTransfers : Prop :=
  (∀ (s : State) (p : Fin 32) (sat : Bool) (n : Fin 8) (ra rb : BitVec 5), s.chip.podReady p.val →
    let q0 := s.chip.pod p.val
    let r := BitVec.ofNat 5 n.val
    let product := fun i => (BitVec.ofNat 32 (lane (q0.vget ra.toNat) 32 i)).toInt * (BitVec.ofNat 32 (lane (q0.vget rb.toNat) 32 i)).toInt
    let gives := fun (i : Instr) (f : Pod → Pod) => exec i s = .next (s.podDone p.val f)
    (q0.free [.v ra.toNat, .v rb.toNat] →
      gives (.mac2l p sat r ra rb 0) (fun q => (q.accAdd sat n.val (product 0)).accAdd sat n.val (product 1)) ∧
      gives (.mac2h p sat r ra rb 0) (fun q => (q.accAdd sat n.val (product 2)).accAdd sat n.val (product 3)) ∧
      gives (.msu2l p sat r ra rb 0) (fun q => (q.accAdd sat n.val (-product 0)).accAdd sat n.val (-product 1)) ∧
      gives (.msu2h p sat r ra rb 0) (fun q => (q.accAdd sat n.val (-product 2)).accAdd sat n.val (-product 3)) ∧
      (n.val % 2 = 0 →
        gives (.macp p sat r ra rb 0) (fun q => (q.accAdd sat n.val (product 0)).accAdd sat (n.val + 1) (product 2)))) ∧
    (∀ m : Fin 8, gives (.aadd p sat r (BitVec.ofNat 5 m.val) 0 0) (fun q => q.accAdd sat n.val (q0.accGet m.val).toInt)) ∧
    gives (.aclr p false r 0 0 0) (fun q => q.accSet n.val 0) ∧
    (q0.free [.s ra.toNat] →
      gives (.aload p false r ra 0 0) (fun q => q.accSet n.val ((q0.sget ra.toNat).signExtend 80)) ∧
      gives (.aseth p false r ra 0 0) (fun q =>
        q.accSet n.val (((q0.sget ra.toNat).truncate 16).zeroExtend 80 <<< 64 ||| ((q0.accGet n.val).truncate 64).zeroExtend 80)))) ∧
  (∀ (s : State) (p : Fin 32) (n : Fin 8) (rd rb : BitVec 5), s.chip.podReady p.val → (s.chip.pod p.val).free [.s rd.toNat] →
    let a := (s.chip.pod p.val).accGet n.val
    let x := a.toInt / 2 ^ rb.toNat
    let r := BitVec.ofNat 5 n.val
    exec (.aread p false rd r rb 0) s = .next (s.podDone p.val fun q => q.sset rd.toNat (BitVec.ofInt 64 x)) ∧
    (-(2 ^ 63) ≤ x → x < 2 ^ 63 →
      exec (.aread p true rd r rb 0) s = .next (s.podDone p.val fun q => q.sset rd.toNat (BitVec.ofInt 64 x))) ∧
    (x < -(2 ^ 63) → exec (.aread p true rd r rb 0) s = .next (s.podDone p.val fun q =>
      (q.sset rd.toNat (BitVec.ofInt 64 (-(2 ^ 63)))).flag 4 true)) ∧
    (2 ^ 63 ≤ x → exec (.aread p true rd r rb 0) s = .next (s.podDone p.val fun q =>
      (q.sset rd.toNat (BitVec.ofInt 64 (2 ^ 63 - 1))).flag 4 true)) ∧
    exec (.agrd p false rd r 0 0) s = .next (s.podDone p.val fun q =>
      q.sset rd.toNat (((a >>> 64).truncate 16).signExtend 64)))

/-! ## Loads and stores (R54 to R63, R94 to R96) -/

/-- R62, R63, R95: the address and the pointer of the three modes. A linear generator (LEN 0) gives BASE + PTR and steps its
pointer by STEP; a circular one is used only while its pointer lies below LEN, and adds or subtracts LEN once after the step, which
keeps a step of at most LEN within the buffer; where a larger step leaves the pointer outside, the next such access is refused; an
index and an offset leave the pointer. -/
def Obligations.GeneratorAddresses : Prop :=
  ∀ (p : Pod) (ag off size : Nat),
    let g := p.agGet ag
    let base := g.base.toNat
    let ptr := g.ptr.toNat
    (g.len = 0 → p.memAddr ag 0 off size = some ((base + ptr) % 2 ^ 40, { g with ptr := g.ptr + g.step })) ∧
    (g.len ≠ 0 → g.len.toNat ≤ ptr → p.memAddr ag 0 off size = none) ∧
    (g.len ≠ 0 → ptr < g.len.toNat → g.step.toInt.natAbs ≤ g.len.toNat → ∃ next : Nat,
      p.memAddr ag 0 off size = some ((base + ptr) % 2 ^ 40, { g with ptr := BitVec.ofNat 24 next }) ∧
      next < g.len.toNat ∧ (next : Int) % g.len.toNat = ((ptr : Int) + g.step.toInt) % g.len.toNat) ∧
    (g.len ≠ 0 → ptr < g.len.toNat →
      let x := (ptr : Int) + g.step.toInt
      let y := if x < 0 then x + g.len.toNat else if (g.len.toNat : Int) ≤ x then x - g.len.toNat else x
      let h := { g with ptr := BitVec.ofInt 24 y }
      p.memAddr ag 0 off size = some ((base + ptr) % 2 ^ 40, h) ∧
      (y < 0 ∨ (g.len.toNat : Int) ≤ y → ∀ n, (p.agSet ag h).memAddr ag 0 off n = none)) ∧
    (∃ a, p.memAddr ag 1 off size = some (a, g) ∧
      let x := (ptr : Int) + (p.sget (off % 32)).toInt
      a = (((base : Int) + if g.len = 0 then x % 2 ^ 24 else x % g.len.toNat) % 2 ^ 40).toNat) ∧
    (∃ a, p.memAddr ag 2 off size = some (a, g) ∧
      let x := (ptr : Int) + (BitVec.ofNat 15 off).toInt * size
      a = (((base : Int) + if g.len = 0 then x else x % g.len.toNat) % 2 ^ 40).toNat)

/-- The loads: size in bytes, kind, and what the loaded number does to the pod. -/
def Sys2Proof.Machine.loadRows (p : Fin 32) (rt : BitVec 5) (ag : BitVec 3) (mode : BitVec 2) (off : BitVec 15) :
    List (Instr × LoadKind × (Nat → Pod → Pod)) :=
  [ (.lb p rt ag mode off .pass, .sext 1, fun x q => q.sset rt.toNat ((BitVec.ofNat 8 x).signExtend 64)),
    (.lbu p rt ag mode off .pass, .zext 1, fun x q => q.sset rt.toNat ((BitVec.ofNat 8 x).zeroExtend 64)),
    (.lh p rt ag mode off .pass, .sext 2, fun x q => q.sset rt.toNat ((BitVec.ofNat 16 x).signExtend 64)),
    (.lhu p rt ag mode off .pass, .zext 2, fun x q => q.sset rt.toNat ((BitVec.ofNat 16 x).zeroExtend 64)),
    (.lw p rt ag mode off .pass, .sext 4, fun x q => q.sset rt.toNat ((BitVec.ofNat 32 x).signExtend 64)),
    (.lwu p rt ag mode off .pass, .zext 4, fun x q => q.sset rt.toNat ((BitVec.ofNat 32 x).zeroExtend 64)),
    (.ld p rt ag mode off .pass, .zext 8, fun x q => q.sset rt.toNat (BitVec.ofNat 64 x)),
    (.lv p rt ag mode off .pass, .vec, fun x q => q.vset rt.toNat (BitVec.ofNat 128 x)) ]

/-- What a format M word needs to issue: a legal mode, and the registers that the access uses not owed. -/
def Sys2Proof.Machine.Pod.memReady (q : Pod) (r : PReg) (mode : BitVec 2) (off : BitVec 15) : Prop :=
  ((mode = 0 ∧ off = 0) ∨ (mode = 1 ∧ off.toNat < 32) ∨ mode = 2) ∧ q.owes r = false ∧
    (mode = 1 → q.owes (.s off.toNat) = false)

/-- R37, R54, R94, R95: an aligned load from the pod's own memories (below 0x50000) over a good line that no LDSTV still has to
store to delivers the bytes at once, in the width and with the extension of its kind, and moves the generator. -/
def Obligations.OwnLoads : Prop :=
  ∀ (s : State) (p : Fin 32) (rt : BitVec 5) (ag : BitVec 3) (mode : BitVec 2) (off : BitVec 15) (a : Nat) (g : AddrGen),
    s.chip.podReady p.val →
    ∀ row, row ∈ loadRows p rt ag mode off →
      (s.chip.pod p.val).memReady (row.2.1.reg rt.toNat) mode off →
      (s.chip.pod p.val).memAddr ag.toNat mode.toNat off.toNat row.2.1.bytes = some (a, g) → a % row.2.1.bytes = 0 →
      a < 0x50000 → s.chip.lineGood (podWin p.val + a) → (s.chip.pod p.val).awaits a row.2.1.bytes = false →
      exec row.1 s = .next (s.podDoneOn p.val
        ((s.chip.modPod p.val (row.2.2 (s.chip.numAt (podWin p.val + a) row.2.1.bytes))).modPod p.val fun q =>
          q.agSet ag.toNat g))

/-- The stores: size in bytes, the register that holds the data, and the number stored. -/
def Sys2Proof.Machine.storeRows (p : Fin 32) (rt : BitVec 5) (ag : BitVec 3) (mode : BitVec 2) (off : BitVec 15) (q : Pod) :
    List (Instr × Nat × PReg × Nat) :=
  [ (.sb p rt ag mode off .pass, 1, .s rt.toNat, (q.sget rt.toNat).toNat),
    (.sh p rt ag mode off .pass, 2, .s rt.toNat, (q.sget rt.toNat).toNat),
    (.sw p rt ag mode off .pass, 4, .s rt.toNat, (q.sget rt.toNat).toNat),
    (.sd p rt ag mode off .pass, 8, .s rt.toNat, (q.sget rt.toNat).toNat),
    (.sv p rt ag mode off .pass, 16, .v rt.toNat, (q.vget rt.toNat).toNat) ]

/-- R2, R37, R54, R95: an aligned store to the pod's own data memory (below 0x40000) outside a backed region (R420) writes
the low bytes of its register, least significant first, at the address that its generator gives; every other byte of memory
keeps its value, and of the pods only this one changes, by its generator and its move to the next instruction.
R38, R40: a store to the pod's own instruction memory (0x40000 to 0x4FFFF) is discarded, logged with KIND 2, and event 9 fires. -/
def Obligations.OwnStores : Prop :=
  ∀ (s : State) (p : Fin 32) (rt : BitVec 5) (ag : BitVec 3) (mode : BitVec 2) (off : BitVec 15) (a : Nat) (g : AddrGen),
    s.chip.podReady p.val →
    (∀ row, row ∈ storeRows p rt ag mode off (s.chip.pod p.val) →
      (s.chip.pod p.val).memReady row.2.2.1 mode off →
      (s.chip.pod p.val).memAddr ag.toNat mode.toNat off.toNat row.2.1 = some (a, g) → a % row.2.1 = 0 → a < 0x40000 →
      s.chip.mem.handling.contains ((podWin p.val + a) / 64) = false → s.chip.isBacked (podWin p.val + a) = false →
      (s.chip.pod p.val).awaits a row.2.1 = false →
      ∃ t : State, exec row.1 s = .next t ∧
        (∀ x, t.chip.byteAt x = if podWin p.val + a ≤ x ∧ x < podWin p.val + a + row.2.1 then
          BitVec.ofNat 8 (row.2.2.2 / 256 ^ (x - (podWin p.val + a))) else s.chip.byteAt x) ∧
        (Memory.wf s.chip.cells = true → Memory.wf t.chip.cells = true) ∧
        t.chip.pods = (s.podDone p.val fun q => q.agSet ag.toNat g).chip.pods ∧ t.chip.regs = s.chip.regs ∧
        t.husk = s.husk ∧ t.core = s.core ∧ t.pending = s.pending) ∧
    (∀ row, row ∈ storeRows p rt ag mode off (s.chip.pod p.val) →
      (s.chip.pod p.val).memReady row.2.2.1 mode off →
      (s.chip.pod p.val).memAddr ag.toNat mode.toNat off.toNat row.2.1 = some (a, g) → a % row.2.1 = 0 →
      0x40000 ≤ a → a < 0x50000 →
      exec row.1 s = .next (s.podDoneOn p.val (((s.chip.logAccess p.val 2 a).fire 9).modPod p.val fun q => q.agSet ag.toNat g)))

/-- R58, R94: an aligned load from any other mapped address enters the pod's outstanding loads, of which it holds at most
four; a load of 1 or 2 bytes from a register is not one (R470).
R60: an aligned store to the fabric enters the pod's store buffer of eight entries.
It rests on the model's choices and deductions of log entry 6. -/
def Obligations.FabricAccessesIssue : Prop :=
  (∀ (s : State) (p : Fin 32) (rt : BitVec 5) (ag : BitVec 3) (mode : BitVec 2) (off : BitVec 15) (a : Nat) (g : AddrGen),
    s.chip.podReady p.val →
    ∀ row, row ∈ loadRows p rt ag mode off →
      (s.chip.pod p.val).memReady (row.2.1.reg rt.toNat) mode off →
      (s.chip.pod p.val).memAddr ag.toNat mode.toNat off.toNat row.2.1.bytes = some (a, g) → a % row.2.1.bytes = 0 →
      0x50000 ≤ a → spaceOf a ≠ .unmapped → (spaceOf a = .regs → 4 ≤ row.2.1.bytes) →
      (s.chip.pod p.val).loads.length < 4 →
      exec row.1 s = .next (s.podDoneOn p.val ((s.chip.modPod p.val fun q => { q with loads := q.loads ++
        [{ rt := rt.toNat, addr := a, kind := row.2.1, pc := q.pc, behind := q.stores.length,
           undo := [(ag.toNat, (q.agGet ag.toNat).ptr)], levels := q.levels }] }).modPod p.val fun q => q.agSet ag.toNat g))) ∧
  (∀ (s : State) (p : Fin 32) (rt : BitVec 5) (ag : BitVec 3) (mode : BitVec 2) (off : BitVec 15) (a : Nat) (g : AddrGen),
    s.chip.podReady p.val →
    ∀ row, row ∈ storeRows p rt ag mode off (s.chip.pod p.val) →
      (s.chip.pod p.val).memReady row.2.2.1 mode off →
      (s.chip.pod p.val).memAddr ag.toNat mode.toNat off.toNat row.2.1 = some (a, g) → a % row.2.1 = 0 → 0x50000 ≤ a →
      (s.chip.pod p.val).stores.length < 8 →
      exec row.1 s = .next (s.podDoneOn p.val ((s.chip.modPod p.val fun q => { q with stores := q.stores ++
        [{ addr := a, bytes := toBytes row.2.1 row.2.2.2, dwr := false }] }).modPod p.val fun q => q.agSet ag.toNat g)))

/-- R57, R68: a load or store whose address is not a multiple of its size traps with cause 5, a load from an unmapped address
or of less than a word from a register with cause 4 (R40, R470), and one through a circular generator whose pointer lies outside
its buffer with cause 1 (R62); EADDR holds the address, of cause 1 that of the instruction, and no generator moves.
It rests on the model's choices and deductions of log entry 21. -/
def Obligations.AccessTraps : Prop :=
  ∀ (s : State) (p : Fin 32) (rt : BitVec 5) (ag : BitVec 3) (mode : BitVec 2) (off : BitVec 15) (a : Nat) (g : AddrGen),
    s.chip.podReady p.val →
    (∀ row, row ∈ loadRows p rt ag mode off → (s.chip.pod p.val).memReady (row.2.1.reg rt.toNat) mode off →
      ((s.chip.pod p.val).memAddr ag.toNat mode.toNat off.toNat row.2.1.bytes = some (a, g) →
        (a % row.2.1.bytes ≠ 0 → exec row.1 s = .next (s.podNow p.val fun q => q.syncTrap 5 a)) ∧
        (a % row.2.1.bytes = 0 → 0x50000 ≤ a → (spaceOf a = .unmapped ∨ (spaceOf a = .regs ∧ row.2.1.bytes < 4)) →
          exec row.1 s = .next (s.podNow p.val fun q => q.syncTrap 4 a))) ∧
      ((s.chip.pod p.val).memAddr ag.toNat mode.toNat off.toNat row.2.1.bytes = none →
        exec row.1 s = .next (s.podNow p.val fun q => q.syncTrap 1 q.pc.toNat))) ∧
    (∀ row, row ∈ storeRows p rt ag mode off (s.chip.pod p.val) → (s.chip.pod p.val).memReady row.2.2.1 mode off →
      ((s.chip.pod p.val).memAddr ag.toNat mode.toNat off.toNat row.2.1 = some (a, g) → a % row.2.1 ≠ 0 →
        exec row.1 s = .next (s.podNow p.val fun q => q.syncTrap 5 a)) ∧
      ((s.chip.pod p.val).memAddr ag.toNat mode.toNat off.toNat row.2.1 = none →
        exec row.1 s = .next (s.podNow p.val fun q => q.syncTrap 1 q.pc.toNat)))

/-- R96: the paired accesses. On the own memories LDVV loads two vectors, the second last, so that it stays where both name
one register (R82), and LDSTV loads V1 and stores the value that V2 held before. On the fabric LDVV sends two loads that
write their registers together (R68), and LDSTV a load and a store that waits for its data (R55). Both generators move, slot
A's first.
It rests on the model's choices and deductions of log entry 22. -/
def Obligations.PairedAccesses : Prop :=
  ∀ (s : State) (p : Fin 32) (v1 v2 : BitVec 5) (ag1 ag2 : BitVec 3) (a1 a2 : Nat) (q1 : Pod),
    s.chip.podReady p.val → (s.chip.pod p.val).free [.v v1.toNat, .v v2.toNat] →
    (s.chip.pod p.val).pairAddrs ag1.toNat ag2.toNat = some (a1, a2, q1) → a1 % 16 = 0 → a2 % 16 = 0 →
    let q0 := s.chip.pod p.val
    let awaits := q0.awaits
    let own := fun (a : Nat) => a < 0x50000 ∧ s.chip.lineGood (podWin p.val + a) ∧ awaits a 16 = false
    let fabric := fun (a : Nat) => 0x50000 ≤ a ∧ spaceOf a ≠ .unmapped
    let bytes := fun (a : Nat) => s.chip.bytesAt (podWin p.val + a) 16
    let k1 : LoadKind := if v1 = v2 then .sext 16 else .vec
    let r1 := if v1 = v2 then 0 else v1.toNat
    let sent := fun (q : Pod) (r : Nat) (a : Nat) (k : LoadKind) (m : Mate) (keep : Option (Nat × List Byte)) =>
      ({ rt := r, addr := a, kind := k, pc := q.pc, behind := q.stores.length,
         undo := [(ag1.toNat, (q.agGet ag1.toNat).ptr), (ag2.toNat, (q.agGet ag2.toNat).ptr)],
         levels := q.levels, mate := m, keep := keep } : FabLoad)
    let after := fun (i : Instr) (f g : Pod → Pod) =>
      exec i s = .next (s.podDoneOn p.val (((s.chip.modPod p.val f).modPod p.val g).modPod p.val fun q => { q with ag := q1.ag }))
    let ldvv : Instr := .ldvv p v1 v2 ag1 ag2 0 .pass .pass
    let ldstv : Instr := .ldstv p v1 v2 ag1 ag2 0 .pass .pass
    let store := ({ addr := a2, bytes := toBytes 16 (q0.vget v2.toNat).toNat, dwr := false } : FabStore)
    (fabric a1 → fabric a2 → q0.loads.length ≤ 2 →
      after ldvv (fun q => { q with loads := q.loads ++ [sent q r1 a1 k1 .next none, sent q v2.toNat a2 .vec .prev none] }) id) ∧
    (fabric a1 → own a2 → q0.loads.length ≤ 3 →
      after ldvv (fun q => { q with loads := q.loads ++ [sent q r1 a1 k1 .alone (some (v2.toNat, bytes a2))] }) id) ∧
    (own a1 → fabric a2 → q0.loads.length ≤ 3 → after ldvv (fun q => { q with
      loads := q.loads ++ [sent q v2.toNat a2 .vec .alone (if v1 = v2 then none else some (v1.toNat, bytes a1))] }) id) ∧
    (fabric a1 → 0x50000 ≤ a2 → q0.loads.length ≤ 3 → q0.stores.length < 8 →
      after ldstv (fun q => { q with loads := q.loads ++ [sent q v1.toNat a1 .vec .bufStore none] })
        fun q => { q with stores := q.stores ++ [{ store with held := true }] }) ∧
    (fabric a1 → a2 < 0x50000 → s.chip.ownStoreWaits p.val a2 16 = false → q0.loads.length ≤ 3 →
      after ldstv (fun q => { q with loads := q.loads ++ [sent q v1.toNat a1 .vec (.localStore a2 store.bytes .pass) none] }) id) ∧
    (own a1 → 0x50000 ≤ a2 → q0.stores.length < 8 → after ldstv (fun q => { q with stores := q.stores ++ [store] })
      fun q => q.vset v1.toNat (BitVec.ofNat 128 (s.chip.numAt (podWin p.val + a1) 16))) ∧
    (a1 < 0x50000 → s.chip.lineGood (podWin p.val + a1) → awaits a1 16 = false →
    let x1 := BitVec.ofNat 128 (s.chip.numAt (podWin p.val + a1) 16)
    let x2 := BitVec.ofNat 128 (s.chip.numAt (podWin p.val + a2) 16)
    (a2 < 0x50000 → s.chip.lineGood (podWin p.val + a2) → awaits a2 16 = false →
      exec (.ldvv p v1 v2 ag1 ag2 0 .pass .pass) s = .next (s.podDoneOn p.val
        (((s.chip.modPod p.val fun q => if v1 = v2 then q else q.vset v1.toNat x1).modPod p.val fun q =>
          q.vset v2.toNat x2).modPod p.val fun q => { q with ag := q1.ag }))) ∧
    (a2 < 0x40000 → s.chip.mem.handling.contains ((podWin p.val + a2) / 64) = false →
      s.chip.isBacked (podWin p.val + a2) = false → awaits a2 16 = false →
      exec (.ldstv p v1 v2 ag1 ag2 0 .pass .pass) s = .next (s.podDoneOn p.val
        ((((s.chip.putBytes (podWin p.val + a2) (toBytes 16 ((s.chip.pod p.val).vget v2.toNat).toNat)).modPod p.val fun q =>
          q.vset v1.toNat x1).modPod p.val fun q => { q with ag := q1.ag })))))

/-! ## Branches, jumps and repeats (R64 to R67, R97 to R99) -/

/-- R97: a conditional branch goes to PC + 4 × OFF when its condition on RA and RB holds, and to the next instruction when
not; no register changes. A taken branch closes the repeat levels that it leaves (R66), which `Pod.jump` says.
R97, R98: the unconditional transfers. BL and JALR leave PC + 4 in their register first; JR and JALR go to the word at
RA[15:0].
It rests on the model's choices and deductions of log entry 112. -/
def Obligations.BranchesAndCalls : Prop :=
  (∀ (s : State) (p : Fin 32) (ra rb : BitVec 5) (off : BitVec 15), s.chip.podReady p.val →
    (s.chip.pod p.val).free [.s ra.toNat, .s rb.toNat] →
    let a := (s.chip.pod p.val).sget ra.toNat
    let b := (s.chip.pod p.val).sget rb.toNat
    let gives := fun (i : Instr) (taken : Prop) =>
      (taken → exec i s = .next (s.podNow p.val fun q => q.jump (q.pc + off.signExtend 16 * 4))) ∧
      (¬ taken → exec i s = .next (s.podDoneOn p.val s.chip))
    gives (.beq p ra rb off) (a = b) ∧ gives (.bne p ra rb off) (a ≠ b) ∧
    gives (.blt p ra rb off) (a.toInt < b.toInt) ∧ gives (.bge p ra rb off) (b.toInt ≤ a.toInt) ∧
    gives (.bltu p ra rb off) (a.toNat < b.toNat) ∧ gives (.bgeu p ra rb off) (b.toNat ≤ a.toNat)) ∧
  (∀ (s : State) (p : Fin 32) (rd ra : BitVec 5) (off : BitVec 15), s.chip.podReady p.val →
    let q0 := s.chip.pod p.val
    let there := (q0.sget ra.toNat).truncate 16 &&& 0xFFFC#16
    let target := q0.pc + off.signExtend 16 * 4
    let link := fun (r : BitVec 5) (q : Pod) => q.sset r.toNat ((q.pc + 4).zeroExtend 64)
    exec (.br p 0 0 off) s = .next (s.podNow p.val fun q => q.jump target) ∧
    (q0.free [.s ra.toNat] → exec (.bl p ra 0 off) s =
      .next ((s.podNow p.val (link ra)).podNow p.val fun q => q.jump target)) ∧
    (q0.free [.s ra.toNat] → exec (.jr p 0 ra 0) s = .next (s.podNow p.val fun q => q.jump there)) ∧
    (q0.free [.s rd.toNat, .s ra.toNat] → exec (.jalr p rd ra 0) s =
      .next ((s.podNow p.val (link rd)).podNow p.val fun q => q.jump there)))

/-- R64, R65, R99: REP with LVL equal to the open levels opens one more over the LEN instructions that follow, within the
outer bodies; REPR the same with its count from RA, and with a count of 0 it skips the body. With four levels open a repeat,
whatever its LVL, is not executed and traps with cause 2.
R65, R67: at the end of a body the innermost level that ends there starts its next iteration, or, in its last one, closes
and leaves the pc to the next level or to PC + 4; elsewhere the pod goes to PC + 4.
It rests on the model's choices and deductions of log entry 25. -/
def Obligations.HardwareLoops : Prop :=
  (∀ (s : State) (p : Fin 32) (len : Nat) (cnt : BitVec 16) (ra : BitVec 5), s.chip.podReady p.val →
    let q0 := s.chip.pod p.val
    let last := q0.pc.toNat + 4 * len
    let opened := fun (n : Nat) (q : Pod) =>
      { q with levels := q.levels ++ [{ cnt := n, first := q.pc + 4, last := BitVec.ofNat 16 last }] }
    let lvl := q0.levels.length
    0 < len → len < 4096 → last ≤ 0xFFFC → (∀ l, l ∈ q0.levels → last ≤ l.last.toNat) →
    (lvl < 4 →
      (cnt ≠ 0 →
        exec (.rep p (BitVec.ofNat 2 lvl) (BitVec.ofNat 12 len) cnt) s = .next (s.podDone p.val (opened cnt.toNat))) ∧
      (q0.free [.s ra.toNat] →
        let n := (q0.sget ra.toNat).toNat
        (0 < n → n ≤ 65535 → exec (.repr p (BitVec.ofNat 5 lvl) ra (BitVec.ofNat 12 len)) s = .next (s.podDone p.val (opened n))) ∧
        (n = 0 → exec (.repr p (BitVec.ofNat 5 lvl) ra (BitVec.ofNat 12 len)) s =
          .next (s.podDone p.val fun q => { q with pc := BitVec.ofNat 16 last })))) ∧
    (lvl = 4 →
      let trapped := Host.Outcome.next (s.podNow p.val fun q => q.syncTrap 2 q.pc.toNat)
      (∀ any : BitVec 2, cnt ≠ 0 → exec (.rep p any (BitVec.ofNat 12 len) cnt) s = trapped) ∧
      (∀ any : Fin 4, q0.free [.s ra.toNat] → 0 < (q0.sget ra.toNat).toNat → (q0.sget ra.toNat).toNat ≤ 65535 →
        exec (.repr p (BitVec.ofNat 5 any.val) ra (BitVec.ofNat 12 len)) s = trapped))) ∧
  (∀ (p : Pod) (outer : List RepLevel) (l : RepLevel),
    (p.levels = [] → p.retire = { p with pc := p.pc + 4 }) ∧
    (p.levels = outer ++ [l] →
      (l.last ≠ p.pc → p.retire = { p with pc := p.pc + 4 }) ∧
      (l.last = p.pc → 1 < l.cnt → p.retire = { p with pc := l.first, levels := outer ++ [{ l with cnt := l.cnt - 1 }] }) ∧
      (l.last = p.pc → l.cnt ≤ 1 → p.retire = ({ p with levels := outer } : Pod).retire)))

/-! ## Sprouts, events and system instructions (R52, R61, R76, R77, R100 to R106) -/

/-- R76, R118: every GET loads the accept mask. With an untaken sprout it takes the oldest and gives its GET word; with all
eight slots holding taken sprouts it gives NONE (0x8000); else the pod sleeps and stays at the GET. -/
def Obligations.GetTakesOldest : Prop :=
  ∀ (s : State) (p : Fin 32) (rd ra : BitVec 5), s.chip.podReady p.val →
    let q0 := s.chip.pod p.val
    let mask := q0.sget ra.toNat
    q0.free [.s rd.toNat, .s ra.toNat] → mask ≠ 0 →
    (∀ k x, q0.oldestUntaken = some (k, x) → exec (.get p rd ra 0) s = .next (s.podDone p.val fun q =>
      ({ q with accept := mask, stamp := q.stamp + 1 }.setSlot k (some { x with taken := true, takenAt := q.stamp })).sset
        rd.toNat (sproutWord k x.sprout))) ∧
    (q0.oldestUntaken = none → 8 ≤ q0.held.length → exec (.get p rd ra 0) s =
      .next (s.podDone p.val fun q => { q with accept := mask }.sset rd.toNat 0x8000#64)) ∧
    (q0.oldestUntaken = none → q0.held.length < 8 → exec (.get p rd ra 0) s =
      .next (s.podNow p.val fun q => { q with accept := mask, state := .sleeping, getRd := rd.toNat }))

/-- R77, R101: the operations that a pod sends to the scheduler enter its queue of four: DONE of a slot with a taken sprout,
with its outcome word RA[63:32] (R122) and the number of earlier stores that it waits for; with the mask RA[31:0] (R100) POST and CANCEL of the task in IMM or, with RD not s0, in RD[11:0];
EVT of source 480 + IMM (R100).
It rests on the model's choices and deductions of log entries 26 and 92. -/
def Obligations.SchedulerOperations : Prop :=
  ∀ (s : State) (p : Fin 32) (rd ra : BitVec 5), s.chip.podReady p.val → (s.chip.pod p.val).toSched.length < 4 →
    let q0 := s.chip.pod p.val
    let v := q0.sget ra.toNat
    let gives := fun (i : Instr) (op : SchedOp) (f : Pod → Pod) =>
      exec i s = .next (s.podDone p.val fun q => f { q with toSched := q.toSched ++ [op] })
    (∀ (k : Nat) (x : Slot), q0.free [.s ra.toNat] → (v.toNat / 2 ^ 16) % 8 = k → q0.slot k = some x → x.taken = true →
      x.doneIssued = false → gives (.done p 0 ra 0) (.done k (v >>> 32 |>.truncate 32) q0.stores.length) fun q =>
        q.setSlot k (some { x with doneIssued := true })) ∧
    (∀ imm : BitVec 12, q0.free [.s 0, .s ra.toNat] →
      gives (.post p 0 ra imm) (.post imm.toNat (v.truncate 32)) id ∧
      gives (.cancel p 0 ra imm) (.cancel imm.toNat (v.truncate 32)) id) ∧
    (rd ≠ 0 → q0.free [.s rd.toNat, .s ra.toNat] →
      gives (.post p rd ra 0) (.post ((q0.sget rd.toNat).toNat % 4096) (v.truncate 32)) id ∧
      gives (.cancel p rd ra 0) (.cancel ((q0.sget rd.toNat).toNat % 4096) (v.truncate 32)) id) ∧
    (∀ n : Fin 32, gives (.evt p 0 0 (BitVec.ofNat 12 n.val)) (.evt n.val) id)

/-- R60, R100: NOP and, once every earlier store is acknowledged and that of every LDSTV is made, FENCE only move on; a FENCE with
stores in the buffer waits.
NOP's word is the major code 0xA with every other field 0.
R70: in a handler, outside the last word of an open body and with no trap pending, ERET goes back to EPC (a multiple of 4),
reopens the saved repeat levels, in place of any that the handler left open (the model's choice, log 101), clears TRAP_ACT and
leaves the handler.
It rests on the model's choices and deductions of log entries 91 and 101. -/
def Obligations.NopFenceAndReturn : Prop :=
  (∀ (s : State) (p : Fin 32), s.chip.podReady p.val →
    exec (.nop p 0xA0000000#32 .pass) s = .next (s.podDoneOn p.val s.chip) ∧
    ((s.chip.pod p.val).stores = [] → (s.chip.pod p.val).storesOwn = false →
      exec (.fence p 0 0 0) s = .next (s.podDoneOn p.val s.chip)) ∧
    ((s.chip.pod p.val).stores ≠ [] ∨ (s.chip.pod p.val).storesOwn = true → exec (.fence p 0 0 0) s = .next s)) ∧
  (∀ (s : State) (p : Fin 32), s.chip.podReady p.val →
    let q0 := s.chip.pod p.val
    q0.inHandler = true → (∀ l, l ∈ q0.levels → l.last ≠ q0.pc) → q0.pendOverrun = none → q0.pendFlag = none →
    exec (.eret p 0 0 0) s = .next (s.podNow p.val fun q => { q with
      pc := (q.epc.truncate 16) &&& 0xFFFC#16
      levels := q.reopened
      pstat := q.pstat &&& ~~~ 4#64
      state := .running }))

/-- R52, R102: MFSR reads and MTSR writes the special registers: PSTAT (a one clears a flag), TRAPEN[2:0], EPC, ECAUSE[15:0],
EADDR[39:0], EREP, AGSTAT (a one clears a bit); ESPROUT, CYCLE and the repeat counts are read-only. CYCLE of a pod that has
run is a count whose growth is free, and which never falls but where it wraps.
R63, R103: AGW writes BASE, LEN, PTR or STEP of a generator, AGR reads one (STEP sign-extended). A LEN or PTR that leaves
the pointer at or above LEN reduces the pointer modulo LEN and sets the generator's CIRC_TRIM bit in AGSTAT.
It rests on the model's choices and deductions of log entry 13. -/
def Obligations.SpecialRegistersAndGenerators : Prop :=
  (∀ (s : State) (p : Fin 32) (r : BitVec 5), s.chip.podReady p.val → (s.chip.pod p.val).free [.s r.toNat] →
    let q0 := s.chip.pod p.val
    let v := q0.sget r.toNat
    let reads := fun (k : Nat) (x : W64) =>
      exec (.mfsr p r 0 (BitVec.ofNat 12 k)) s = .next (s.podDone p.val fun q => q.sset r.toNat x)
    let writes := fun (k : Nat) (f : Pod → Pod) => exec (.mtsr p 0 r (BitVec.ofNat 12 k)) s = .next (s.podDone p.val f)
    (reads 0 q0.pstat ∧ reads 1 q0.trapen ∧ reads 2 q0.epc ∧ reads 3 q0.ecause ∧ reads 4 q0.eaddr ∧ reads 5 q0.erep ∧
      reads 6 q0.esprout ∧ reads 8 q0.agstat ∧ reads 9 (repCounts q0.levels)) ∧
    (writes 0 (fun q => { q with pstat := q.pstat &&& ~~~ (v &&& 0xFFFF0018#64) }) ∧
      writes 1 (fun q => { q with trapen := v &&& 7 }) ∧ writes 2 (fun q => { q with epc := v }) ∧
      writes 3 (fun q => { q with ecause := v &&& 0xFFFF }) ∧ writes 4 (fun q => { q with eaddr := v &&& 0xFFFFFFFFFF }) ∧
      writes 5 (fun q => { q with erep := v }) ∧ writes 6 id ∧ writes 7 id ∧
      writes 8 (fun q => { q with agstat := q.agstat &&& ~~~ (v &&& 0xFF) }) ∧ writes 9 id) ∧
    exec (.mfsr p r 0 7) s = .next (s.podDoneOn p.val (({ s.chip with draws := s.chip.draws + 1 } : Chip).modPod p.val fun q =>
      (q.count (Config.freeValue s.chip.draws)).sset r.toNat (q.count (Config.freeValue s.chip.draws)).cyc)) ∧
    (∀ x : W64, q0.cyc = BitVec.allOnes 64 ∨ q0.cyc ≤ (q0.count x).cyc)) ∧
  (∀ (s : State) (p : Fin 32) (r : BitVec 5) (k : Fin 8), s.chip.podReady p.val → (s.chip.pod p.val).free [.s r.toNat] →
    let q0 := s.chip.pod p.val
    let g := q0.agGet k.val
    let v := q0.sget r.toNat
    let field := fun (f : Nat) => BitVec.ofNat 12 (16 * f + k.val)
    let writes := fun (f : Nat) (h : AddrGen) =>
      ((f = 0 ∨ f = 3 ∨ h.len = 0 ∨ h.ptr < h.len) → exec (.agw p 0 r (field f)) s = .next (s.podDone p.val fun q => q.agSet k.val h)) ∧
      (f = 1 ∨ f = 2 → h.len ≠ 0 → ¬ h.ptr < h.len → exec (.agw p 0 r (field f)) s = .next (s.podDone p.val fun q =>
        { q.agSet k.val { h with ptr := h.ptr % h.len } with agstat := q.agstat ||| BitVec.ofNat 64 (2 ^ k.val) }))
    let reads := fun (f : Nat) (x : W64) => exec (.agr p r 0 (field f)) s = .next (s.podDone p.val fun q => q.sset r.toNat x)
    writes 0 { g with base := v.truncate 40 } ∧ writes 1 { g with len := v.truncate 24 } ∧
    writes 2 { g with ptr := v.truncate 24 } ∧ writes 3 { g with step := v.truncate 24 } ∧
    reads 0 (g.base.zeroExtend 64) ∧ reads 1 (g.len.zeroExtend 64) ∧ reads 2 (g.ptr.zeroExtend 64) ∧
    reads 3 (g.step.signExtend 64))

/-- R104: TIMRD of SRC 6 gives the tick number; of base b, with part 1 the seconds modulo 2^48, with part 0 the low 16 bits
of the seconds over the nanoseconds in bits 47 to 16 and the fraction in 2^−16 ns. -/
def Obligations.TimeReads : Prop :=
  ∀ (s : State) (p : Fin 32) (rd : BitVec 5), s.chip.podReady p.val → (s.chip.pod p.val).free [.s rd.toNat] →
    let gives := fun (imm : Nat) (x : Nat) =>
      exec (.timrd p rd 0 (BitVec.ofNat 12 imm)) s = .next (s.podDone p.val fun q => q.sset rd.toNat (BitVec.ofNat 64 x))
    gives 6 s.chip.tick ∧
    ∀ b, b < 6 →
      let t := (s.chip.base b).val / 2 ^ 28
      let sec := t / (1000000000 * 65536)
      gives (8 + b) (sec % 2 ^ 48) ∧
      gives b (sec % 2 ^ 16 * 2 ^ 48 + t / 65536 % 1000000000 * 65536 + t % 65536)

/-- R105: FBW gives a pod that holds a taken tick-bound sprout of a publish buffer's owner the half that this tick fills; FBR
gives any pod the half last published. A buffer that the plan does not have, and FBW without such a sprout, trap as an illegal
instruction. -/
def Obligations.PublishBuffers : Prop :=
  ∀ (s : State) (p : Fin 32) (rd : BitVec 5) (imm : BitVec 12), s.chip.podReady p.val →
    (s.chip.pod p.val).free [.s rd.toNat] →
    let q0 := s.chip.pod p.val
    let owns := fun (x : PubBuf) =>
      ∃ k y, (k, y) ∈ q0.held ∧ y.taken = true ∧ y.sprout.tb = true ∧ y.sprout.task = x.owner
    let gives := fun (i : Instr) (half : Nat) =>
      exec i s = .next (s.podDone p.val fun q => q.sset rd.toNat (BitVec.ofNat 64 (0x10000000 + half)))
    (∀ x, s.chip.pubBuf imm.toNat = some x →
      gives (.fbr p rd 0 imm) (if x.published then x.half1 else x.half0) ∧
      (owns x → gives (.fbw p rd 0 imm) (if x.published then x.half0 else x.half1)) ∧
      (¬ owns x → exec (.fbw p rd 0 imm) s = .next (s.podNow p.val fun q => q.syncTrap 1 q.pc.toNat))) ∧
    (s.chip.pubBuf imm.toNat = none →
      exec (.fbr p rd 0 imm) s = .next (s.podNow p.val fun q => q.syncTrap 1 q.pc.toNat) ∧
      exec (.fbw p rd 0 imm) s = .next (s.podNow p.val fun q => q.syncTrap 1 q.pc.toNat))

/-- R106: a DWR of 1 to 64 vectors from the pod's own data memory to one 4 KiB page of the register space enters the store
buffer as one transfer; one to any other space is discarded, logged with KIND 3, and event 9 fires.
It rests on the model's choices and deductions of log entry 24. -/
def Obligations.DescriptorTransfers : Prop :=
  ∀ (s : State) (p : Fin 32) (rd ra : BitVec 5) (imm : BitVec 12), s.chip.podReady p.val →
    (s.chip.pod p.val).free [.s rd.toNat, .s ra.toNat] →
    let q0 := s.chip.pod p.val
    let src := (q0.sget ra.toNat).toNat
    let dst := (q0.sget rd.toNat).toNat % 2 ^ 40
    let len := 16 * imm.toNat
    1 ≤ imm.toNat → imm.toNat ≤ 64 → src % 16 = 0 → dst % 16 = 0 → dst % 4096 + len ≤ 4096 → src + len ≤ 0x40000 →
    q0.stores.length < 8 → q0.awaits src len = false → (∀ l, l ∈ linesOf (podWin p.val + src) len → s.chip.lineGood (64 * l)) →
    (spaceOf dst = .regs → exec (.dwr p rd ra imm []) s = .next (s.podDone p.val fun q => { q with stores := q.stores ++
      [{ addr := dst, bytes := s.chip.bytesAt (podWin p.val + src) len, dwr := true }] })) ∧
    (spaceOf dst ≠ .regs → exec (.dwr p rd ra imm []) s = .next (s.podDoneOn p.val ((s.chip.logAccess p.val 3 dst).fire 9)))

/-! ## Traps (R53, R68 to R73, R108) -/

/-- R69: a trap saves the pc where the work goes on in EPC, the depth of open repeats, the fields of its cause and the cause
in ECAUSE, the address in EADDR, the counts in EREP and a sprout in ESPROUT; it closes every repeat and keeps their bounds, sets
TRAP_ACT, and goes to the vector at 64 times the cause. Every other register stays. A synchronous trap outside a handler enters
so with the pc of its instruction and the last taken sprout.
R72: a synchronous trap in a handler halts the pod with a double trap: it does not branch, keeps every saved register,
takes no more sprouts (R118), and LAST_CAUSE names the cause (the model's choice, log 102).
It rests on the model's choices and deductions of log entry 102. -/
def Obligations.TrapEntryAndDoubleTrap : Prop :=
  ((∀ (p : Pod) (cause fields addr : Nat) (epc : BitVec 16) (esp : W64), p.state ≠ .halted →
    p.enterTrap cause fields epc addr esp = { p with
      epc := epc.zeroExtend 64
      ecause := BitVec.ofNat 64 (p.levels.length * 4096 + fields + cause)
      eaddr := BitVec.ofNat 64 (addr % 2 ^ 40)
      erep := repCounts p.levels
      esprout := esp
      bounds := p.levels.map fun l => (l.first, l.last)
      levels := []
      pstat := p.pstat ||| 4
      pc := BitVec.ofNat 16 (cause * 64)
      lastCause := cause
      state := .handler }) ∧
  (∀ (p : Pod) (cause addr : Nat), p.inHandler = false → p.syncTrap cause addr = p.enterTrap cause 0 p.pc addr p.espDefault)) ∧
  (∀ (p : Pod) (cause addr : Nat), p.inHandler = true →
    p.syncTrap cause addr = { p with state := .doubleTrap, accept := 0, lastCause := cause })

/-- The encodings of the instructions and, for each, when a field makes it an illegal word: R81 and R108 with the tables of R83 to
R106 (a field marked zero that is not, S where it has no meaning, W, the 64-bit mask rule of R43, an accumulator above 7, a lane out
of range, MODE and OFF, a selector that is not listed). -/
def Sys2Proof.Machine.illegalForms (p : Fin 32) (sat : Bool) (rd ra rb : BitVec 5) (w : BitVec 2) (mask rsv4 : BitVec 4)
    (imm14 : BitVec 14) (imm16 : BitVec 16) (imm : BitVec 12) (ag : BitVec 3) (off : BitVec 15) (rsv : BitVec 10) :
    List (Instr × Bool) :=
  let all := fun (bad : Bool) (l : List Instr) => l.map fun i => (i, bad)
  let lanes := w == 3 || !maskOk mask.toNat (laneWidth w.toNat)
  let mode := w == 3 || (w == 0 && off != 0) || (w == 1 && decide (32 ≤ off.toNat))
  all (mask != 0) [.add p sat rd ra rb mask, .addu p sat rd ra rb mask, .sub p sat rd ra rb mask, .subu p sat rd ra rb mask,
    .mul p sat rd ra rb mask, .sll p sat rd ra rb mask] ++
  all (mask != 0 || sat) [.mulh p sat rd ra rb mask, .mulhu p sat rd ra rb mask, .and p sat rd ra rb mask, .or p sat rd ra rb mask,
    .xor p sat rd ra rb mask, .andn p sat rd ra rb mask, .srl p sat rd ra rb mask, .sra p sat rd ra rb mask, .slt p sat rd ra rb mask,
    .sltu p sat rd ra rb mask, .min p sat rd ra rb mask, .max p sat rd ra rb mask, .minu p sat rd ra rb mask,
    .maxu p sat rd ra rb mask] ++
  all (mask != 0 || sat || rb != 0) [.clz p sat rd ra rb mask, .sextb p sat rd ra rb mask, .sexth p sat rd ra rb mask,
    .sextw p sat rd ra rb mask] ++
  all sat [.andi p sat rd ra imm14, .ori p sat rd ra imm14, .xori p sat rd ra imm14, .slti p sat rd ra imm14] ++
  all (sat || decide (64 ≤ imm14.toNat)) [.srli p sat rd ra imm14, .srai p sat rd ra imm14] ++
  [(.slli p sat rd ra imm14, decide (64 ≤ imm14.toNat)), (.movw p w sat rd rsv4 imm16, rsv4 != 0)] ++
  all lanes [.vadd p sat rd ra rb w mask, .vaddu p sat rd ra rb w mask, .vsub p sat rd ra rb w mask, .vsubu p sat rd ra rb w mask,
    .vmul p sat rd ra rb w mask, .vmulq p sat rd ra rb w mask, .vsll p sat rd ra rb w mask] ++
  all (lanes || sat) [.vsrl p sat rd ra rb w mask, .vsra p sat rd ra rb w mask, .vmin p sat rd ra rb w mask,
    .vmax p sat rd ra rb w mask, .vcmpeq p sat rd ra rb w mask, .vcmplt p sat rd ra rb w mask] ++
  all (w != 1 || sat) [.vand p sat rd ra rb w mask, .vor p sat rd ra rb w mask, .vxor p sat rd ra rb w mask,
    .vsel p sat rd ra rb w mask] ++
  [(.vsplat p sat rd ra rb w mask, lanes || sat || rb != 0)] ++
  all (w == 3 || sat || mask != 0 || decide (128 / laneWidth w.toNat ≤ rb.toNat)) [.vext p sat rd ra rb w mask,
    .vins p sat rd ra rb w mask] ++
  all (rb != 0) [.fsqrt p sat rd ra rb mask, .fcvtws p sat rd ra rb mask, .fsum p sat rd ra rb mask] ++
  all (sat || rb != 0) [.fabs p sat rd ra rb mask, .fneg p sat rd ra rb mask, .fcvtsw p sat rd ra rb mask] ++
  all sat [.fcmpeq p sat rd ra rb mask, .fcmplt p sat rd ra rb mask, .fcmple p sat rd ra rb mask] ++
  [(.fsplat p sat rd ra rb mask, sat || decide (4 ≤ rb.toNat))] ++
  all (mask != 0 || decide (8 ≤ rd.toNat)) [.mac2l p sat rd ra rb mask, .mac2h p sat rd ra rb mask, .msu2l p sat rd ra rb mask,
    .msu2h p sat rd ra rb mask] ++
  [(.macp p sat rd ra rb mask, mask != 0 || decide (8 ≤ rd.toNat) || decide (rd.toNat % 2 = 1)),
    (.aclr p sat rd ra rb mask, mask != 0 || sat || ra != 0 || rb != 0 || decide (8 ≤ rd.toNat)),
    (.aadd p sat rd ra rb mask, mask != 0 || rb != 0 || decide (8 ≤ rd.toNat) || decide (8 ≤ ra.toNat)),
    (.aread p sat rd ra rb mask, mask != 0 || decide (8 ≤ ra.toNat)),
    (.agrd p sat rd ra rb mask, mask != 0 || sat || rb != 0 || decide (8 ≤ ra.toNat))] ++
  all (mask != 0 || sat || rb != 0 || decide (8 ≤ rd.toNat)) [.aload p sat rd ra rb mask, .aseth p sat rd ra rb mask] ++
  all mode ((loadRows p rd ag w off).map (·.1) ++ (storeRows p rd ag w off Pod.reset).map (·.1)) ++
  all (rsv != 0) [.ldvv p ra rb ag ag rsv .pass .pass, .ldstv p ra rb ag ag rsv .pass .pass] ++
  [(.br p ra rb off, ra != 0 || rb != 0), (.bl p ra rb off, rb != 0),
    (.rep p w imm imm16, imm == 0 || imm16 == 0), (.repr p rd ra imm, decide (4 ≤ rd.toNat) || imm == 0)] ++
  all (rd != 0 || ra != 0 || imm != 0) [.fence p rd ra imm, .eret p rd ra imm] ++
  all (imm != 0) [.get p rd ra imm, .jalr p rd ra imm] ++ all (rd != 0 || imm != 0) [.done p rd ra imm, .jr p rd ra imm] ++
  all (rd != 0 && imm != 0) [.post p rd ra imm, .cancel p rd ra imm] ++ all (ra != 0) [.fbw p rd ra imm, .fbr p rd ra imm] ++
  [(.evt p rd ra imm, rd != 0 || ra != 0 || decide (32 ≤ imm.toNat)), (.mfsr p rd ra imm, ra != 0 || decide (9 < imm.toNat)),
    (.mtsr p rd ra imm, rd != 0 || decide (9 < imm.toNat)), (.agw p rd ra imm, rd != 0 || decide (64 ≤ imm.toNat) || imm.getLsbD 3),
    (.agr p rd ra imm, ra != 0 || decide (64 ≤ imm.toNat) || imm.getLsbD 3),
    (.timrd p rd ra imm, ra != 0 || decide (16 ≤ imm.toNat) || decide (imm.toNat % 8 = 7) || decide (imm.toNat = 14)),
    (.dwr p rd ra imm [], imm == 0 || decide (64 < imm.toNat))]

/-- R108, R68: a word that spells no instruction traps with cause 1 and EADDR at the word; so does every instruction with a
field that must be 0 and is not, an S bit that has no meaning (R81), or another value that its row does not allow, which
`illegalForms` lists; so do GET with a mask of 0, ERET outside a handler (R70), and a repeat at the wrong level, with a count above
65535 or with a body that ends beyond its outer one or 0xFFFC (R65, R99). -/
def Obligations.IllegalWordsTrap : Prop :=
  ∀ (s : State) (p : Fin 32), s.chip.podReady p.val →
    let q0 := s.chip.pod p.val
    let trapped := Host.Outcome.next (s.podNow p.val fun q => q.syncTrap 1 q.pc.toNat)
    (∀ w : W32, decodeWord w = none → isNop w = false → exec (.nop p w .pass) s = trapped) ∧
    (∀ (sat : Bool) (rd ra rb : BitVec 5) (w : BitVec 2) (mask rsv4 : BitVec 4) (imm14 : BitVec 14) (imm16 : BitVec 16)
      (imm : BitVec 12) (ag : BitVec 3) (off : BitVec 15) (rsv : BitVec 10),
      ∀ row, row ∈ illegalForms p sat rd ra rb w mask rsv4 imm14 imm16 imm ag off rsv → row.2 = true → exec row.1 s = trapped) ∧
    (∀ rd ra : BitVec 5, q0.free [.s rd.toNat, .s ra.toNat] → q0.sget ra.toNat = 0 → exec (.get p rd ra 0) s = trapped) ∧
    (q0.inHandler = false → exec (.eret p 0 0 0) s = trapped) ∧
    (∀ (lvl : BitVec 2) (len : BitVec 12) (cnt : BitVec 16), cnt ≠ 0 →
      (q0.levels.length < 4 ∧ lvl.toNat ≠ q0.levels.length) ∨ 0xFFFC < q0.pc.toNat + 4 * len.toNat ∨
        (∃ l, l ∈ q0.levels ∧ l.last.toNat < q0.pc.toNat + 4 * len.toNat) → exec (.rep p lvl len cnt) s = trapped) ∧
    (∀ (lvl : Fin 4) (ra : BitVec 5) (len : BitVec 12), q0.free [.s ra.toNat] → len ≠ 0 →
      (q0.levels.length < 4 ∧ lvl.val ≠ q0.levels.length) ∨ 0xFFFC < q0.pc.toNat + 4 * len.toNat ∨ 65535 < (q0.sget ra.toNat).toNat ∨
        (∃ l, l ∈ q0.levels ∧ l.last.toNat < q0.pc.toNat + 4 * len.toNat) →
      exec (.repr p (BitVec.ofNat 5 lvl.val) ra len) s = trapped)

/-- R53, R73: an accumulator's overflow flag (TRAPEN bit 0) or saturation flag (bit 1, ACC_KIND 1) that an instruction turned from
0 to 1 traps after the instruction with cause 7, that of the lowest accumulator where it turned several; FINV (bit 2) does with
cause 8 where no accumulator flag does; EPC lies at the next instruction. In a handler the trap is held pending, and the first
that is held stays. The trap does not wait for outstanding loads (the model's choice, log 111).
It rests on the model's choices and deductions of log entry 111. -/
def Obligations.FlagTraps : Prop :=
  ∀ (p : Pod) (was : W64),
    let turned := fun (enable k : Nat) => p.trapen.getLsbD enable = true ∧ was.getLsbD k = false ∧ p.pstat.getLsbD k = true
    let ovf := fun (n : Nat) => turned 0 (16 + n)
    let sat := fun (n : Nat) => turned 1 (24 + n)
    let inv := turned 2 3
    (flagCause p.trapen was p.pstat = none → p.flagTrap was = p) ∧
    (∀ f, flagCause p.trapen was p.pstat = some f → p.inHandler = false →
      p.flagTrap was = p.enterTrap (f % 256) (f / 256 * 256) p.pc 0 p.espDefault) ∧
    (∀ f, flagCause p.trapen was p.pstat = some f → p.inHandler = true → p.pendFlag = none →
      p.flagTrap was = { p with pendFlag := some (BitVec.ofNat 64 f) }) ∧
    (p.inHandler = true → p.pendFlag ≠ none → p.flagTrap was = p) ∧
    (∀ n, n < 8 → ovf n → (∀ m, m < n → ¬ ovf m) → (∀ m, m ≤ n → ¬ sat m) →
      flagCause p.trapen was p.pstat = some (n * 256 + 7)) ∧
    (∀ n, n < 8 → sat n → (∀ m, m < n → ¬ sat m) → (∀ m, m ≤ n → ¬ ovf m) →
      flagCause p.trapen was p.pstat = some (2048 + n * 256 + 7)) ∧
    ((∀ n, n < 8 → ¬ ovf n ∧ ¬ sat n) → inv → flagCause p.trapen was p.pstat = some 8) ∧
    ((∀ n, n < 8 → ¬ ovf n ∧ ¬ sat n) → ¬ inv → flagCause p.trapen was p.pstat = none)

/-! ## What the fabric answers, and control of the pods (R58, R60, R73, R76 to R79, R106, R118, R419) -/

/-- R58: the bytes of outstanding load `idx` of an unpaired access from good memory reach its register, and the load leaves
the list.
R60, R106: the acknowledgement of store `idx`, when no earlier store to its target waits, takes it from the buffer; a
transfer goes over to the engine that owns its destination, and applying it writes its words in order, all at once.
It rests on the model's choices and deductions of log entries 23 and 24. -/
def Obligations.FabricAnswers : Prop :=
  (∀ (s : State) (p : Fin 32) (idx : Fin 4) (l : FabLoad), s.chip.twin.replay = none →
    (s.chip.pod p.val).loads[idx.val]? = some l → l.mate = .alone → l.keep = none → spaceOf l.addr ≠ .regs →
    spaceOf l.addr ≠ .crcArea → s.chip.lineGood l.addr →
    exec (.fabricLoadData p idx .pass) s = .next (s.podNow p.val fun q =>
      { q with loads := q.loads.eraseIdx idx.val }.loadReg l.rt l.kind (s.chip.bytesAt l.addr l.kind.bytes))) ∧
  ((∀ (s : State) (p : Fin 32) (ws : List (Nat × W32)), s.chip.twin.replay = none → s.chip.quiet = true →
    s.chip.dwr = [(p.val, ws)] → exec (.dwrTransferApply p) s =
      .next ((s.withChip (({ s.chip with dwr := [] } : Chip).dwrWrites p.val ws)).settle .pass)) ∧
  ∀ (s : State) (p : Fin 32) (idx : Fin 8) (x : FabStore), s.chip.twin.replay = none → s.chip.quiet = true →
    (s.chip.pod p.val).stores[idx.val]? = some x → s.chip.storeDue p.val idx.val x = true →
    (x.dwr = true → exec (.fabricStoreAck p idx .pass) s = .next (s.withChip
      { s.chip.modPod p.val (fun q => q.acked idx.val) with
        dwr := s.chip.dwr ++ [(p.val, offWords (x.addr - regBase) (wordsOf x.bytes))] })) ∧
    (x.dwr = false → spaceOf x.addr ≠ .regs → s.chip.mem.handling.contains (x.addr / 64) = false →
      exec (.fabricStoreAck p idx .pass) s =
        .next (s.withChip ((s.chip.modPod p.val fun q => q.acked idx.val).memStore p.val 1 x.addr x.bytes).1)) ∧
    (x.dwr = false → spaceOf x.addr = .regs → exec (.fabricStoreAck p idx .pass) s =
        .next ((s.withChip ((s.chip.modPod p.val fun q => q.acked idx.val).busStore p.val x.addr x.bytes)).settle .pass)))

/-- R52, R56, R73, R76, R77, R79, R117, R118: a lost cycle changes nothing; a pod woken in GET completes it; RUN 1 starts a halted pod
(with no restart waiting) with CYCLE 0, at its pc or in an overrun trap held pending; RUN 0 halts it and clears its accept
mask; RESTART waits for the issued operations.
It rests on the model's choices and deductions of log entries 13, 27, 81 and 100. -/
def Obligations.PodControl : Prop :=
  ∀ (s : State) (m : Master) (p : Fin 32), s.chip.quiet = true →
    let q0 := s.chip.pod p.val
    exec (.outsideAccessStall p) s = .next s ∧
    (∀ k x, q0.waking = some k → q0.slot k = some x → exec (.getWake p) s = .next (s.podNow p.val fun q =>
      { q.getDone q.getRd k x with waking := none, state := if q.inHandler then .handler else .running })) ∧
    (q0.state = .halted → q0.pendRestart = false → q0.pendOverrun = none → exec (.podRun m p) s =
      .next (s.podNow p.val fun q =>
        { q with run := true, started := true, cyc := 0, state := if q.inHandler then .handler else .running })) ∧
    (∀ esp, q0.state = .halted → q0.pendRestart = false → q0.pendOverrun = some esp → q0.inHandler = false →
      exec (.podRun m p) s = .next (s.podNow p.val fun q =>
        { q with run := true, started := true, cyc := 0, state := .running, pendOverrun := none }.enterTrap 6 0 q.pc 0 esp)) ∧
    (q0.state = .running → q0.waking = none → exec (.podHalt m p) s =
      .next (({ s with chip := { s.chip with draws := s.chip.draws + 1 } } : State).podNow p.val fun q =>
        { q.count (Config.freeValue s.chip.draws) with run := false, accept := 0, state := .halted })) ∧
    (q0.state = .halted → q0.waking = none → exec (.podRestart m p) s =
      .next ((s.podNow p.val fun q => { q with pendRestart := true }).podNow p.val fun q =>
        { q with run := false, accept := 0, state := .halted }))

/-- R73, R79: STEP of a halted pod runs the one instruction at its pc, here NOP, and the pod stands halted again one
instruction further.
It rests on the model's choices and deductions of log entries 7 and 100. -/
def Obligations.StepRunsOneInstruction : Prop :=
  ∀ (s : State) (m : Master) (p : Fin 32), s.chip.quiet = true → s.chip.twin.replay = none →
    let q0 := s.chip.pod p.val
    q0.state = .halted → q0.waking = none → q0.pendOverrun = none → q0.inHandler = false → q0.levels = [] → q0.loads = [] →
    s.chip.lineGood (q0.fetchAddr p.val) → s.chip.numAt (q0.fetchAddr p.val) 4 = 0xA0000000 →
    ∃ t : State, exec (.podStep m p .pass) s = .next t ∧
      t.chip.pod p.val = { q0 with pc := q0.pc + 4, started := true, run := false, accept := 0, state := .halted } ∧
      (∀ k, k ≠ p.val → t.chip.pod k = s.chip.pod k) ∧ t.chip.cells = s.chip.cells ∧ t.chip.regs = s.chip.regs

/-- R38, R414, R419, R423: bytes written through the window of a halted pod's instruction memory without an image copy are stored
there, when no line among them is in handling; a running pod's instruction memory is not written, and the store is logged as one to
an unmapped address. A transfer that failed its parity twice is not made: its line is poisoned and event 417 fires.
It rests on the model's choices and deductions of log entry 16. -/
def Obligations.ImemWindowWrites : Prop :=
  ∀ (s : State) (m : Master) (p : Fin 32) (off : BitVec 16) (data : List Byte),
    (Instr.imemWindowWrite m p off ⟨data, .pass⟩).wellFormed = true →
    let a := podWin p.val + 0x40000 + off.toNat
    (s.chip.podHalted p.val = true → s.chip.imsrc p.val = 0 →
      (∀ l, l ∈ linesOf a data.length → s.chip.mem.handling.contains l = false) → ∃ t : State,
      exec (.imemWindowWrite m p off ⟨data, .pass⟩) s = .next t ∧
      (∀ x, t.chip.byteAt x = if a ≤ x ∧ x < a + data.length then data.getD (x - a) 0 else s.chip.byteAt x) ∧
      (Memory.wf s.chip.cells = true → Memory.wf t.chip.cells = true) ∧ t.chip.regs = s.chip.regs ∧ t.chip.pods = s.chip.pods) ∧
    (s.chip.podHalted p.val = false → exec (.imemWindowWrite m p off ⟨data, .pass⟩) s =
      .next (s.withChip ((s.chip.logAccess m.val 1 a).fire 9))) ∧
    (∀ (again : Bool) (src : SrcCheck), ∃ t : State, exec (.imemWindowWrite m p off ⟨data, .fail again src⟩) s = .next t ∧
      t.chip.cells = s.chip.cells ∧ (t.chip.line (a / 64)).poisoned = true ∧ t.chip.pods = s.chip.pods)

/-! ## The tick and its phases (R9, R15, R22, R143, R161, R190, R318) -/

/-- R9, R22, R124, R143, R161, R190, R318: in a module whose ticks run and where no joiner replays, TICK moves the tick number
(to the start or adopted number, else one up) and touches no Husk state; each phase does its engine's work, as named, and
nothing else; the feedback phase fires event 1 and the loop phase event 2 to the scheduler.
R318: the window close counts a port's violations, fences it at the third, and counts its good frames up to the sixteenth.
R143, R149, R153: an observer of a local channel in mode 0 starts at its first good measurement, corrects by a good one and coasts
on a lost or frozen one, into its fault action beyond COAST; an index edge within the tolerance corrects the count and p, any
other counts as a mismatch, and the third is a fault. R195, R196: a class A plan at a settled κ advances by seg of its phase for dt, and its
last phase ends at TARGET at rest. R166: a slot whose update is no back-calculation gives the limited u, shifts its history and holds
the integrating sections at a limit. R124: at the deadline the buffers of a task that is done change halves; any other due task
has overrun, and its buffers stay.
It rests on the model's choices and deductions of log entries 3 and 4. -/
def Obligations.TickAndPhases : Prop :=
  (∀ s : State, s.chip.alive → s.chip.twin.joining = false →
    (∃ t, exec .tick s = .next t ∧ t.chip.tick = s.chip.nextTick.getD (if s.chip.ticked then s.chip.tick + 1 else 0) ∧
      t.chip.ticked = true ∧ t.husk = s.husk ∧ t.core = s.core ∧ t.pending = s.pending) ∧
    exec .uplinkWindowClose s = .next (s.withChip s.chip.windowClose) ∧
    (∃ t, exec .feedbackPhase s = .next t ∧ t = s.withChip s.chip.feedbackWork ∧
      (s.chip.host.applied ≠ some s.chip.tick → Arrival.source 1 ∈ t.chip.sched.arrivals)) ∧
    exec .profilePhase s = .next (s.withChip s.chip.profileWork) ∧
    (∃ t, exec .loopPhase s = .next t ∧ t = s.withChip s.chip.loopPhase ∧ Arrival.source 2 ∈ t.chip.sched.arrivals) ∧
    (∃ t, exec .publishDeadline s = .next t ∧ t.chip = (s.chip.publish s.core).1 ∧ t.core = (s.chip.publish s.core).2 ∧
      t.chip.dio.frame = some (t.chip.reg 0xD00018) ∧ t.husk = s.husk ∧ t.pending = s.pending)) ∧
  (∀ (c : Chip) (n : Fin 32),
    let p := c.port n.val
    let d := c.windowClose
    let vcnt := fun (x : Chip) => x.regF (pstReg n.val 0) 27 26
    let adm := fun (x : Chip) => x.regF (pstReg n.val 0) 20 16
    let good := p.acc = true ∧ p.viol = false ∧ 2 * p.lastO.natAbs ≤ c.guard16.natAbs
    (c.portState n.val = psRun → vcnt c ≤ 2 →
      (p.viol = true → vcnt c = 2 → d.portState n.val = psFenced) ∧
      (p.viol = true → vcnt c < 2 → d.portState n.val = psRun ∧ vcnt d = vcnt c + 1) ∧
      (p.viol = false → d.portState n.val = psRun ∧ vcnt d = (if p.acc then 0 else vcnt c)) ∧
      d.regB 0x60000C n.val = (p.acc && !p.viol)) ∧
    (c.portState n.val = psAdmit → d.regB 0x60000C n.val = false ∧
      (¬ good → d.portState n.val = psAdmit ∧ adm d = 0) ∧
      (good → adm c < 15 → d.portState n.val = psAdmit ∧ adm d = adm c + 1) ∧
      (good → adm c = 15 → d.portState n.val = psRun ∧ vcnt d = 0)) ∧
    (d.port n.val).sof = false ∧ (d.port n.val).acc = false ∧ (d.port n.val).viol = false) ∧
  (∀ (s : State) (k : Nat) (w : Fin 8), s.chip.alive → s.chip.twin.joining = false → s.chip.paired = false →
    s.chip.fbk.writes = [] → s.chip.fbk.clears = [] → s.chip.armFaults = [] → s.chip.allFault = false → s.chip.prf.chans = [] →
    s.chip.obsKeys = [k] → s.chip.obsActive k = true → ∃ t, exec .feedbackPhase s = .next t ∧
      t.chip.reg (recReg k w.val) = (s.chip.obsTick k FbEvents.zero).1.reg (recReg k w.val)) ∧
  (∀ (c : Chip) (k : Nat) (ev : FbEvents) (m : Int), k < 256 →
    let l := c.lch (c.obsLch k)
    let o := c.obs k
    c.obsSrc k = 3 → c.lchMode (c.obsLch k) = 0 → c.reg (obsReg k 7) = 0 →
    m = c.pairI (obsReg k 3) + shrI (l.countTick * (c.reg (obsReg k 2)).toInt) (c.regF (obsReg k 1) 15 8) →
    -(2 ^ 63) ≤ m → m < 2 ^ 63 →
    let ts := c.tS
    let p := c.obsPos k
    let v := c.obsVel k
    let a := c.obsAcc k
    let pPred := wrapQ (p + toQ (ea (em v ts) (em a (em (em ts ts) f32Half))))
    let vPred := ea v (em a ts)
    let meas := wrapQ (m + c.hshift k)
    let e := toF (wrapQ (meas - pPred))
    let frz := c.regF (obsReg k 1) 31 24
    let frozen := frz ≠ 0 ∧ o.lastRaw = some l.countTick ∧
      (o.frozen = true ∨ (frz ≤ o.same + 1 ∧ f32Lt (c.reg (obsReg k 6)) (fabs e) = true))
    let coast := fun (x : Chip) => x.regF (recReg k 7) 23 20
    let fault := fun (x : Chip) => x.regB (recReg k 7) 9
    let d := (c.obsTick k ev).1
    (c.obsInit k = false → l.errTick = false → d.obsPos k = meas ∧ d.obsInit k = true ∧ coast d = 0) ∧
    (c.obsInit k = true → l.errTick = false → ¬ frozen →
      d.obsPos k = wrapQ (pPred + toQ (em (c.reg (obsReg k 11)) e)) ∧ d.obsVel k = ea vPred (em (c.reg (obsReg k 12)) e) ∧
      d.obsAcc k = ea a (em (c.reg (obsReg k 13)) e) ∧ coast d = 0 ∧ d.regB (recReg k 7) 7 = false ∧ fault d = fault c) ∧
    (c.obsInit k = true → l.errTick = true ∨ frozen →
      d.obsPos k = pPred ∧ d.obsVel k = vPred ∧ d.obsAcc k = a ∧ coast d = min 15 (coast c + 1) ∧
      d.regB (recReg k 7) 7 = true ∧ (fault d = true ↔ fault c = true ∨ c.regF (obsReg k 0) 6 3 < min 15 (coast c + 1)))) ∧
  (∀ (c : Chip) (k n : Nat) (count dev q : Int) (w : W32) (ev : FbEvents), k < 256 → n < 16 →
    let per : Int := (c.reg (obsReg k 7)).toNat
    let tol : Int := c.regF (obsReg k 8) 15 0
    let r := c.indexEdge k n count w ev
    count - (c.reg (obsReg k 9)).toInt = q * per + dev → -per ≤ 2 * dev → 2 * dev < per →
    (dev.natAbs ≤ tol → (r.1.lch n).countTick = wrapQ ((c.lch n).countTick - dev) ∧
      r.1.obsPos k = wrapQ (c.obsPos k + shrI (-dev * (c.reg (obsReg k 2)).toInt) (c.regF (obsReg k 1) 15 8)) ∧
      bit r.2.1 8 = false ∧ fld r.2.1 19 18 = 0 ∧ r.2.2.corr = true) ∧
    (tol < dev.natAbs → (r.1.lch n).countTick = (c.lch n).countTick ∧ r.1.obsPos k = c.obsPos k ∧ bit r.2.1 4 = true ∧
      bit r.2.1 8 = true ∧ fld r.2.1 19 18 = min 3 (fld w 19 18 + 1) ∧ r.2.2.mismatch = true ∧
      (2 ≤ fld w 19 18 → bit r.2.1 9 = true))) ∧
  (∀ (c : Chip) (k : Nat) (pl : ProfPlan) (ph : Piece) (rest : List Piece) (left : Int), k < 256 → c.chState k = stRunA →
    (c.chan k).kplan = none → (c.chan k).plan = some pl → pl.pieces = ph :: rest → ph.left = some left →
    let x := c.chan k
    let κ := c.kappa k
    let dt := toQ (em (em (ea κ κ) f32Half) c.tS)
    let t := toF dt
    let p := wrapQ (x.p + toQ (em t (ea x.v (em t (ea (em x.a f32Half) (em (em ph.jerk t) 0x3E2AAAAA#32))))))
    let v := ea x.v (em t (ea x.a (em (em ph.jerk t) f32Half)))
    let a := ea x.a (em ph.jerk t)
    let d := c.chanMotion k
    (0 < dt → dt < left → (d.chan k).plan = some { pl with pieces := { ph with left := some (left - dt) } :: rest } ∧
      (d.chan k).out = some (p, em κ v, ea (em (em κ κ) a) (em (c.kdot k) v)) ∧ d.chState k = stRunA) ∧
    (∀ target, pl.target = some target → ph.num = 7 → rest = [] → 0 < left → left ≤ dt →
      (d.chan k).plan = none ∧ (d.chan k).out = some (target, 0, 0) ∧ d.chState k = stIdle)) ∧
  (∀ (c0 c : Chip) (k m : Nat), k < 1024 → c0.backCalc k m = none → (c0.lslot k).swapAt = none →
    let b := c0.slotBank k
    let nsec := c0.slotNsec k
    let e := (c0.slotErr k m).1
    let secs := c0.sections k b nsec 0 e
    let bank := fun (w : Nat) => c0.reg (bankReg k b w)
    let u := (fma true (em (bank 40) secs.1) (bank 41) (denan (c0.srcWord k m (c0.reg (slotReg k 3)) false)).1).1
    let high := f32CmpLe (bank 43) u
    let low := f32CmpLe u (bank 42)
    let d := c0.evalSlot c k m
    d.reg (slotReg k 9) = (if high then bank 43 else if low then bank 42 else u) ∧
    d.reg (slotReg k 10) = c.reg (slotReg k 9) ∧ d.reg (slotReg k 11) = c.reg (slotReg k 10) ∧ d.reg (slotReg k 12) = e ∧
    d.reg (slotReg k 13) = u ∧ d.reg (slotReg k 14) = BitVec.ofNat 32 m ∧
    d.regB (slotReg k 8) 27 = high ∧ d.regB (slotReg k 8) 28 = low ∧
    (∀ i, i < nsec → (d.reg (stateReg k (2 * i)), d.reg (stateReg k (2 * i + 1))) =
      if (high || low || c0.slotFrozen k) && c.regB (slotReg k 0) (8 + i)
      then (c.reg (stateReg k (2 * i)), c.reg (stateReg k (2 * i + 1))) else secs.2.getD i (0, 0)) ∧
    (∀ (i : Nat) (x : W32),
      let s1 := c0.reg (stateReg k (2 * i))
      let s2 := c0.reg (stateReg k (2 * i + 1))
      let co := fun (w : Nat) => bank (5 * i + w)
      let y := (fma true s1 (co 0) x).1
      c0.sections k b 1 i x =
        (y, [((fms true (fma true s2 (co 1) x).1 (co 3) y).1, (fms true (em (co 2) x) (co 4) y).1)]))) ∧
  (∀ (c : Chip) (t : TbTask) (plan : Plan), t.task < 4096 → c.sched.plan = some plan →
    let stand := (c.tbRun t.task).stand
    let d := c.deadlineTask t
    (stand = .doneOnTime → (d.tbRun t.task).stand = .notDue ∧ d.sched.plan = some { plan with bufs := plan.bufs.map fun b =>
      if b.owner == t.task then { b with published := !b.published } else b }) ∧
    (stand = .due ∨ stand = .released → d.sched.plan = some plan ∧ (d.tbRun t.task).stand = .overrun ∧
      d.regB (taskReg t.task 4) 1 = true ∧ d.stf = true ∧
      (∀ n k x, c.takenBy t.task = some (n, k, x) → d.pod n = (c.pod n).overrunTrap (sproutWord k x)) ∧
      (c.takenBy t.task = none → d.regB (taskReg t.task 3) 31 = false)) ∧
    (stand ≠ .doneOnTime → stand ≠ .due → stand ≠ .released → d = c))

/-! ## The scheduler (R112 to R131, R436, R440, R501) -/

/-- R112, R115, R126, R129, R436, R440, R501: one scheduler cycle takes its steps in their order; a descriptor word, a ring of
an ordered flow, a host POST and CANCEL, a plan, a decided and a committed shed level take effect as their rules say.
It rests on the model's choices and deductions of log entries 8, 26, 30 and 32. -/
def Obligations.SchedulerCommands : Prop :=
  ∀ (s : State) (m : Master), s.chip.quiet = true → s.chip.twin.replay = none →
    let c := s.chip
    (exec .schedulerCycle s = .next (s.withChip
      (let r := (((c.schedStep1).schedStep2).schedStep3 false).schedStep4
       (forN 32 (fun n c => c.finishRestart n) ((r.1.schedStep5 r.2).dispatchN 4 [])).schedArrive))) ∧
    (∀ (t : BitVec 12) (v : W32), (c.isTb t.toNat = false ∨ c.inConfig = true) →
      exec (.schTaskWrite m t 0 v) s = .next (s.withChip (c.setReg (taskReg t.toNat 0) v)) ∧
      exec (.schTaskWrite m t 1 v) s = .next (s.withChip (c.setReg (taskReg t.toNat 1) v))) ∧
    (∀ (t : BitVec 12) (v : W32), c.isTb t.toNat = true → c.inConfig = false →
      ∀ w : Fin 8, exec (.schTaskWrite m t w v) s = .next (s.withChip (c.setB 0x100000 3 true))) ∧
    (∀ (t : BitVec 12) (w : Fin 5) (v : W32), c.isTb t.toNat = false →
      exec (.schTaskWrite m t ⟨w.val + 3, by omega⟩ v) s = .next s) ∧
    (∀ (t : BitVec 12) (v : W32), c.isTb t.toNat = false → fld v 28 27 ≠ 3 → c.outOf t.toNat = 0 → bit v 31 = true →
      exec (.schTaskWrite m t 2 v) s = .next (s.withChip (c.mapWrite (taskReg t.toNat 2) v))) ∧
    (∀ (f : Fin 16) (v : W32), c.regB (oflowReg f.val 0) 31 = false → bit v 31 = true →
      ringValid v (c.reg (oflowReg f.val 1)) = true →
      exec (.schOflowWrite m f 0 v) s = .next (s.withChip
        ((((c.mapWrite (oflowReg f.val 0) v).setReg (oflowReg f.val 3) 0).setReg (oflowStat f.val) 0).modSched fun x =>
          { x with nextSeq := tabPut (fun _ => 0) x.nextSeq f.val 0 }))) ∧
    (∀ v : W32, c.isTb (fld v 11 0) = false →
      exec (.schHpost m v) s = .next (s.withChip (c.modSched fun x =>
        { x with arrivals := x.arrivals ++ [.post (fld v 11 0) (c.reg 0x100008)] })) ∧
      exec (.schHcancel m v) s = .next (s.withChip (c.modSched fun x =>
        { x with cancels := x.cancels ++ [(fld v 11 0, c.reg 0x100008)] }))) ∧
    (∀ v : W32, c.isTb (fld v 11 0) = true → exec (.schHpost m v) s = .next (s.withChip (c.setB 0x100000 4 true))) ∧
    (∀ v : W32, c.inConfig = true → c.planCheck (c.pair 0x100020 % 2 ^ 40) true = 0 →
      (c.planApply (c.pair 0x100020 % 2 ^ 40)).quiet = true →
      exec (.planLoad m v) s = .next (s.withChip (c.planApply (c.pair 0x100020 % 2 ^ 40)))) ∧
    (∀ v : W32, c.inConfig = false → exec (.planLoad m v) s = .next (s.withChip (c.setF 0x10002C 7 0 6))) ∧
    (∀ (k l : Nat), c.ticking = true → l ≠ c.shedLevel →
      (c.hlt.shed = [(l, c.tick)] → exec .shedCommitApply s = .next (s.withChip
        ((((c.modHlt fun h => { h with shed := [] }).setF 0x10002C 27 24 l).reshed).fire 434))) ∧
      (c.hlt.change = some (k, l) → c.paired = false → c.tick % 16 = 0 → k = c.podStep →
        (c.modHlt fun h => { h with change := none }).fitsAt l k = true →
        exec .shedLevelApply s = .next (s.withChip
          (((((c.modHlt fun h => { h with change := none }).setF 0x110 11 8 k).setF 0x10002C 27 24 l).reshed).fire 434))))

/-! ## The feedback unit (R138 to R141, R149, R155 to R158, R160) -/

/-- R138 to R141, R148, R149, R155 to R158: the writes and the pin events of the feedback unit. While ticks run, an observer's
descriptor word waits for the next feedback phase, and so does every clear; in CONFIG the word is taken at once. Enabling a
channel takes the sector of its Hall pins: in mode 1 as its count too, in mode 2 of the pins of channel n + 8. A step of A and B
counts by one, in the direction that DIR 1 turns round; both changing at once is a quadrature error. A Hall edge by
one sector moves the channel that owns the pins, and its count in mode 1; one that skips a sector or leads to none is an error.
An error corrupts the sample and counts in QERR. An edge that the filter delay puts before t₀ acts on the sample of the tick too
(R139).
It rests on the model's choices and deductions of log entries 35, 36, 37, 38, 105 and 110. -/
def Obligations.FeedbackCommands : Prop :=
  ∀ (s : State) (m : Master), s.chip.quiet = true →
    let c := s.chip
    (∀ k : BitVec 8, exec (.fbkClr m k) s = .next (s.withChip (c.modFbk fun f => { f with clears := f.clears ++ [k.toNat] }))) ∧
    (∀ (k : BitVec 8) (w : Fin 11) (v : W32), c.ticking = true →
      exec (.fbkObsWrite m k (w.castLE (by decide)) v) s = .next (s.withChip (c.modFbk fun f =>
        { f with writes := f.writes ++ [(obsReg k.toNat w.val, [v])] }))) ∧
    (∀ (k : BitVec 8) (w : Fin 4) (v : W32), c.ticking = false → c.inConfig = true →
      exec (.fbkObsWrite m k ⟨w.val + 1, by omega⟩ v) s = .next (s.withChip (c.mapWrite (obsReg k.toNat (w.val + 1)) v))) ∧
    (∀ (n : Fin 16) (v : W32), fld v 30 29 ≠ 3 →
      (c.inConfig = true ∨ c.lchUsed n.val = false ∨ c.lchMode n.val = fld v 30 29) →
      let d := c.mapWrite (lchReg n.val 0) v
      let l := d.lch n.val
      let enabled := c.regB (lchReg n.val 0) 31
      (bit v 31 = false ∨ (enabled = true ∧ c.lchMode n.val = fld v 30 29) ∨ fld v 30 29 = 0 →
        exec (.fbkLchWrite m n v) s = .next (s.withChip d)) ∧
      (fld v 30 29 = 1 → bit v 31 = true → enabled = false → exec (.fbkLchWrite m n v) s = .next (s.withChip
        (d.setLch n.val { l with count := l.pin, countTick := l.pin, sector := l.pin, sectorTick := l.pin }))) ∧
      (fld v 30 29 = 2 → bit v 31 = true → enabled = false → exec (.fbkLchWrite m n v) s = .next (s.withChip
        (let p := (d.lch (n.val + 8)).pin
         d.setLch n.val { l with sector := p, sectorTick := p })))) ∧
    (∀ (d : Fin 4) (v : W32), c.regB (divReg d.val 0) 31 = false → bit v 31 = true →
      exec (.fbkDivWrite m d 0 v) s = .next (s.withChip
        (((c.mapWrite (divReg d.val 0) v).setDivOut d.val { r := 0, outc := 0 }).setF (divReg d.val 3) 31 8 0))) ∧
    (∀ (d : Fin 4) (v : W32), c.regB (divReg d.val 0) 31 = true → fld (c.reg (divReg d.val 0)) 23 8 = fld v 23 8 →
      exec (.fbkDivWrite m d 0 v) s = .next (s.withChip
        ((c.setB (divReg d.val 0) 31 (bit v 31)).setB (divReg d.val 0) 30 (bit v 30)))) ∧
    (∀ (d : Fin 4) (v : W32), c.regB (divReg d.val 0) 31 = false → fld v 31 16 ≠ 0 → fld v 15 0 ≠ 0 →
      exec (.fbkDivWrite m d 1 v) s = .next (s.withChip
        (let e := c.setF (divReg d.val 1) 31 16 (fld v 31 16)
         e.setF (divReg d.val 1) 15 0 (fld v 15 0)))) ∧
    (∀ v : W32, (c.inConfig = true ∨ bit v 31 = false ∨ fld v 22 0 ≤ 0x7FE000 →
        exec (.fbkMirrorWrite m v) s = .next (s.withChip (c.mapWrite 0x400004 v))) ∧
      (c.inConfig = false → bit v 31 = true → 0x7FE000 < fld v 22 0 →
        exec (.fbkMirrorWrite m v) s = .next (s.withChip (c.setB 0x400000 1 true)))) ∧
    (∀ (n : Fin 16) (a b : Bool), (c.regB (lchReg n.val 0) 31 = false ∨ c.lchMode n.val = 1) →
      exec (.lchCountEdge n a b) s = .next (s.withChip (c.setLch n.val { c.lch n.val with a := a, b := b }))) ∧
    (∀ (n : Fin 16) (a b : Bool), c.regB (lchReg n.val 0) 31 = true → c.lchMode n.val ≠ 1 →
      let l := c.lch n.val
      let late := c.lchLate n.val
      let move := (quadPhase a b + 4 - quadPhase l.a l.b) % 4
      (a = l.a → b = l.b → exec (.lchCountEdge n a b) s = .next (s.withChip (c.setLch n.val { l with a := a, b := b }))) ∧
      (move = 1 ∨ move = 3 →
        let d : Int := if (decide (move = 1)) != c.regB (lchReg n.val 0) 28 then 1 else -1
        ∃ t, exec (.lchCountEdge n a b) s = .next t ∧
          t.chip.lch n.val = { l with a := a, b := b, count := wrapQ (l.count + d),
                                      countTick := if late then wrapQ (l.countTick + d) else l.countTick } ∧
          (∀ k, k ≠ n.val → t.chip.lch k = c.lch k) ∧
          ((∀ k, k < 4 → c.regB (divReg k 0) 31 = false) → t.chip.regs = c.regs)) ∧
      (a ≠ l.a → b ≠ l.b → exec (.lchCountEdge n a b) s = .next (s.withChip
        ((c.setLch n.val { l with a := a, b := b, errTick := l.errTick || late, errNow := l.errNow || !late }).addSat
          (lchReg n.val 3) 31 16 1)))) ∧
    (∀ n : Fin 16, c.regB (lchReg n.val 0) 31 = true → c.lchMode n.val ≠ 1 →
      let l := c.lch n.val
      let now := c.pinTime n.val
      exec (.lchZEdge n) s = .next (s.withChip
        (((c.setLch n.val (if c.lchLate n.val
            then { l with zTick := l.zTick ++ [l.count], zRaw := l.count, zAt := now, zNowAt := now }
            else { l with zNow := l.zNow ++ [l.count], zNowAt := now })).setF
          (lchReg n.val 3) 15 0 ((c.regF (lchReg n.val 3) 15 0 + 1) % 65536)).fire (360 + n.val)))) ∧
    (∀ (n : Fin 16) (u v w : Bool) (sector : Nat), hallSector (u.toNat + 2 * v.toNat + 4 * w.toNat) = some sector →
      (c.hallOwner n.val = none ∨ (∃ m, c.hallOwner n.val = some m ∧ sector = (c.lch m).sector ∧ sector < 6)) →
      exec (.hallEdge n u v w) s = .next (s.withChip (c.setLch n.val { c.lch n.val with pin := sector }))) ∧
    (∀ (n : Fin 16) (u v w up : Bool) (sector k : Nat), hallSector (u.toNat + 2 * v.toNat + 4 * w.toNat) = some sector →
      c.hallOwner n.val = some k → (sector + 6 - (c.lch k).sector) % 6 = (if up then 1 else 5) →
      let late := c.lchLate k
      let d : Int := if c.lchMode k = 1 then (if up then 1 else -1) else 0
      ∃ t, exec (.hallEdge n u v w) s = .next t ∧ (t.chip.lch n.val).pin = sector ∧ (t.chip.lch k).sector = sector ∧
        (t.chip.lch k).count = wrapQ ((c.lch k).count + d) ∧
        (t.chip.lch k).countTick = (if late then wrapQ ((c.lch k).countTick + d) else (c.lch k).countTick) ∧
        (t.chip.lch k).sectorTick = (if late then sector else (c.lch k).sectorTick) ∧
        (t.chip.lch k).hallNow.length = (c.lch k).hallNow.length + (if late then 0 else 1) ∧
        (t.chip.lch k).hallTick.length = (c.lch k).hallTick.length + (if late then 1 else 0) ∧
        (∀ j, j ≠ n.val → j ≠ k → t.chip.lch j = c.lch j) ∧
        ((∀ i, i < 4 → c.regB (divReg i 0) 31 = false) → t.chip.regs = c.regs)) ∧
    (∀ (n : Fin 16) (u v w : Bool) (sector k : Nat), hallSector (u.toNat + 2 * v.toNat + 4 * w.toNat) = some sector →
      c.hallOwner n.val = some k → 2 ≤ (sector + 6 - (c.lch k).sector) % 6 → (sector + 6 - (c.lch k).sector) % 6 ≤ 4 →
      let late := c.lchLate k
      ∃ t, exec (.hallEdge n u v w) s = .next t ∧ (t.chip.lch n.val).pin = sector ∧ (t.chip.lch k).sector = sector ∧
        (t.chip.lch k).count = (c.lch k).count ∧ (t.chip.lch k).countTick = (c.lch k).countTick ∧
        (if late then (t.chip.lch k).errTick = true else (t.chip.lch k).errNow = true) ∧
        t.chip.regs = (c.addSat (lchReg k 3) 31 16 1).regs ∧ (∀ j, j ≠ n.val → j ≠ k → t.chip.lch j = c.lch j)) ∧
    (∀ (n : Fin 16) (u v w : Bool) (k : Nat), hallSector (u.toNat + 2 * v.toNat + 4 * w.toNat) = none →
      c.hallOwner n.val = some k →
      let l := c.lch k
      let late := c.lchLate k
      exec (.hallEdge n u v w) s = .next (s.withChip
        ((c.setLch k { l with errTick := l.errTick || late, errNow := l.errNow || !late }).addSat (lchReg k 3) 31 16 1))) ∧
    (∀ (d : Fin 4) (due : Nat) (limited : Bool), c.regB (divReg d.val 0) 31 = true →
      signed 24 (c.regF (divReg d.val 3) 31 8) = due →
      exec (.dividedOutputEmit d due limited) s = .next (s.withChip
        ((c.setDivOut d.val { c.divOut d.val with outc := (c.divOut d.val).outc + due }).setF (divReg d.val 3) 31 8 0)))

/-! ## The loop engine (R175 to R177, R180, R185) -/

/-- R175 to R177, R180, R185: the requests and writes of the loop engine. A swap request marks its slots until it is sampled in
the next loop phase; a bank that is in use, outside CONFIG, ignores a write with CFG_IGN.
It rests on the model's choices and deductions of log entries 13 and 41. -/
def Obligations.LoopCommands : Prop :=
  ∀ (s : State) (m : Master), s.chip.quiet = true →
    let c := s.chip
    (∀ v : W32, c.slotSwp (fld v 9 0) = false → exec (.lpeSwapSlot m v) s = .next (s.withChip
      ((c.setB (slotReg (fld v 9 0) 8) 30 true).modLpe fun l => { l with swaps := l.swaps ++ [(false, [fld v 9 0])] }))) ∧
    (∀ v : W32, c.slotSwp (fld v 9 0) = true → exec (.lpeSwapSlot m v) s = .next (s.withChip (c.setB 0x200000 1 true))) ∧
    (∀ v : W32,
      let ms := (c.slotKeys.filter c.slotEn).filter fun k => c.regB (slotReg k 7) 23 && c.regF (slotReg k 7) 21 16 == fld v 5 0
      (∀ k, k ∈ ms → c.slotSwp k = false) → exec (.lpeSwapGroup m v) s = .next (s.withChip
        ((forL ms (fun k c => c.setB (slotReg k 8) 30 true) c).modLpe fun l => { l with swaps := l.swaps ++ [(true, ms)] }))) ∧
    (∀ v : W32, exec (.lpeMsw m v) s = .next (s.withChip (c.modLpe fun l => { l with switches := l.switches ++ [v] }))) ∧
    (∀ (k : Fin 1024) (w : Fin 7) (v : W32), (c.inConfig = true ∨ c.slotEn k.val = false) →
      exec (.lpeSlotWrite m k false ⟨w.val + 1, by omega⟩ v) s =
        .next (s.withChip (c.mapWrite (slotReg k.val (w.val + 1)) v))) ∧
    (∀ (k : Fin 1024) (w : Fin 16) (v : W32), (c.inConfig = true ∨ c.slotRuns k.val = false) →
      exec (.lpeSlotWrite m k true w v) s = .next (s.withChip (c.setReg (stateReg k.val w.val) v))) ∧
    (∀ (k : Fin 1024) (b : Fin 2) (w : Fin 44) (v : W32),
      ((c.inConfig = true ∨ (b.val ≠ c.slotBank k.val ∧ c.slotSwp k.val = false)) →
        exec (.lpeBankWrite m k b (w.castLE (by decide)) v) s = .next (s.withChip (c.setReg (bankReg k.val b.val w.val) v))) ∧
      (c.inConfig = false → (b.val = c.slotBank k.val ∨ c.slotSwp k.val = true) →
        exec (.lpeBankWrite m k b (w.castLE (by decide)) v) s = .next (s.withChip (c.setB 0x200000 1 true)))) ∧
    (∀ (j : Fin 128) (v : W32),
      (c.inConfig = true → exec (.lpeXfWrite m j 0 v) s = .next (s.withChip (c.mapWrite (xfReg j.val 0) v))) ∧
      (finite32 v = true → f32Le 0 v = true → f32Le v 0x40800000#32 = true →
        exec (.lpeXfWrite m j 1 v) s = .next (s.withChip (c.setReg (xfReg j.val 1) v)))) ∧
    (∀ (n : Fin 128) (w : Fin 5) (v : W32), (c.inConfig = true ∨ c.regB (msetReg n.val 0) 31 = false) →
      exec (.lpeMsetWrite m n ⟨w.val + 1, by omega⟩ v) s = .next (s.withChip (c.mapWrite (msetReg n.val (w.val + 1)) v)))

/-! ## The profile engine (R190, R199, R210, R212, R213, R222, R226, R228, R230, R234, R235) -/

/-- The writes of the profile engine: each command, the offset in the block and the word that it writes. -/
def Sys2Proof.Machine.profileWrites (m : Master) (k : Fin 256) (g : Fin 64) (st : Fin 32) (v : W32) : List (Instr × Nat × W32) :=
  let row := fun (i : Instr) (off : Nat) (w : W32) => (i, off, w)
  let fixed : List (Instr × Nat × W32) := [
    (.disarm m k v, 0x10034 + 64 * k.val, setFld v 31 28 0), (.movePos m k v, 0x10034 + 64 * k.val, setFld v 31 28 1),
    (.moveVel m k v, 0x10034 + 64 * k.val, setFld v 31 28 2), (.moveTab m k v, 0x10034 + 64 * k.val, setFld v 31 28 3),
    (.pause m k v, 0x10034 + 64 * k.val, setFld v 31 28 4), (.resume m k v, 0x10034 + 64 * k.val, setFld v 31 28 5),
    (.stop m k v, 0x10034 + 64 * k.val, setFld v 31 28 6), (.home m k v, 0x10034 + 64 * k.val, setFld v 31 28 8),
    (.clrLim m k v, 0x10034 + 64 * k.val, setFld v 31 28 9), (.prfChEnWrite m k v, 0x10000 + 64 * k.val, v),
    (.kappaTgtWrite m k v, 0x10024 + 64 * k.val, v), (.prfGfireNow m v, 4, setBit v 31 false),
    (.prfGfireAtTick m v, 4, setBit v 31 true), (.tableCommit m g v, 0x31014 + 32 * g.val, setBit v 31 true),
    (.tableWithdraw m g v, 0x31014 + 32 * g.val, setBit v 31 false) ]
  fixed ++
  ((List.finRange 8).map fun w => row (.limitWrite m k w v) (0x10004 + 64 * k.val + 4 * w.val) v) ++
  ((List.finRange 6).map fun w => row (.prfTblWrite m g (w.castLE (by decide)) v) (0x31000 + 32 * g.val + 4 * w.val) v) ++
  ((List.finRange 9).map fun w => row (.prfCmpWrite m g (w.castLE (by decide)) v) (0x32000 + 64 * g.val + 4 * w.val) v) ++
  ((List.finRange 7).map fun w => row (.prfStpWrite m st (w.castLE (by decide)) v) (0x3C000 + 64 * st.val + 4 * w.val) v) ++
  ((List.finRange 14).map fun w => row (.prfHomeWrite m k (w.castLE (by decide)) v) (0x34000 + 128 * k.val + 4 * w.val) v) ++
  ((List.finRange 128).map fun w => row (.prfMstabWrite m 4 w v) (0x3D800 + 4 * w.val) v)

/-- R190: while ticks run, a write to the PRF block waits, in order of arrival and with its instant on TB0, and the next
profile phase applies every write that waits before anything else. Without ticks it is applied at once.
It rests on the model's choices and deductions of log entry 36. -/
def Obligations.ProfileWritesWait : Prop :=
  ∀ (s : State) (m : Master) (k : Fin 256) (g : Fin 64) (st : Fin 32) (v : W32), s.chip.quiet = true →
    (∀ row, row ∈ profileWrites m k g st v → s.chip.ticking = true →
      exec row.1 s = .next (s.withChip (s.chip.modPrf fun p =>
        { p with writes := p.writes ++ [(row.2.1, row.2.2, s.chip.tb0Ns)] }))) ∧
    (∀ x : Nat, (s.chip.prfWrite x v) = if s.chip.ticking
      then s.chip.modPrf fun p => { p with writes := p.writes ++ [(x, v, s.chip.tb0Ns)] }
      else s.chip.prfApply x v (s.chip.tb0Ns)) ∧
    (s.chip.applyPrfWrites = forL s.chip.prf.writes (fun e c => c.prfApply e.1 e.2.1 e.2.2)
      (s.chip.modPrf fun p => { p with writes := [] }))

/-- The commands of a channel: each with the word that it writes to PRF_CMD. -/
def Sys2Proof.Machine.channelCommands (m : Master) (k : Fin 256) (v : W32) : List (Instr × W32) :=
  [ (.disarm m k v, setFld v 31 28 0), (.movePos m k v, setFld v 31 28 1), (.moveVel m k v, setFld v 31 28 2),
    (.moveTab m k v, setFld v 31 28 3), (.pause m k v, setFld v 31 28 4), (.resume m k v, setFld v 31 28 5),
    (.stop m k v, setFld v 31 28 6), (.home m k v, setFld v 31 28 8), (.clrLim m k v, setFld v 31 28 9) ]

/-- R192, R204, R206, R210, R218, R227, R236, R237, R239: what a write to the PRF block does where its rule lets it: each word, the
condition, and the chip that it leaves. -/
def Sys2Proof.Machine.profileResults (c : Chip) (m : Master) (k : Fin 256) (g : Fin 64) (st : Fin 32) (v : W32) :
    List (Instr × Nat × W32 × Prop × Chip) :=
  let plain := fun (off : Nat) => c.mapWrite (0x300000 + off) v
  [ (.prfChEnWrite m k v, 0x10000 + 64 * k.val, v, (c.chState k.val = stIdle ∨ c.chState k.val = stOff) ∧
      (c.regB (prfCh k.val 0) 31 = true → bit v 31 = true), plain (0x10000 + 64 * k.val)),
    (.kappaTgtWrite m k v, 0x10024 + 64 * k.val, v, nonneg32 v = true ∧ f32Le v f32One = true ∧
      (c.inConfig = true ∨ c.sepHolds k.val = false),
      (c.setReg (prfCh k.val 9) v).modChan k.val fun x => { x with kapW := true }),
    (.prfGfireAtTick m v, 4, setBit v 31 true, c.tick < c.pair (prfGrp (fld v 4 0) 2),
      (c.setB (prfGrp (fld v 4 0) 4) 31 true).modPrf fun p => { p with
        fireAt := tabPut (fun _ => none) p.fireAt (fld v 4 0) (some (c.pair (prfGrp (fld v 4 0) 2))) }),
    (.tableCommit m g v, 0x31014 + 32 * g.val, setBit v 31 true, c.tabCommit g.val = none ∧ c.tabBound g.val = false,
      (c.setB (tblReg g.val 6) 29 true).setTabCommit g.val (some { bank := fld v 0 0, at1 := bit v 30 })),
    (.tableWithdraw m g v, 0x31014 + 32 * g.val, setBit v 31 false, True,
      ((c.setB (tblReg g.val 6) 29 false).setB (tblReg g.val 6) 28 false).setTabCommit g.val none) ] ++
  ((List.finRange 2).map fun w => (.limitWrite m k (w.castLE (by decide)) v, 0x10004 + 64 * k.val + 4 * w.val, v,
    positive32 v = true ∧ c.reg (prfCh k.val (w.val + 1)) ≠ v,
    (c.setReg (prfCh k.val (w.val + 1)) v).modChan k.val fun x => { x with limW := true })) ++
  ((List.finRange 5).map fun w => (.prfTblWrite m g (w.castLE (by decide)) v, 0x31000 + 32 * g.val + 4 * w.val, v,
    c.tabBound g.val = false, plain (0x31000 + 32 * g.val + 4 * w.val))) ++
  ((List.finRange 6).map fun w => (.prfCmpWrite m g ⟨w.val + 3, by omega⟩ v, 0x32000 + 64 * g.val + 4 * (w.val + 3), v,
    True, plain (0x32000 + 64 * g.val + 4 * (w.val + 3)))) ++
  ((List.finRange 2).map fun w => (.prfStpWrite m st ⟨w.val + 4, by omega⟩ v, 0x3C000 + 64 * st.val + 4 * (w.val + 4), v,
    True, c.setReg (stpReg st.val (w.val + 4)) v)) ++
  ((List.finRange 11).map fun w => (.prfHomeWrite m k ⟨w.val + 1, by omega⟩ v, 0x34000 + 128 * k.val + 4 * (w.val + 1), v,
    c.homing k.val = false, plain (0x34000 + 128 * k.val + 4 * (w.val + 1)))) ++
  ((List.finRange 128).map fun w => (.prfMstabWrite m 4 w v, 0x3D800 + 4 * w.val, v,
    (∀ j, j < 32 → c.regB (stpReg j 0) 31 = false), c.setReg (0x33D800 + 4 * w.val) v))

/-- R190, R199, R213: a channel command and a group fire reach the profile engine. Without ticks they stand at once in the
list that the next profile phase evaluates; while ticks run they wait with their instant on TB0, and applying the waiting
writes, with which the phase begins, puts them there. R190, R192, R204, R206, R210, R218, R227, R236, R237: without ticks any other write to
the PRF block is applied at once, with the effect that its rule gives; while ticks run it waits, in order of arrival, and is
applied at the next phase as if it came then.
It rests on the model's choices and deductions of log entries 36 and 46. -/
def Obligations.ProfileWritesTakeEffect : Prop :=
  ∀ (s : State) (m : Master) (k : Fin 256) (g : Fin 64) (st : Fin 32) (v : W32), s.chip.quiet = true →
    let taken := fun (i : Instr) (x : PrfCmd) => ∃ t : State, exec i s = .next t ∧
      (t.chip.applyPrfWrites).prf.cmds = s.chip.prf.cmds ++ [x] ∧
      (s.chip.ticking = false → t = s.withChip (s.chip.modPrf fun p => { p with cmds := p.cmds ++ [x] })) ∧
      t.chip.regs = s.chip.regs ∧ t.husk = s.husk ∧ t.core = s.core ∧ t.pending = s.pending
    (s.chip.prf.writes = [] →
      (∀ row, row ∈ channelCommands m k v → taken row.1 (.cmd k.val row.2)) ∧ taken (.prfGfireNow m v) (.fire (fld v 4 0))) ∧
    (∀ row, row ∈ profileResults s.chip m k g st v → row.2.2.2.1 →
      (s.chip.ticking = false → exec row.1 s = .next (s.withChip row.2.2.2.2)) ∧
      (s.chip.ticking = true → exec row.1 s = .next (s.withChip (s.chip.modPrf fun p =>
        { p with writes := p.writes ++ [(row.2.1, row.2.2.1, s.chip.tb0Ns)] }))) ∧
      (∀ now, s.chip.prfApply row.2.1 row.2.2.1 now = row.2.2.2.2))

/-- R199: how a command acts in each state of its channel (the word is PRF_CMD's). DISARM and STOP discard an armed command and
do nothing in IDLE; PAUSE does nothing at rest or in PAUSING and PAUSED, and is ignored against a master; a move that is not
refused starts at rest, and MOVE_POS and MOVE_VEL also in RUN_A and PAUSED; a refused one leaves the state and sets PLAN_ERR; with
ARM 1 it arms the channel at rest and is ignored elsewhere, as is any other command with ARM 1; RESUME goes on from PAUSED or
reverses a ramp of κ; in OFF, and for every combination that the table does not list, CMD_IGN is set in the channel and in PRF_STAT. -/
def Obligations.ProfileCommandTable : Prop :=
  ∀ (c : Chip) (k : Nat) (w : W32),
    let ignored := (c.setB (chst k 0) 1 true).setB 0x300000 1 true
    let cmd := fld w 31 28
    let st := c.chState k
    let d := c.runCommand k w
    let mv := c.capture k cmd (fld w 5 0)
    let table := (c.chan k).tab
    (st = stOff → d = ignored) ∧
    (bit w 27 = true → cmd ≠ 1 → cmd ≠ 2 → cmd ≠ 3 → d = ignored) ∧
    (cmd = 1 ∨ cmd = 2 ∨ cmd = 3 →
      (bit w 27 = true → st ≠ stIdle → st ≠ stArmed → d = ignored) ∧
      (bit w 27 = true → st = stIdle ∨ st = stArmed → c.refuses k mv = false →
        d = (c.modChan k fun x => { x with armed := some mv }).setF (chst k 0) 31 28 stArmed) ∧
      ((st = stIdle ∨ st = stArmed ∨ (bit w 27 = false ∧ cmd ≠ 3 ∧ (st = stRunA ∨ st = stPaused))) → c.refuses k mv = true →
        d = ((c.setB (chst k 0) 2 true).setB 0x300000 2 true).grpCause (c.chGrp k) 7)) ∧
    (bit w 27 = false →
      ((st = stStopping ∨ st = stFault) → cmd ≠ 9 → d = ignored) ∧
      (st = stHoming → cmd ≠ 6 → cmd ≠ 9 → d = ignored) ∧
      (cmd = 0 → st = stArmed → d = (c.modChan k fun x => { x with armed := none }).setF (chst k 0) 31 28 stIdle) ∧
      (cmd = 0 → st = stIdle → d = c) ∧
      (cmd = 0 → (st = stRunA ∨ st = stRunB ∨ st = stPausing ∨ st = stPaused) → d = ignored) ∧
      ((cmd = 1 ∨ cmd = 2) → (st = stIdle ∨ st = stArmed ∨ st = stRunA ∨ st = stPaused) → c.refuses k mv = false →
        d.chState k = stRunA) ∧
      ((cmd = 1 ∨ cmd = 2) → (st = stRunB ∨ st = stPausing) → d = ignored) ∧
      (cmd = 3 → (st = stIdle ∨ st = stArmed) → c.refuses k mv = false → d.chState k = stRunB) ∧
      (cmd = 3 → (st = stRunA ∨ st = stRunB ∨ st = stPausing ∨ st = stPaused) → d = ignored) ∧
      (cmd = 4 → (st = stIdle ∨ st = stArmed ∨ st = stPausing ∨ st = stPaused) → d = c) ∧
      (cmd = 4 → st = stRunA → d.chState k = stPausing) ∧
      (∀ r, cmd = 4 → st = stRunB → table = some r →
        (c.regB (tblReg r.table 0) 30 = true → d = ignored) ∧
        (c.regB (tblReg r.table 0) 30 = false → d = (c.kappaRamp k 0).setF (chst k 0) 31 28 stPausing)) ∧
      (cmd = 5 → (st = stIdle ∨ st = stArmed ∨ st = stRunA ∨ st = stRunB) → d = ignored) ∧
      (cmd = 5 → st = stPausing → table = none → d = c.setB (chst k 0) 6 true) ∧
      (cmd = 5 → (st = stPausing ∨ st = stPaused) → table ≠ none → c.keptBlocked k = false →
        d = (c.kappaRamp k (c.reg (prfCh k 9))).setF (chst k 0) 31 28 stRunB) ∧
      (cmd = 6 → st = stIdle → d = c) ∧
      (cmd = 6 → st = stArmed → d = (c.modChan k fun x => { x with armed := none }).setF (chst k 0) 31 28 stIdle) ∧
      (cmd = 6 → (st = stRunA ∨ st = stRunB ∨ st = stPausing) → d.chState k = stStopping) ∧
      (cmd = 6 → st = stPaused → k < 256 → d.chState k = stIdle) ∧
      ((cmd = 7 ∨ 10 ≤ cmd) → st ≠ stOff → d = ignored))

/-! ## Events within the profile phase (R212, R213, R222, R223, R226, R228, R230, R234, R235) -/

/-- R210, R212, R213, R222, R223, R226, R228, R230, R234, R235: what each event of the profile engine does when it is due.
It rests on the model's choices and deductions of log entries 4, 44, 45 and 46. -/
def Obligations.ProfileEvents : Prop :=
  ∀ s : State, s.chip.alive →
    let c := s.chip
    (∀ g : Fin 32, tabGet (fun _ => none) c.prf.fireAt g.val = some c.tick →
      exec (.groupFireTickReached g) s = .next (s.withChip ((c.setB (prfGrp g.val 4) 31 false).modPrf fun p =>
        { p with fireAt := tabPut (fun _ => none) p.fireAt g.val none, cmds := p.cmds ++ [PrfCmd.fire g.val] }))) ∧
    (∀ t : Fin 64, c.regB (tblReg t.val 6) 29 = true → ∀ m, c.tabCommit t.val = some m →
      (c.bankGood t.val m.bank = true → exec (.bankVerifyDone t) s =
        .next (s.withChip ((c.setB (tblReg t.val 6) 29 false).setB (tblReg t.val 6) 28 true))) ∧
      (c.bankGood t.val m.bank = false →
        let d := c.bankMeets t.val m.bank
        d.tabBound t.val = false → exec (.bankVerifyDone t) s =
          .next (s.withChip (((d.setB (tblReg t.val 6) 29 false).setTabCommit t.val none).setB 0x300000 3 true)))) ∧
    (∀ (k : Fin 256) (r : TabRun) (n : Nat) (b : Int), (c.chan k.val).tab = some r → r.past = some (n, b) → n ≤ 1 →
      c.tabReady r.table = false →
      exec (.underrunAllowanceExpiry k) s = .next (s.withChip (((c.stopNow k.val).setB (chst k.val 0) 4 true).chCause k.val 3))) ∧
    (∀ (k : Fin 256) (j : Fin 3), j.val ≠ 0 → c.hstate k.val = 0 → c.chState k.val = stIdle →
      let x := c.chan k.val
      let w := x.switch j.val
      w.count ≠ 0 → w.level = true → c.swActive k.val j.val = true → c.swLevel k.val j.val = false →
      c.regF (homeReg k.val 0) 23 16 ≤ satN 255 (w.count + 1) →
      exec (.switchQualified k j) s = .next (s.withChip
        (((((c.setChan k.val (x.setSwitch j.val { w with count := satN 255 (w.count + 1) })).setB (homeReg k.val 16) (7 - j.val) true).setB
          (homeReg k.val 16) (if j.val = 1 then 9 else 8) true).setB (homeReg k.val 16) 0 true).chCause k.val 11))) ∧
    (∀ k : Fin 256, c.chState k.val = stHoming → c.hstate k.val = 1 → c.hmode k.val = 4 →
      f32Le (c.reg (homeReg k.val 8)) (fabs (c.reg (xfReg k.val 3))) = true →
      f32Le (fabs (c.obsVel k.val)) (c.reg (homeReg k.val 9)) = true →
      c.regF (homeReg k.val 0) 7 0 ≤ (c.chan k.val).home.stall + 1 →
      exec (.homeStallDetected k) s = .next (s.withChip
        (((c.setCapt k.val (c.obsPos k.val)).modChan k.val fun x =>
          { x with hold := c.obsPos k.val, plan := none, v := 0, a := 0 }).homeComplete k.val))) ∧
    (∀ k : Fin 256, (c.chan k.val).home.window = some 1 →
      (c.chan k.val).home.changes ≤ c.regF (homeReg k.val 0) 15 8 →
      exec (.hystWindowClose k) s = .next (s.withChip ((c.modHome k.val fun h => { h with window := none }).setF
        (homeReg k.val 17) 7 0 (satN 255 (c.chan k.val).home.changes)))) ∧
    (∀ k : Fin 256, c.chState k.val = stHoming → c.reg (homeReg k.val 11) ≠ 0 →
      (c.reg (homeReg k.val 11)).toNat ≤ (c.chan k.val).home.elapsed + 1 →
      exec (.homeTimeout k) s = .next (s.withChip
        (((c.modHome k.val fun h => { h with elapsed := h.elapsed + 1 }).homeAbort k.val 2).stopNow k.val))) ∧
    (∀ st : Fin 32,
      (∀ u rest, (c.stepper st.val).now = u :: rest → (c.stepper st.val).step = false →
        exec (.stepPulse st true) s = .next (s.withChip (c.setStepper st.val { c.stepper st.val with now := rest, step := true }))) ∧
      exec (.stepPulse st false) s = .next (s.withChip (c.setStepper st.val { c.stepper st.val with step := false })) ∧
      (c.regB (stpReg st.val 0) 30 = false → exec (.stepperHoldCurrent st) s = .next s) ∧
      (c.regB (stpReg st.val 0) 31 = true → c.regB (stpReg st.val 0) 30 = true → c.regB (stpReg st.val 10) 1 = false →
        c.regF (stpReg st.val 6) 31 16 ≠ 0 → c.regF (stpReg st.val 6) 31 16 ≤ (c.stepper st.val).rest →
        let held := c.setB (stpReg st.val 10) 3 true
        ((c.stepper st.val).prev = none → exec (.stepperHoldCurrent st) s = .next (s.withChip held)) ∧
        (∀ e, (c.stepper st.val).prev = some e →
          exec (.stepperHoldCurrent st) s = .next (s.withChip (held.stepRef st.val e true)))))

/-! ## The star (R310, R314, R316 to R319, R332) -/

/-- R310, R314, R316 to R319, R332: the frames of the star, its links and the writes of its registers.
It rests on the model's choices and deductions of log entries 8, 50 and 51. -/
def Obligations.StarCommands : Prop :=
  ∀ (s : State) (m : Master), s.chip.quiet = true →
    let c := s.chip
    (∀ (n : Fin 32) (ncmd aux : Nat) (smsg : Bool) (bytes : List Byte),
      (c.port n.val).payload = some (ncmd, smsg, aux, bytes) → c.portState n.val ≠ psOff →
      ∃ f : List Byte, exec (.downlinkFrameSend n) s = .next (s.withChip (c.modPort n.val fun p =>
          { p with payload := none, sent := f ++ toBytes 4 (crc32c f) })) ∧
        f.take 3 = [0xD1#8, 1#8, if s.husk.stop then 0x69#8 else 0x96#8] ∧ f.drop 32 = bytes) ∧
    (∀ (n : Fin 32) (ts : Nat) (bytes : List Byte) (codeOk : Bool),
      (c.portState n.val = psOff ∨ c.portState n.val = psDown ∨ c.portState n.val = psFenced →
        exec (.uplinkFrame n ts bytes codeOk) s = .next s) ∧
      (c.portState n.val = psRun → (c.port n.val).sof = false → 16 * c.ulStart ≤ ts → ts ≤ 16 * c.ulEnd →
        -c.guard16 ≤ (ts : Int) - c.slot16 n.val → (ts : Int) - c.slot16 n.val ≤ c.guard16 →
        bytes.length + 2 ≤ c.regF (portReg n.val 0) 25 16 → c.uplinkValid bytes codeOk true = true →
        exec (.uplinkFrame n ts bytes codeOk) s = .next (s.withChip
          ((c.modPort n.val fun p => { p with sof := true }).frameAccept n.val ((ts : Int) - c.slot16 n.val) bytes))) ∧
      (c.portState n.val = psRun → (c.port n.val).sof = true → exec (.uplinkFrame n ts bytes codeOk) s = .next (s.withChip
        ((c.addSat (pstReg n.val 3) 31 16 1).modPort n.val fun p => { p with viol := true, warned := true })))) ∧
    (∀ n : Fin 32,
      (c.portState n.val ≠ psOff → c.portState n.val ≠ psDown → exec (.starLinkLoss n) s =
        .next (s.withChip ((c.setF (pstReg n.val 0) 31 29 psDown).modPort n.val fun p => { p with moved := true }))) ∧
      (c.portState n.val = psDown → c.regB (portReg n.val 0) 30 = false → exec (.starLinkRegain n) s =
        .next (s.withChip (((c.setPortState n.val psFenced).setF (pstReg n.val 4) 15 0
          ((c.regF (pstReg n.val 4) 15 0 + 1) % 65536)).setB 0x600000 3 true))) ∧
      (c.portState n.val = psDown → c.regB (portReg n.val 0) 30 = true →
        exec (.starLinkRegain n) s = .next (s.withChip (c.enterAdmit n.val)))) ∧
    (∀ v : W32,
      (c.portState (fld v 4 0) = psFenced → exec (.strAdmit m v) s = .next (s.withChip (c.enterAdmit (fld v 4 0)))) ∧
      (c.portState (fld v 4 0) ≠ psFenced → exec (.strAdmit m v) s = .next (s.withChip (c.setB 0x600000 1 true))) ∧
      (c.inConfig = true → fld v 23 16 ≠ 0 → 8 ≤ fld v 8 0 → fld v 8 0 ≤ 400 → exec (.strGuardWrite m v) s =
        .next (s.withChip ((c.setF 0x600004 23 16 (fld v 23 16)).setF 0x600004 8 0 (fld v 8 0)))) ∧
      (c.inConfig = false → exec (.strGuardWrite m v) s = .next (s.withChip (c.setB 0x600000 1 true)))) ∧
    (∀ (n : Fin 32) (w : Fin 8) (v : W32),
      (c.inConfig = true → exec (.strPortWrite m n (w.castLE (by decide)) v) s =
        .next (s.withChip (c.mapWrite (portReg n.val w.val) v))) ∧
      (c.inConfig = false → w.val ≠ 0 → c.portEn n.val = true → exec (.strPortWrite m n (w.castLE (by decide)) v) s =
        .next (s.withChip (c.setB 0x600000 1 true))))

/-! ## The Husk (R266 to R284) -/

/-- R270 to R275: an input level, a discrepancy, a two-hand window and the test pulses. A pair whose function is neither off nor
two-hand moves as R271 draws it.
It rests on the model's choices and deductions of log entry 63. -/
def Obligations.HuskInputs : Prop :=
  ∀ (s : State) (n : Fin 8) (b level : Bool), s.husk.supply = true →
    let h := s.husk
    let h1 := h.setPair n.val (if b then { h.pair n.val with lvlB := level, qualB := true }
      else { h.pair n.val with lvlA := level, qualA := true })
    let p := h1.pair n.val
    let moves := fun (g : Husk) => exec (.safetyInputQualified n b level) s = .next (s.withHusk (g.settle h))
    (h.func n.val ≠ 0 → h.twoHand n.val = false →
      let f := h.func n.val
      (p.qual = true → (p.demands f = demandLevel f p.lvlA p.lvlB ∧ p.released f = releaseLevel f p.lvlA p.lvlB ∧
        p.demandsBoth f = demandBoth f p.lvlA p.lvlB)) ∧
      ((p.state = .run ∨ p.state = .waitReset) → p.demands f = true →
        moves ((h1.setPair n.val { p with state := .demand, dmd := (p.dmd + 1) % 256 }).ev 464)) ∧
      ((p.state = .run ∨ p.state = .waitReset) → p.demands f = false → moves h1) ∧
      (p.state = .demand → p.released f = true →
        moves (h1.setPair n.val { p with state := if h.restart n.val then .run else .waitReset })) ∧
      (p.state = .fault → p.demandsBoth f = true → moves (h1.setPair n.val { p with state := .faultClr })) ∧
      (p.state = .faultClr → p.released f = true → moves (h1.setPair n.val { p with state := .waitReset })) ∧
      ((h.pair n.val).discrepant f = true → (h.pair n.val).state ≠ .fault →
        exec (.discrepancyTimeout n) s = .next (s.withHusk ((h.pairFault n.val 1).settle h)))) ∧
    (h.func n.val = 0 → moves h1) ∧
    (h.twoHand n.val = true →
      let e := evenPair n.val
      let act := fun (k : Nat) => (h1.pair k).qual && (h1.pair k).lvlA && !(h1.pair k).lvlB
      let rel := (h1.pair e).released 3 && (h1.pair (e + 1)).released 4
      ((h1.pair e).state = .run → (act e && act (e + 1)) = false →
        moves (((h1.enterDemand e).enterDemand (e + 1)).setHands e .demand (if rel then 1 else 0))) ∧
      ((h1.pair e).state = .demand → rel = true → moves (h1.setHands e .demand 1)) ∧
      ((h1.pair e).state = .demand → rel = false → (h1.pair e).seq ≠ 0 →
        (act e = true → act (e + 1) = true → moves (h1.setHands e .run 0)) ∧
        ((act e != act (e + 1)) = true → moves (h1.setHands e .demand 2))) ∧
      ((h1.pair e).state = .fault → rel = true → moves (((h1.setHands e .faultClr 0).setHands e .demand 1).ev 464))) ∧
    (h.func (evenPair n.val) = 3 → (h.pair (evenPair n.val)).seq = 2 → exec (.twoHandTimeout n) s =
      .next (s.withHusk (h.setPair (evenPair n.val) { h.pair (evenPair n.val) with seq := 0 }))) ∧
    (∀ k : Fin 4, (leAt h.set 4 1).testBit k.val = true →
      let e := evenPair n.val
      let atFault := fun (t : State) =>
        (h.twoHand e = false → h.twoHand (e + 1) = false → (t.husk.pair n.val).state =
          if (h.pair n.val).state ≠ .fault ∧ (h.pair n.val).demandsBoth (h.func n.val) = true then .faultClr else .fault) ∧
        (h.twoHand n.val = true → h.handsReleased e = false → (t.husk.pair n.val).state = .fault) ∧
        (h.twoHand n.val = true → h.handsReleased e = true → (h.pair e).state ≠ .fault → (h.pair (e + 1)).state ≠ .fault →
          (t.husk.pair n.val).state = .demand)
      (∀ low around : BitVec 16, ∃ t, exec (.testPulse k low around) s = .next t ∧ t.chip = s.chip ∧ t.core = s.core ∧
        (h.func n.val ≠ 0 → h.source n.val false = k.val + 1 → (h.pair n.val).lvlA = true →
          low.toNat.testBit (2 * n.val) = false → (t.husk.pair n.val).state = .fault) ∧
        (h.func n.val ≠ 0 → h.source n.val true ≠ 0 → h.source n.val true ≠ k.val + 1 →
          low.toNat.testBit (2 * n.val + 1) = true → around.toNat.testBit (2 * n.val + 1) = true → atFault t)) ∧
      (∃ t, exec (.tpOvercurrent k) s = .next t ∧ t.chip = s.chip ∧ t.core = s.core ∧
        (h.func n.val ≠ 0 → h.source n.val false = k.val + 1 → atFault t)))

/-- R266 to R268, R277 to R283: what happens to the outputs, the core link, the safety supply and the reset input.
It rests on the model's choices and deductions of log entries 63, 64 and 65. -/
def Obligations.HuskOutputsAndReset : Prop :=
  ∀ (s : State) (m : Fin 4), s.husk.supply = true →
    let h := s.husk
    let o := h.out m.val
    let now := fun (i : Instr) (g : Husk) => exec i s = .next (s.withHusk g)
    (o.delay = true → now (.cat1DelayExpiry m) (h.setOut m.val { o with delay := false, on := false, test := none })) ∧
    (∀ low : Bool,
      (h.outState m.val = 3 → (∀ k, k < 4 → (h.out k).test = none) →
        now (.outputSwitchTest m low) (h.setOut m.val { o with test := some low })) ∧
      (o.test = some low → now (.switchTestResponse m low) (h.setOut m.val { o with test := none })) ∧
      (o.test = some low → now (.outputTestTimeout m low) (h.outFault m.val (if low then 2 else 1)))) ∧
    now (.safeOutputOvercurrent m) (h.outFault m.val 3) ∧
    (h.outState m.val = 1 → outField h.set m.val 2 1 = 0 → now (.safeOutputBackfeed m) (h.outFault m.val 4)) ∧
    (∀ code : Nat,
      let f := h.setOut m.val { o with fault := true, fcode := code, delay := false, test := none }
      (o.fault = false → h.outFault m.val code = (((f.ev 467).ev 468).blockReset).settle h) ∧
      (o.fault = true → h.outFault m.val code = f)) ∧
    (s.core.started = true → s.core.fault = false →
      now .lsdrvFrame ((forN 4 (fun k (g : Husk) => g.setOut k { g.out k with core := s.core.lsdrv.testBit k })
        { h with lsGood := min 500 (h.lsGood + 1) }).settle h) ∧
      now .cstopFrame ((forN 4 (fun k (g : Husk) => g.setOut k { g.out k with cstop := s.core.cstop.testBit k })
        { h with csGood := min 500 (h.csGood + 1) }).settle h)) ∧
    (∀ stop : Bool, ∃ t, exec (.coreLinkTimeout stop) s = .next t ∧ t.husk.lockLink = true ∧ t.husk.lsGood = 0 ∧
      t.husk.csGood = 0 ∧ (∀ k, k < 4 → (t.husk.out k).on = false) ∧ t.chip = s.chip ∧ t.core = s.core) ∧
    (h.internal = false → ∃ t, exec .huskLaneDisagree s = .next t ∧ t.husk.internal = true ∧ t.husk.stop = true ∧
      (∀ k, k < 4 → (t.husk.out k).on = false) ∧ t.chip = s.chip ∧ t.core = s.core) ∧
    (∃ t, exec .safetySupplyFault s = .next t ∧ t.husk.supply = false ∧ t.husk.stop = true ∧
      (∀ k, k < 4 → (t.husk.out k).on = false) ∧ t.chip = s.chip.dioDown ∧ t.core = s.core) ∧
    (∀ u : State, u.husk.supply = false → ∃ t, exec .safetySupplyReturn u = .next t ∧ t.husk.supply = true ∧
      t.husk.set = u.husk.set ∧ t.husk.lockPower = true ∧ t.husk.internal = false ∧ t.husk.rst = .blocked ∧ t.husk.outs = [] ∧
      t.chip = u.chip.dioUp ∧ t.core = u.core) ∧
    now .srstPress { h with srst := true, rst := if h.rst == .ready then .pressed else h.rst } ∧
    (∀ (act : Nat) (same : List Nat),
      (h.rst = .pressed → 50000 ≤ act → act ≤ 3000000 →
        now (.srstRelease ⟨act, same⟩) (({ h with srst := false, rst := .ready } : Husk).accept same)) ∧
      ((h.rst ≠ .pressed ∨ act < 50000 ∨ 3000000 < act) →
        now (.srstRelease ⟨act, same⟩) { h with srst := false, rst := .ready })) ∧
    (h.rst = .pressed → now .resetHeld (({ h with rst := .held, held := (h.held + 1) % 256 } : Husk).ev 470))

/-- R276, R277, R279: after every step a closed safe output has its permission (a running category 1 delay bridges the pairs
alone), only a closed output is under test, and at most one switch of the module is.
It rests on the model's choices and deductions of log entry 65. -/
def Obligations.HuskStaysSafe : Prop := ∀ s t : State, s.husk.Safe → step s = .next t → t.husk.Safe

/-- The commands by which the Husk itself, the status telegram (which brings a confirmed set into force) and BOOT (which brings the
image's confirmed set into force) change what decides the safe outputs and HUSK_STOP. -/
def Sys2Proof.Machine.huskRow : Instr → Bool
  | .statusTelegram .. | .lsdrvFrame | .cstopFrame | .coreLinkTimeout .. | .safetyInputQualified .. | .discrepancyTimeout ..
  | .twoHandTimeout .. | .testPulse .. | .tpOvercurrent .. | .cat1DelayExpiry .. | .outputSwitchTest .. | .outputTestTimeout ..
  | .switchTestResponse .. | .safeOutputOvercurrent .. | .safeOutputBackfeed .. | .huskLaneDisagree | .safetySupplyFault
  | .safetySupplyReturn | .srstPress | .srstRelease .. | .resetHeld | .boot .. | .sysBootCtrlGo .. => true
  | _ => false

/-- R8: no register access (a parameter-set command among them), pod instruction, DMA transfer, host access, fabric frame or reset of
Corukan moves the safe outputs, the pairs, the set in force or HUSK_STOP: only the Husk's own commands, the status telegram and BOOT do.
It rests on the model's choices and deductions of log entry 63. -/
def Obligations.WiredPathsAreKept : Prop :=
  ∀ (i : Instr) (s t : State), huskRow i = false → exec i s = .next t → t.husk.wired = s.husk.wired

/-! ## The safety core (R266, R285, R290, R291, R301) -/

/-- R13, R266, R283, R285, R290, R291, R301, R488, R489: the safety cycle, the stops and faults of the core, the status telegram and the
handling of a parameter set.
It rests on the model's choices and deductions of log entries 66, 67 and 68. -/
def Obligations.SafetyCoreCommands : Prop :=
  ∀ (s : State) (m : Master), s.chip.quiet = true →
    let k := s.core
    (∀ onTime : Bool, s.chip.twin.replay = none → k.started = true → k.fault = false →
      ∃ t, exec (.safetyCycle onTime) s = .next t ∧ t.core.cycles = (k.cycles + 1) % 2 ^ 32 ∧ t.core.resetPend = false ∧
        t.core.missRun = (if onTime then 0 else k.missRun + 1) ∧
        (onTime = false → 3 ≤ k.missRun → t.core.syncFault = true) ∧ t.chip.star.safe = [] ∧ t.husk = s.husk) ∧
    (∀ g : Fin 16, (k.group g.val).t1 = true → exec (.groupStopT1Expiry g) s =
      .next (s.withCore (k.setGroup g.val { k.group g.val with t1 := false, cut := true }))) ∧
    (k.fault = false → ∃ t, exec .safetyCoreFault s = .next t ∧ t.core.fault = true ∧ t.core.cur = [] ∧ t.core.next = [] ∧
      t.core.running = false ∧ t.husk = s.husk ∧
      (s.chip.modState ≠ .safe → s.chip.ticking = true → t.chip = { s.chip with wantSafe := true }) ∧
      (s.chip.modState = .boot → t.chip.modState = .safe ∧ t.chip.regF 0x214 11 8 = 8) ∧
      (s.chip.modState = .reset → t.chip = s.chip)) ∧
    (k.started = true → k.fault = false → ∃ t, exec .huskLinkTimeout s = .next t ∧ t.core.linkFault = true ∧
      (∀ e, e ∈ k.groupNos → ∃ cat, (t.core.group e.2).stop = some cat ∧ cat ≤ 1 ∧
        ∀ old, (k.group e.2).stop = some old → cat ≤ old) ∧ t.husk = s.husk ∧ t.chip = s.chip) ∧
    (∀ i0 i1 i2 i3 : BitVec 16, s.husk.supply = true → ∃ t, exec (.statusTelegram i0 i1 i2 i3) s = .next t ∧
      t.husk.counter = (s.husk.counter + 1) % 256 ∧ t.husk.evs = [] ∧ t.core.evs = [] ∧ t.husk.sendReset = false ∧
      (s.husk.sendReset = true → (s.husk.confirm = false ∨ k.awaiting = false) → t.core.resetPend = true) ∧
      (s.husk.confirm = true → k.awaiting = true → k.started = true → k.fault = false →
        t.husk.set = s.husk.pend ∧ t.core.set = k.pend ∧ t.core.awaiting = false ∧ t.husk.lockSet = true)) ∧
    (exec (.paramSetCommit m) s = .next s.commitSet) ∧
    (k.started = true → k.fault = false → s.chip.inConfig = false → exec (.paramSetCommit m) s =
      .next (s.withCore (({ k with result := 7 } : SafetyCore).ev 478))) ∧
    (k.pend ≠ [] → exec (.paramSetDiscard m) s = .next { s with
      husk := { s.husk with pend := [], confirm := false }
      core := ({ k with pend := [], awaiting := false, result := 8 } : SafetyCore).ev 478 }) ∧
    (k.started = true → k.fault = false → k.pend ≠ [] → k.awaiting = false → s.husk.supply = true →
      (hcrcOk (setHusk k.pend) = true → exec .paramSetAwaitConfirm s = .next { s with
        husk := { s.husk with pend := setHusk k.pend, rst := if s.husk.srst then .blocked else s.husk.rst }
        core := ({ k with awaiting := true, awaitAt := s.chip.tb3 } : SafetyCore).ev 476 })) ∧
    (k.started = true → k.fault = false → k.pend ≠ [] → k.awaiting = false →
      (s.husk.supply = false ∨ hcrcOk (setHusk k.pend) = false) → exec .paramSetAwaitConfirm s = .next (s.withCore
        (({ k with pend := [], awaiting := false, result := 6 } : SafetyCore).ev 478))) ∧
    (k.awaiting = true → k.pend ≠ [] → k.awaitAt + 60000000000 ≤ s.chip.tb3 → exec .paramConfirmTimeout s = .next { s with
      husk := { s.husk with pend := [], confirm := false }
      core := ({ k with pend := [], awaiting := false, result := 8 } : SafetyCore).ev 478 })

/-! ## The separation engine (R242, R259, R261, R262, R264, R265) -/

/-- R242, R259, R261, R262, R264, R265: the seal once per frame at POSE_TICK, the check once at CHK_TICK, its end, the results at
the frame's first tick, the release of a protective stop and the writes of an arm.
It rests on the model's choices and deductions of log entries 60 and 61. -/
def Obligations.SeparationCommands : Prop :=
  ∀ (s : State) (m : Master), s.chip.alive → s.chip.quiet = true →
    let c := s.chip
    (c.tick % c.planFrame = c.poseTick → c.sep.sealedAt ≠ some c.tick →
      ∃ t, exec .workspaceSeal s = .next t ∧ t.chip.sep.sealedAt = some c.tick ∧ t.husk = s.husk ∧ t.core = s.core) ∧
    ((c.tick % c.planFrame ≠ c.poseTick ∨ c.sep.sealedAt = some c.tick) → exec .workspaceSeal s = .next s) ∧
    (c.tick % c.planFrame = c.chkTick → c.sep.checkedAt ≠ some c.tick → c.setUsable c.position = true →
      let read := forL c.positionsIn (fun p c => c.engineMeets (c.viewAddr p) 0x22000) c
      ∃ t x, exec .separationCheck s = .next t ∧ t = s.withChip { read with sep := x } ∧ x.checkedAt = some c.tick ∧
        x.result.isSome = true ∧ x.viewMiss = !(c.positionsIn.all c.setUsable)) ∧
    ((c.tick % c.planFrame ≠ c.chkTick ∨ c.sep.checkedAt = some c.tick ∨ c.setUsable c.position = false) →
      exec .separationCheck s = .next s) ∧
    (∀ rows events units rounds, c.sep.result = some (rows, events, units, rounds) →
      ∃ t, exec .chkDone s = .next t ∧ t.chip.sep = { c.sep with result := none } ∧ t.chip.reg 0x50002C = BitVec.ofNat 32 units ∧
        t.chip.reg 0x500030 = BitVec.ofNat 32 (max units (c.reg 0x500030).toNat)) ∧
    (c.tick % c.planFrame = 0 → exec .workspaceResultApply s = .next (s.withChip
      ((forL c.sep.apply (fun e c => c.applyArm e.1 e.2.1 e.2.2.1 e.2.2.2) c).modSep fun x => { x with apply := [], published := [] }))) ∧
    (∀ v : W32,
      (c.sepPstop (fld v 3 0) = true → exec (.sepPsrel m v) s = .next (s.withChip (c.setB (sepArm (fld v 3 0) 0) 25 true))) ∧
      (c.sepPstop (fld v 3 0) = false → exec (.sepPsrel m v) s = .next (s.withChip (c.setB 0x500000 2 true)))) ∧
    (∃ t, exec .autoRelease s = .next t ∧ (∀ a, a < 16 → t.chip.sepRel a =
        (c.sepRel a || (c.sepPstop a && c.regB (sepArm a 0) 29 &&
          decide (c.regF (sepArm a 0) 23 8 ≤ tabGet (fun _ => 0) c.sep.stopped a)))) ∧
      (∀ a w, a < 16 → w ≠ 0 → w < 16 → t.chip.reg (sepArm a w) = c.reg (sepArm a w)) ∧ t.chip.sep = c.sep) ∧
    (∀ (a : Fin 16) (v : W32),
      (c.inConfig = true → exec (.sepArmWrite m a 0 v) s = .next (s.withChip (c.mapWrite (sepArm a.val 0) v))) ∧
      exec (.sepArmWrite m a 1 v) s = .next (s.withChip (c.setReg (sepArm a.val 1) v)) ∧
      (nonneg32 v = true → f32Le v f32One = true →
        exec (.sepArmWrite m a 2 v) s = .next (s.withChip (c.setReg (sepArm a.val 2) v))) ∧
      ((nonneg32 v = false ∨ f32Le v f32One = false) →
        exec (.sepArmWrite m a 2 v) s = .next (s.withChip (c.setB 0x500000 2 true))) ∧
      (∀ w : Fin 10, 3 ≤ w.val →
        (c.sepArmEn a.val = true → exec (.sepArmWrite m a (w.castLE (by decide)) v) s = .next (s.withChip (c.setB 0x500000 2 true))) ∧
        (c.sepArmEn a.val = false → w.val = 5 ∨ w.val = 6 ∨ 8 ≤ w.val →
          exec (.sepArmWrite m a (w.castLE (by decide)) v) s = .next (s.withChip (c.setReg (sepArm a.val w.val) v)))))

/-! ## The cascade ring (R335, R338, R339, R343 to R345, R347 to R352) -/

/-- R335, R338, R339, R343 to R345, R347 to R352: the frames of a station, its cold start, the end of a ring cycle, and healing.
It rests on the model's choices and deductions of log entries 53, 54 and 59. -/
def Obligations.RingCommands : Prop :=
  ∀ (s : State) (m : Master), s.chip.quiet = true →
    let c := s.chip
    let now := fun (i : Instr) (d : Chip) => exec i s = .next (s.withChip d)
    (∀ kind, c.ticking = false ∨ c.nextTick ≠ none → now (.ringSlotSend kind) c) ∧
    (c.ticking = true → c.nextTick = none → (c.rstate = rsInteg ∨ c.rstate = rsActive) → now (.ringSlotSend 0)
      (c.ringSend (c.ringHeader 0x5A 0 (c.slotTime (c.statSlot c.crnMode c.station).1) 0))) ∧
    (∀ b : List Byte, (c.ringSend b).ring.sent =
      if c.loopOf c.station true then (if c.loopOf c.station false then [] else [(false, ringFrame b)])
      else if c.loopOf c.station false then [(true, ringFrame b)] else [(true, ringFrame b), (false, ringFrame b)]) ∧
    (c.ticking = true → c.nextTick = none → c.rstate = rsActive → c.ownsPosition = true → (c.dataSlot c.crnMode c.position).2 ≠ 0 →
      let n := c.tickBytes c.crnMode c.position
      let o := c.tick % c.ringCycle * n
      let d := (c.streamMeets o n).streamArrived c.position o (c.streamBytes o n)
      now (.ringSlotSend 1) (d.ringSend (d.ringHeader 0x5B 0 (d.slotTime (d.dataSlot c.crnMode c.position).1) o ++ c.streamBytes o n))) ∧
    (∀ (east : Bool) (t : Nat) (b : List Byte),
      (c.rstate = rsListen → ringFrameOk 0x5A b true = true → b.length = 40 → c.ring.mm = false → c.ring.firstHeard = none →
        now (.statusFrame east t b true)
          (((c.passFrame east t b).headerTaken b).modRing fun r => { r with firstHeard := some (leAt b 8 4) })) ∧
      (c.rstate = rsListen → ringFrameOk 0x5B b true = true → c.ring.mm = false → c.ring.firstHeard = none →
        now (.dataFrame east t b true)
          (((c.passFrame east t b).headerSeen b).modRing fun r => { r with firstHeard := some (leAt b 8 4) })) ∧
      ((c.rstate = rsInteg ∨ c.rstate = rsActive) → leAt b 1 1 = c.station → ∀ codeOk,
        now (.statusFrame east t b codeOk) (c.ownFrame (c.statSlot c.crnMode c.station).1 east t b) ∧
        now (.dataFrame east t b codeOk) (c.ownFrame (c.dataSlot c.crnMode c.position).1 east t b)) ∧
      ((c.rstate = rsInteg ∨ c.rstate = rsActive) → leAt b 1 1 ≠ c.station → c.windowsAt east t = [] → ∀ codeOk,
        now (.statusFrame east t b codeOk) ((c.ringCut (leAt b 1 1) false).ringForward east t [] false) ∧
        now (.dataFrame east t b codeOk) ((c.ringCut (leAt b 1 1) false).ringForward east t [] false)) ∧
      (∀ d prim dist, (c.rstate = rsInteg ∨ c.rstate = rsActive) → leAt b 1 1 ≠ c.station →
        c.ringGuard 0x5A east t b = (d, some (prim, dist)) → ringFrameOk 0x5A b true = true → b.length = 40 →
        now (.statusFrame east t b true) (((d.headerTaken b).modeFields b).takeOffset (leAt b 1 1) prim dist)) ∧
      (∀ p prim dist len, (c.rstate = rsInteg ∨ c.rstate = rsActive) → leAt b 1 1 ≠ c.station →
        c.windowsAt east t = [(.data p, leAt b 1 1, prim, dist, len)] → ringFrameOk 0x5B b true = true →
        (4096 * (b.length / 8 + 2 : Nat) : Int) ≤ 4096 * len + 1600 * c.rg - 100 * dist →
        c.ring.dataSeen.contains (p, east, prim) = false →
        (tabGet (fun _ => []) c.ring.stream (leAt b 1 1 / 2)).contains (leAt b 0x1C 4, b.length - 40) = false →
        let d := (c.ringForward east t b true).modRing fun r => { r with dataSeen := (p, east, prim) :: r.dataSeen }
        now (.dataFrame east t b true)
          ((d.headerSeen b).streamTaken (leAt b 1 1 / 2) (leAt b 0x1C 4) ((b.drop 32).take (b.length - 40)))) ∧
      ((c.rstate = rsInteg ∨ c.rstate = rsActive) → ∀ codeOk,
        now (.coldStartFrame east b codeOk) ((c.ringCut (leAt b 1 1) false).ringForward east c.ringNow [] false)) ∧
      (c.rstate = rsSend → c.ring.watching = true → ringFrameOk 0x5C b true = true → b.length = 40 →
        now (.coldStartFrame east b true) ((c.passFrame east c.ringNow b).modRing fun r =>
          if leAt b 1 1 = c.station then { r with returned := true } else { r with collided := true })) ∧
      (c.rstate = rsListen → ringFrameOk 0x5C b true = true → b.length = 40 →
        now (.coldStartFrame east b true) (((c.passFrame east c.ringNow b).headerTaken b).coldAdopt east b))) ∧
    (∀ (d : Nat),
      now (.peerDelayExchange true d) (c.modRing fun r => { r with delaysE := (d :: r.delaysE).take 8 }) ∧
      now (.peerDelayExchange false d) (c.modRing fun r => { r with delaysW := (d :: r.delaysW).take 8 })) ∧
    (c.rstate = rsActive → ∃ t, exec .ringCycleEnd s = .next t ∧ t.husk = s.husk ∧ t.core = s.core ∧
      (let mid := ringMid ((c.ring.offs.filterMap fun e => e.2.map fun x => (e.1, x.1)).map (·.2))
       t.chip.reg 0x700010 = BitVec.ofInt 32 mid ∧ t.chip.tim.ringLeft = -mid * 2 ^ 40)) ∧
    (c.rstate = rsExcluded → 8 ≤ c.ring.inState → now .exclusionEnd c.listenStart) ∧
    (c.rstate = rsListen → c.position = 0 → c.ring.mm = false →
      c.ring.listenFrom + (c.regF 0x700008 31 16 + c.station * c.regF 0x700008 15 0) * 1000 ≤ c.tb3 →
      now .listenTimeout ((c.setRstate rsSend).modRing fun r => { r with countdown := some 3 })) ∧
    (c.rstate = rsSend →
      (∀ k, c.ring.countdown = some k → now .coldStartSend ((c.ringSend (c.ringHeader 0x5C k c.tb0Ns 0)).modRing fun r =>
        { r with returned := false, collided := false, watching := true })) ∧
      (c.ring.watching = true → (c.ring.collided = true ∨ c.ring.returned = false) → now .coldStartWatchEnd c.listenStart) ∧
      (c.ring.watching = true → c.ring.collided = false → c.ring.returned = true →
        (∀ k, c.ring.countdown = some (k + 1) →
          now .coldStartWatchEnd (c.modRing fun r => { r with watching := false, countdown := some k })) ∧
        (c.ring.countdown = some 0 →
          now .coldStartWatchEnd (c.modRing fun r => { r with watching := false, countdown := none }))) ∧
      (c.ring.watching = false → c.ring.countdown = none → c.paired = false → c.twin.joining = false →
        now .ringCycleEnd (((({ c with nextTick := some 0, ticking := true } : Chip).setRstate rsActive).copyXdata).checkMode))) ∧
    (∀ east : Bool,
      let twin := east == (c.twinT == 0)
      let tlink := c.regB 0x700020 27
      let up := c.modRing fun r => if east then { r with okE := true } else { r with okW := true }
      let down := c.modRing fun r => if east then { r with okE := false } else { r with okW := false }
      let cut := if twin && tlink then (down.setB 0x700020 27 false).crnFire 110 else down
      ((twin = false ∨ tlink = true) → now (.ringLinkOk east) up) ∧
      (twin = true → tlink = false → now (.ringLinkOk east) ((up.setB 0x700020 27 true).crnFire 110)) ∧
      ((c.loopOf c.station east = true ∨ c.ringEn = false) → now (.ringPortFault east) cut) ∧
      (c.loopOf c.station east = false → c.ringEn = true → now (.ringPortFault east)
        (((cut.setB 0x700000 (if east then 20 else 19) true).crnFire 101).checkMode))) ∧
    (∀ v : W32,
      (c.ring.request = none → c.modeLoaded (fld v 2 0) = true → c.isMaster = true → now (.crnModereq m v)
        ((c.setB 0x70000C 31 true).modRing fun r => { r with request := some (fld v 2 0, c.tick / c.ringCycle + 1) })) ∧
      ((c.ring.request ≠ none ∨ c.modeLoaded (fld v 2 0) = false ∨ c.isMaster = false) →
        now (.crnModereq m v) (c.setB 0x700000 2 true)))

/-! ## Twin pairs and the hot join (R320, R354, R356, R357, R360, R362) -/

/-- R320, R354, R356, R357, R360, R362: the flashes of a twin pair, their absence, the decision on a digest mismatch, and the hot join.
It rests on the model's choices and deductions of log entries 55, 56, 57, 58 and 59. -/
def Obligations.TwinCommands : Prop :=
  ∀ (s : State) (m : Master), s.chip.quiet = true →
    let c := s.chip
    let now := fun (i : Instr) (d : Chip) => exec i s = .next (s.withChip d)
    (c.flashing = true →
      now .twinFlashSend (c.twinSend (ringFrame (c.twinFlash (s.core.sseq c)))) ∧
      ∃ b : List Byte, now .maskFlashSend (c.twinSend b) ∧ b.length = 16 ∧
        b.take 8 = toBytes 1 0x5F ++ toBytes 1 c.station ++ toBytes 2 c.tick ++ toBytes 4 (c.reg 0x60000C).toNat) ∧
    (∀ b : List Byte, (c.twinSend b).ring.sent = if c.loopOf c.station (c.twinT == 0) then [] else [(c.twinT == 0, b)]) ∧
    (∀ b : List Byte, c.paired = true → ringFrameOk 0x5E b true = true → b.length = 456 → leAt b 1 1 = c.partner →
      c.twin.joining = false →
      ∃ t, exec (.twinInputFlash b true) s = .next t ∧ t.chip.twin.flash = some b ∧ t.chip.twin.pflags = leAt b 0x22 2 ∧
        t.chip.twin.hbNow = true ∧ t.husk = s.husk ∧ t.core = s.core ∧
        (c.owner = true → (leAt b 0x22 2).testBit 0 = true → c.twin.ownTick < leAt b 0x24 4 →
          t.chip.owner = false ∧ t.chip.eligible = false)) ∧
    (∀ b : List Byte, c.paired = true → b.length = 16 → leAt b 0 1 = 0x5F → leAt b 1 1 = c.partner → leAt b 2 2 = c.tick % 65536 →
      crc32c (b.take 8) = leAt b 8 4 → c.twin.maskDue = true →
      now (.maskFlash b true) (((c.modRing fun r => { r with listenFrom := c.tb3 }).maskReleased (BitVec.ofNat 32 (leAt b 4 4))).modTwin fun t =>
        { t with pmask := some (BitVec.ofNat 32 (leAt b 4 4)), maskDue := false })) ∧
    (c.twin.recDue = true → now (.lirMiss false)
      ((({ (c.modTwin fun t => { t with recDue := false }) with stf := true } : Chip).setB 0x700000 7 true).crnFire 107)) ∧
    (c.twin.maskDue = true → now (.lirMiss true)
      ((({ (c.modTwin fun t => { t with maskDue := false }) with stf := true } : Chip).setB 0x700000 7 true).crnFire 107)) ∧
    (c.paired = true → c.owner = false → c.eligible = true → c.twin.hbNow = false → c.ringCycle ≤ c.twin.hbMiss + 1 →
      now .heartbeatTimeout (c.modTwin fun t => { t with want := some true })) ∧
    (c.regB 0x700020 31 = true →
      now (.crnTwinKeep m) (c.setB 0x700020 31 false) ∧
      now (.crnTwinSwap m) ((c.setB 0x700020 31 false).modTwin fun t => { t with swap := true })) ∧
    (c.regB 0x700020 31 = false →
      now (.crnTwinKeep m) (c.setB 0x700000 2 true) ∧ now (.crnTwinSwap m) (c.setB 0x700000 2 true)) ∧
    (let d := c.modTwin fun t => { t with
        joining := true, joinAt := none, image := [], imageAt := 0, log := [], replay := none, opened := false, logAt := 0, rep := .none, gotRing := []
        gotCommits := [], matched := 0, live := 0 }
     ((c.joinSlot c.crnMode c.position).2 ≠ 0 → now (.crnTwinJoin m) (d.dropOwner.setElig false)) ∧
     ((c.joinSlot c.crnMode c.position).2 = 0 → now (.crnTwinJoin m) (d.joinFail 2))) ∧
    (∀ (east : Bool) (t : Nat) (b : List Byte), (c.rstate = rsInteg ∨ c.rstate = rsActive) →
      c.joinGuard east t b = (c, true) → ringFrameOk 0x5D b true = true → c.twin.joining = true → c.twin.replay = none →
      leAt b 0x1C 4 = c.twin.image.length →
      (let e := (c.headerSeen b).modTwin fun t => { t with
        image := t.image ++ (b.drop 32).take (b.length - 40), joinAt := if t.image.length = 0 then some c.tick else t.joinAt }
       (e.twin.image.length < e.identity.length + 64 → now (.joinFrame east t b true) e) ∧
       exec (.joinFrame east t b true) s = .next { s with chip := (e.joinLoad s.core).1, core := (e.joinLoad s.core).2 })) ∧
    (∀ (n : Nat) (e : JoinTick), c.twin.replay = some n → c.twin.opened = false → c.twin.joinAt = some n →
      (c.twin.log.find? fun x => x.tick == n) = some e →
      (let w := c.replayWork s.core e
       exec .replayTick s = .next (({ s with
         chip := w.1.modTwin fun t => { t with replay := some (n + 1), opened := true, log := t.log.filter fun x => decide (n < x.tick) }
         core := w.2 } : State).settle .pass)))

/-! ## Time bases, triggers and captures (R367 to R379) -/

/-- R367, R369 to R379: a CK_TIME cycle, the servo's linear branch, steps, slews, holdover, cross-timestamps, and the triggered outputs
and capture inputs.
It rests on the model's choices and deductions of log entries 15, 33, 34 and 35. -/
def Obligations.TimeCommands : Prop :=
  ∀ (s : State) (m : Master), s.chip.quiet = true →
    let c := s.chip
    let now := fun (i : Instr) (d : Chip) => exec i s = .next (s.withChip d)
    (∃ t, exec .timeCycle s = .next t ∧ t.husk = s.husk ∧ t.core = s.core ∧
      (∀ off, off < 0x900000 → (∀ n w, n < 32 → w < 16 → off ≠ toReg n w) → t.chip.reg off = c.reg off) ∧
      (∀ n : Fin 32, c.toArmed n.val = true → c.toMode n.val = 1 → c.reached (c.toBase n.val) (c.trig n.val).nextTime = true →
        t.chip.toArmed n.val = false ∧ t.chip.regB (toReg n.val 10) 0 = true) ∧
      (∀ n : Fin 32, c.toArmed n.val = false → c.regB (toReg n.val 10) 0 = true → (c.trig n.val).endAt ≤ c.tb3 →
        t.chip.regB (toReg n.val 10) 0 = false) ∧
      (∀ b, 0 < b → b < 6 →
        (t.chip.base b).val = ((c.base b).val + (c.baseStep b).1 : Int).toNat ∧ (t.chip.base b).slewLeft = (c.baseStep b).2)) ∧
    (c.baseStep 3 = (2 ^ 44, 0) ∧ (∀ b, b = 1 ∨ b = 2 ∨ b = 4 ∨ b = 5 →
      let top := ppmRate (c.regF (tbReg b 3) 8 0)
      (c.baseStep b).1 = 2 ^ 44 + (c.base b).rate + clampI (-top) top (c.base b).slewLeft)) ∧
    (∀ n : Fin 32,
      (c.toArmed n.val = true → c.toMode n.val = 1 → c.reached (c.toBase n.val) (c.trig n.val).nextTime = true →
        ∃ t, exec (.triggerInstance n) s = .next t ∧ t.chip.toArmed n.val = false ∧ t.chip.regB (toReg n.val 10) 0 = true ∧
          t.chip.reg (toReg n.val 8) = c.reg (toReg n.val 8) + 1 ∧ (t.chip.trig n.val).done = (c.trig n.val).done + 1 ∧
          t.husk = s.husk ∧ t.core = s.core) ∧
      (c.regB (toReg n.val 10) 0 = true → (c.trig n.val).endAt ≤ c.tb3 →
        now (.triggerPulseEnd n) (c.setB (toReg n.val 10) 0 false)) ∧
      (∀ r, ((c.trig n.val).reqs.find? fun r => c.reached 0 r.tc) = some r → c.toMode n.val = 3 → c.toArmed n.val = true →
        now (.comparePulseStart n) ((c.setTrig n.val { c.trig n.val with reqs := (c.trig n.val).reqs.erase r }).pulseOn n.val r.width)) ∧
      (∀ v : W32, c.toArmed n.val = true → fld (c.reg (toReg n.val 0)) 30 29 = fld v 30 29 →
        fld (c.reg (toReg n.val 0)) 26 24 = fld v 26 24 → fld v 26 24 ≤ 5 →
        let d := ((c.setB (toReg n.val 0) 28 (bit v 28)).setB (toReg n.val 0) 27 (bit v 27)).setB (toReg n.val 0) 31 false
        ((c.trig n.val).reqs = [] → now (.triggerDisarm m n v) d) ∧
        ((c.trig n.val).reqs ≠ [] → now (.triggerDisarm m n v)
          ((((d.setTrig n.val { c.trig n.val with reqs := [] }).setB 0x800000 2 true).setB (toReg n.val 10) 3 true).fire (128 + n.val)))) ∧
      (∀ v : W32, c.toArmed n.val = false → fld v 30 29 = 1 → fld v 26 24 ≤ 5 →
        let start := secNs ((c.reg (toReg n.val 1)).toNat + c.regF (toReg n.val 2) 15 0 * 2 ^ 32) (c.reg (toReg n.val 3)).toNat
        ∃ t, exec (.triggerArm m n v) s = .next t ∧
          (c.reached (fld v 26 24) start = false → t.chip.toArmed n.val = true ∧ (t.chip.trig n.val).start = start ∧
            (t.chip.trig n.val).next = 0 ∧ (t.chip.trig n.val).width = (c.reg (toReg n.val 6)).toNat) ∧
          (c.reached (fld v 26 24) start = true → t.chip.toArmed n.val = false ∧ t.chip.regB (toReg n.val 10) 1 = true))) ∧
    (∀ (n : Fin 16) (level : Bool), c.regB (cpReg n.val 0) 31 = true →
      (if level then c.regF (cpReg n.val 0) 30 29 % 2 = 1 else 2 ≤ c.regF (cpReg n.val 0) 30 29) →
      ∃ t, exec (.captureEdge n level) s = .next t ∧ t.husk = s.husk ∧ t.core = s.core ∧
        ((c.capFifo n.val).length < 8 → t.chip.capFifo n.val = c.capFifo n.val ++
          [{ stamp := ((c.base (c.regF (cpReg n.val 0) 26 24)).val / 2 ^ 28 - c.regF (cpReg n.val 0) 7 0 * 409600) / 2 ^ 16 * 2 ^ 16
             level := level }]) ∧
        (8 ≤ (c.capFifo n.val).length → t.chip.capFifo n.val = c.capFifo n.val ∧ t.chip.regB (cpReg n.val 1) 8 = true) ∧
        (∀ b, b < 6 → servoed b = true → c.regB (tbReg b 0) 29 = true → c.regF (tbReg b 0) 27 24 = n.val →
          t.chip.regB (tbReg b 12) 29 = true ∧ t.chip.regB (tbReg b 12) 31 = false)) ∧
    (∀ (n : Fin 16) (v : W32),
      let off := cpReg n.val 0
      let ends := fun (d : Chip) => if bit v 31 then d else d.setCapFifo n.val []
      (fld v 30 29 ≠ 0 → fld v 26 24 ≤ 5 → now (.timCpWrite m n v) (ends (c.mapWrite off v))) ∧
      (fld v 30 29 = 0 → fld v 26 24 ≤ 5 →
        now (.timCpWrite m n v) (ends ((c.setB 0x800000 1 true).mapWrite off (setFld v 30 29 (c.regF off 30 29))))) ∧
      (fld v 30 29 ≠ 0 → 5 < fld v 26 24 →
        now (.timCpWrite m n v) (ends ((c.setB 0x800000 1 true).mapWrite off (setFld v 26 24 (c.regF off 26 24)))))) ∧
    (∀ (b : Fin 6) (v : W32), b.val ≠ 0 → b.val ≠ 3 →
      (let o := signed 64 ((c.reg (tbReg b.val 5)).toNat + v.toNat * 2 ^ 32)
       let thr : Int := ((c.reg (tbReg b.val 4)).toNat * 2 ^ 16 : Nat)
       let k := c.regF (tbReg b.val 0) 21 16
       let top := ppmRate (c.regF (tbReg b.val 0) 9 0)
       let integ := clampI (-top) top ((c.base b.val).integ + shrI (o * (c.reg (tbReg b.val 2)).toNat) k)
       let rate := clampI (-top) top (integ + shrI (o * (c.reg (tbReg b.val 1)).toNat) k)
       c.regB (tbReg b.val 0) 29 = false → c.regB (tbReg b.val 12) 31 = false → -thr ≤ o → o ≤ thr →
       now (.offsetSample m b v) ((c.setB (tbReg b.val 12) 29 true).setBase b.val
         { c.base b.val with since := c.tb3, slewLeft := 0, integ := integ, rate := rate })) ∧
      (let new := secNs ((c.reg (tbReg b.val 7)).toNat + c.regF (tbReg b.val 8) 15 0 * 2 ^ 32) v.toNat * 2 ^ 28
       (c.regB (tbReg b.val 0) 31 = false ∨ (c.base b.val).val ≤ new) →
       now (.timeSet m b v) (c.stepBase b.val ((new : Int) - (c.base b.val).val))) ∧
      (c.regB (tbReg b.val 12) 30 = true → (c.base b.val).slewLeft = 0 →
        now (.slewComplete b) (((c.setB (tbReg b.val 12) 30 false).setB (tbReg b.val 12) 4 true).fire (176 + b.val))) ∧
      (c.regB (tbReg b.val 12) 31 = false → (c.base b.val).since + c.regF (tbReg b.val 3) 31 16 * 1000000 ≤ c.tb3 →
        now (.holdoverEntry b) (((c.setB (tbReg b.val 12) 31 true).setB (tbReg b.val 12) 2 true).fire (176 + b.val)))) ∧
    (∀ v : W32, ∃ t, exec (.timXtsGo m v) s = .next t ∧ t.chip.regB 0x800004 31 = true ∧
      ∀ b, b < 6 → t.chip.reg (tbReg b 13) = BitVec.ofNat 32 (c.tbNs b) ∧ t.chip.reg (tbReg b 14) = BitVec.ofNat 32 (c.tbSec b))

/-! ## The plant ports (R386 to R395) -/

/-- R386 to R395: reception, command frames and their operations, transmission, forwarding, links and the writes of keys and ports.
It rests on the model's choices and deductions of log entries 13, 14, 19, 82 and 83. -/
def Obligations.PlantPortCommands : Prop :=
  ∀ (s : State) (m : Master) (p : Fin 2), s.chip.quiet = true →
    let c := s.chip
    let now := fun (i : Instr) (d : Chip) => exec i s = .next (s.withChip d)
    (∀ (b : List Byte) (fcsOk : Bool),
      (c.ethBit p.val 31 = false → exec (.ethFrameReceive p b fcsOk) s = .next s) ∧
      (c.ethBit p.val 31 = true → (fcsOk = false ∨ b.length < 60 ∨ 1518 < b.length) →
        now (.ethFrameReceive p b fcsOk) (c.addSat (ethCnt p.val 1) 31 0 1)) ∧
      (c.ethBit p.val 31 = true → fcsOk = true → 60 ≤ b.length → b.length ≤ 1518 →
        c.regF (ethRl p.val (2 * (c.classify p.val b).cls)) 31 12 = 0 →
        ((c.classify p.val b).forward = false ∨ c.ethBit p.val 28 = false) →
        ((c.classify p.val b).act = .deliver →
          now (.ethFrameReceive p b fcsOk) ((c.addSat (ethCnt p.val 0) 31 0 1).deliver p.val (c.classify p.val b).cls b)) ∧
        ((c.classify p.val b).act = .drop →
          now (.ethFrameReceive p b fcsOk) ((c.addSat (ethCnt p.val 0) 31 0 1).addSat (ethCnt p.val 2) 31 0 1)) ∧
        ((c.classify p.val b).act = .command →
          now (.ethFrameReceive p b fcsOk) ((c.addSat (ethCnt p.val 0) 31 0 1).modEth fun e =>
            { e with cmds := e.cmds ++ [{ port := p.val, frame := b, data := udpData b }] })))) ∧
    (∀ (f : KppFrame) (rest : List KppFrame), c.eth.cmds = f :: rest → c.eth.ready = none →
      let b := f.data
      let len := leAt b 0x10 4
      let key := leAt b 5 1
      let keyBytes := ((List.range 8).map fun w => toBytes 4 (c.reg (ethKey key w)).toNat).flatten
      (leAt b 0 4 ≠ 0x3150504B → now .kppCommand (c.modEth fun e => { e with cmds := rest })) ∧
      (leAt b 0 4 = 0x3150504B → leAt b 4 1 = 1 → (b.drop 0x14).take 12 = List.replicate 12 0 → len ≤ 1040 → len % 4 = 0 →
        b.length = 48 + len → key ≤ 3 → c.regB (ethKey key 8) 31 = true →
        ((hmacSha256 keyBytes (b.take (32 + len))).take 16 ≠ b.drop (32 + len) → now .kppCommand
          ((((c.modEth fun e => { e with cmds := rest }).addSat (ethCnt f.port 7) 31 0 1).setB 0x900000 5 true).fire 188)) ∧
        ((hmacSha256 keyBytes (b.take (32 + len))).take 16 = b.drop (32 + len) →
          (leAt b 8 8 ≤ c.pair (ethKey key 9) → now .kppCommand
            (((c.modEth fun e => { e with cmds := rest }).addSat (ethCnt f.port 8) 31 0 1).setB 0x900000 4 true)) ∧
          (c.pair (ethKey key 9) < leAt b 8 8 → (f.op = 1 ∨ f.op = 2 ∨ f.op = 3) → now .kppCommand
            (((c.modEth fun e => { e with cmds := rest }).setPair (ethKey key 9) (leAt b 8 8)).modEth fun e =>
              { e with ready := some f }))))) ∧
    (∀ f : KppFrame, c.eth.ready = some f →
      (f.op = 1 → kppRange f.addr f.count = true → inCell f.addr f.count = true →
        (∀ l, l ∈ linesOf f.addr f.count → c.lineGood (64 * l)) →
        now .kppRead (c.kppStatus f 0 (c.loadBytes f.addr f.count))) ∧
      (f.op = 1 → kppRange f.addr f.count = false → now .kppRead (c.kppStatus f 1 [])) ∧
      (f.op = 2 → kppRange f.addr f.count = true → f.pay.length = 16 + f.count →
        (let r := c.watch fun c => c.kppWords f.addr (wordsOf (f.pay.drop 16))
         exec .kppWrite s = .next ((s.withChip (r.1.kppStatus f
           (if r.2 || c.kppQuiet f.addr (wordsOf (f.pay.drop 16)) then 3 else 0) [])).settle .pass))) ∧
      (f.op = 3 → leAt f.pay 0 4 < 16 → now .kppDoorbell ((c.fire (16 + leAt f.pay 0 4)).kppStatus f 0 [])) ∧
      (f.op = 3 → 16 ≤ leAt f.pay 0 4 → now .kppDoorbell (c.kppStatus f 1 []))) ∧
    (c.ethBit p.val 31 = true → c.ringOwned p.val 14 = true → tabGet (fun _ => none) c.eth.fly p.val = none → c.egrQueue p.val = [] →
      let d := c.ringDesc p.val 14
      let a := c.ringEntry p.val 14 (c.ringHead p.val 14)
      let ctrl := leAt d 0x0A 2
      let stamp := c.egressStamp p.val (ctrl / 2 ^ 9 % 8)
      let data := leAt d 0 8 % 2 ^ 40
      let len := leAt d 8 2
      c.linesGood a 32 = true →
      (60 ≤ len → len ≤ 1518 → ctrl / 2 ^ 9 % 8 ≤ 5 → c.linesGood data len = true → now (.ethTransmit p)
        (let b := oneStep (c.engineBytes data len) ctrl stamp (tsValue (d.drop 0x10))
         (if ctrl.testBit 12 then c.ringStore (a + 0x10) (tsBytes stamp) else c).modEth fun e => { e with
          fly := tabPut (fun _ => none) e.fly p.val (some b) })) ∧
      ((len < 60 ∨ 1518 < len) → now (.ethTransmit p)
        (((c.ringStore (a + 0x0A) (toBytes 2 (ctrl % 2 ^ 15))).ringNext p.val 14).addSat (ethCnt p.val 4) 31 0 1))) ∧
    (∀ b, tabGet (fun _ => none) c.eth.fly p.val = some b → now (.ethTxComplete p)
      (((((c.ringStore (c.ringEntry p.val 14 (c.ringHead p.val 14) + 0x0A)
        (toBytes 2 (leAt (c.ringDesc p.val 14) 0x0A 2 % 2 ^ 15))).ringNext p.val 14).modEth fun e => { e with
          fly := tabPut (fun _ => none) e.fly p.val none, sent := tabPut (fun _ => []) e.sent p.val b }).addSat (ethCnt p.val 3) 31 0 1).fire 186)) ∧
    (∀ f : EgrFrame, c.egrQueue p.val = [f] → tabGet (fun _ => none) c.eth.fly p.val = none → c.ringOwned p.val 14 = false →
      (f.fix = none → now (.forwardedFrameEgress p)
        (((c.setEgr p.val []).sentFrame p.val f.bytes).addSat (ethCnt p.val 3) 31 0 1)) ∧
      (∀ base stamp extra, f.fix = some (base, stamp, extra) → now (.forwardedFrameEgress p)
        (((c.setEgr p.val []).sentFrame p.val (addCorrection f.bytes (c.egressStamp p.val base - stamp + extra))).addSat
          (ethCnt p.val 3) 31 0 1))) ∧
    (∀ up : Bool, c.ethBit p.val 22 ≠ up →
      now (.ethLinkChange p up) (((c.setB (ethPort p.val 0) 22 up).setB 0x900000 6 true).fire 190)) ∧
    (∀ (k : Fin 4) (w : Fin 8) (v : W32),
      (m.val = 40 → c.regB (ethKey k.val 8) 31 = false →
        now (.ethKeyWrite m k (w.castLE (by decide)) v) (c.setReg (ethKey k.val w.val) v)) ∧
      (m.val = 40 → c.regB (ethKey k.val 8) 31 = true →
        now (.ethKeyWrite m k (w.castLE (by decide)) v) (c.setB 0x900000 1 true)) ∧
      (m.val ≠ 40 → now (.ethKeyWrite m k (w.castLE (by decide)) v) (c.logAccess m.val 5 (regBase + ethKey k.val w.val)))) ∧
    (∀ (w : Fin 3) (v : W32),
      (c.ethBit p.val 31 = false →
        now (.ethPortWrite m p ⟨w.val + 1, by omega⟩ v) (c.mapWrite (ethPort p.val (w.val + 1)) v)) ∧
      (c.ethBit p.val 31 = true → now (.ethPortWrite m p ⟨w.val + 1, by omega⟩ v) (c.setB 0x900000 1 true)))

/-! ## General inputs and outputs (R397 to R410) -/

/-- R397, R399, R401, R405, R406, R408, R410: the levels, the image, the trips and the supply of the general pins.
It rests on the model's choices and deductions of log entry 84. -/
def Obligations.DigitalIoCommands : Prop :=
  ∀ (s : State) (m : Master), s.chip.quiet = true →
    let c := s.chip
    let now := fun (i : Instr) (d : Chip) => exec i s = .next (s.withChip d)
    (∀ (n : Fin 32) (x : PinEdge),
      (c.dio.power = false → exec (.dioDebouncedEdge n x) s = .next s) ∧
      (c.dio.power = true → (x.held = false ∨ bit c.dio.deb n.val = x.level) →
        now (.dioDebouncedEdge n x) (c.setB 0xD00028 n.val x.level)) ∧
      (c.dio.power = true → x.held = true → bit c.dio.deb n.val ≠ x.level → ∃ t, exec (.dioDebouncedEdge n x) s = .next t ∧
        t.chip.dio = { c.dio with deb := setBit c.dio.deb n.val x.level } ∧ t.chip.reg 0xD00028 = setBit (c.reg 0xD00028) n.val x.level ∧
        t.husk = s.husk ∧ t.core = s.core)) ∧
    (∀ v : W32,
      now (.dioOutWrite m v) (c.mapWrite 0xD00018 v) ∧
      now (.dioOsetWrite m v) (c.setReg 0xD00018 (c.reg 0xD00018 ||| v)) ∧
      now (.dioOrstWrite m v) (c.setReg 0xD00018 (c.reg 0xD00018 &&& ~~~ v)) ∧
      (∀ cool : Bool, bit v 0 = true → now (.dioClr m v cool) (c.modDio fun d => { d with clr := some (some cool) })) ∧
      (∀ cool : Bool, bit v 0 = false → exec (.dioClr m v cool) s = .next s) ∧
      (∀ n : Fin 32, now (.dioDebWrite m n v) (c.mapWrite (0xD00100 + 4 * n.val) v))) ∧
    (∀ n : Fin 32,
      let d := c.modDio fun d => { d with trip := d.trip ||| c.gangMask n.val }
      (c.regB 0xD00000 2 = true → now (.dioOvercurrent n) d ∧ now (.dioOvertemperature n) d) ∧
      (c.regB 0xD00000 2 = false → now (.dioOvercurrent n) ((d.setB 0xD00000 2 true).fire 462) ∧
        now (.dioOvertemperature n) ((d.setB 0xD00000 2 true).fire 462))) ∧
    (∃ t, exec .fieldUndervoltage s = .next t ∧ t.chip.dio.good = false ∧
      (c.dio.everGood = true → t.chip.dio.trip = BitVec.allOnes 32) ∧ (c.dio.everGood = false → t.chip.dio.trip = c.dio.trip) ∧
      t.husk = s.husk ∧ t.core = s.core) ∧
    (c.regB 0xD00000 4 = false → now .fieldGood (c.modDio fun d => { d with good := true, everGood := true })) ∧
    now (.fieldWarnCrossing .above192) (((c.setB 0xD00000 4 false).setB 0xD00000 5 false).fire 463) ∧
    now (.fieldWarnCrossing .below192) ((c.setB 0xD00000 4 true).fire 463) ∧
    now (.fieldWarnCrossing .above16) (c.setB 0xD00000 5 false) ∧
    (let low := (c.setB 0xD00000 5 true).setB 0xD00000 4 true
     now (.fieldWarnCrossing .below16) (if c.regB 0xD00000 4 then low else low.fire 463)) ∧
    (∀ d : Chip, d.dio.clr = some (some false) → d.dioClear = d.modDio fun x => { x with clr := none }) ∧
    (∀ d : Chip, d.dio.clr = some (some true) → d.regB 0xD00000 4 = false →
      d.dioClear = (d.modDio fun x => { x with clr := none, trip := 0 }).setB 0xD00000 2 false) ∧
    now .dioLinkTimeout (c.modDio fun d => { d with link := false, frame := none })

/-! ## Memory integrity (R420 to R432) -/

/-- R414, R419, R421, R423 to R427, R430, R432: corrections, the scrubber, reloads, rebuilt regions and the configuration of the unit.
It rests on the model's choices and deductions of log entries 87 and 88. -/
def Obligations.MemoryIntegrityCommands : Prop :=
  ∀ (s : State) (m : Master), s.chip.quiet = true →
    let c := s.chip
    let now := fun (i : Instr) (d : Chip) => exec i s = .next (s.withChip d)
    (∀ (l : BitVec 34), c.mem.handling.contains l.toNat = true →
      let held := c.mem.held.filter fun h => h.line == l.toNat
      let d := { c with mem := { c.mem with
        handling := c.mem.handling.filter (· != l.toNat), held := c.mem.held.filter fun h => h.line != l.toNat } }
      let back := fun (b : List Byte) => forL held (fun h d => d.storePart h.master h.addr h.bytes)
        (((d.setBytes (64 * l.toNat) b).logCorrection l.toNat).memCorr)
      (∀ a, c.backing (64 * l.toNat) = .backed (.flash a) → now (.lineCorrectionDone l) (back (c.flashBytes a 64))) ∧
      (∀ a, c.backing (64 * l.toNat) = .backed (.dram a) → c.mem.handling.contains (a / 64) = false →
        now (.lineCorrectionDone l) (back (c.bytesAt a 64))) ∧
      (∀ a, c.backing (64 * l.toNat) = .backed (.dram a) → c.mem.handling.contains (a / 64) = true →
        now (.lineCorrectionDone l) ((c.writeBack (a / 64)).writeBack l.toNat))) ∧
    (∀ a, spaceOf a = .cell ∨ spaceOf a = .dram →
      let d := c.storeParityFail a
      d.cells = c.cells ∧ (d.line (a / 64)).poisoned = true ∧ d.regB 0xA00000 3 = true ∧ d.stf = true) ∧
    (c.lineGood (scrubAddr c.mem.scrubAt) →
      (scrubLast c.mem.scrubAt = false →
        now (.scrubLine .pass) { c with mem := { c.mem with scrubAt := c.mem.scrubAt + 1 } }) ∧
      (scrubLast c.mem.scrubAt = true →
        now (.scrubLine .pass) (({ c with mem := { c.mem with scrubAt := 0, scrubPer := c.regF 0xA00004 31 16 } } : Chip).fire 421))) ∧
    (∀ g, let l := scrubAddr c.mem.scrubAt / 64
      c.mem.handling.contains l = false → (c.line l).poisoned = false → (c.line l).pending = false → (c.line l).refetch = true →
      c.backing (scrubAddr c.mem.scrubAt) = .backed g → c.sourceOk g .good = true → scrubLast c.mem.scrubAt = false →
      let d := c.setBytes (64 * l) (c.goldenBytes g)
      now (.scrubLine .pass) { d with mem := { d.mem with scrubAt := c.mem.scrubAt + 1 } }) ∧
    (∀ v : W32, c.regB (memReg (fld v 5 0) 0) 31 = true →
      (c.regionKind (fld v 5 0) = 1 → now (.memReload m v) (c.setB (memReg (fld v 5 0) 6) 30 true)) ∧
      now (.memZeroFill m v) (c.setB (memReg (fld v 5 0) 6) 30 true)) ∧
    (∀ x : ReloadEnd, c.regB (memReg x.r.val 6) 30 = true → (∀ l, l ∈ c.mem.handling → c.regionHas x.r.val (64 * l) = false) →
      now (.reloadDone x) ((forL
        (if c.regionKind x.r.val = 1 then c.regionLines x.r.val else c.linesIn x.r.val fun y => y.poisoned)
        (fun l c => c.reloadLine l (((x.srcs.find? fun y => y.1.toNat == l).map (·.2)).getD .good)) c).setB (memReg x.r.val 6) 30 false)) ∧
    (∀ l : Nat,
      (∀ a, c.backing (64 * l) = .backed (.flash a) →
        c.reloadLine l .good = ((c.setBytes (64 * l) (c.flashBytes a 64)).logDrop l).setLine l { c.line l with poisoned := false } ∧
        ∀ b, c.reloadLine l (.bad b) = (c.poisonLine l).memUncorr 6 3 0 (64 * l)) ∧
      ((∀ g, c.backing (64 * l) ≠ .backed g) → (c.line l).poisoned = true →
        c.reloadLine l .good = ((c.setBytes (64 * l) (List.replicate 64 0)).logDrop l).setLine l Line.good)) ∧
    (∀ (v : W32) (bad : List (BitVec 34)),
      let waits := fun (x : Line) => x.pending || (x.poisoned && c.regionKind (fld v 5 0) == 2)
      (c.linesIn (fld v 5 0) waits = [] → exec (.memRebuilt m v bad) s = .next s) ∧
      (∀ l, c.linesIn (fld v 5 0) waits = [l] →
        let good := c.setLine l { c.line l with pending := false, poisoned := false }
        (l ∉ bad.map (fun b => b.toNat) → (c.line l).pending = true → now (.memRebuilt m v bad) ((good.logCorrection l).memCorr)) ∧
        (l ∉ bad.map (fun b => b.toNat) → (c.line l).pending = false → now (.memRebuilt m v bad) good) ∧
        (l ∈ bad.map (fun b => b.toNat) → (c.line l).pending = true →
          now (.memRebuilt m v bad) { c.poisonLine l with stf := true }) ∧
        (l ∈ bad.map (fun b => b.toNat) → (c.line l).pending = false → exec (.memRebuilt m v bad) s = .next s))) ∧
    (∀ (l : BitVec 34) e, (c.mem.log.find? fun e => e.line == l.toNat) = some e →
      e.first + c.regF 0xA00004 7 0 * 3600000000000 ≤ c.tb3 → now (.correctionLogExpiry l)
        { c with mem := { c.mem with log := c.mem.log.filter fun e => e.line != l.toNat } }) ∧
    (∀ v : W32,
      (1 ≤ fld v 31 16 → fld v 31 16 ≤ 3600 → fld v 7 0 ≠ 0 →
        now (.memCfgWrite m v) ((c.setF 0xA00004 31 16 (fld v 31 16)).setF 0xA00004 7 0 (fld v 7 0))) ∧
      ((fld v 31 16 = 0 ∨ 3600 < fld v 31 16) → fld v 7 0 = 0 → now (.memCfgWrite m v) (c.setB 0xA00000 0 true)))

/-! ## Health (R433 to R447) -/

/-- R433, R435, R438 to R443, R445: the evaluation of slack, the critical reaction, sensors, links, supplies and the shed
command.
It rests on the model's choices and deductions of log entries 85 and 86. -/
def Obligations.HealthCommands : Prop :=
  ∀ (s : State) (m : Master), s.chip.quiet = true →
    let c := s.chip
    let now := fun (i : Instr) (d : Chip) => exec i s = .next (s.withChip d)
    (∀ w : BitVec 128, ∃ t, exec (.healthEvaluation w) s = .next t ∧ t.husk = s.husk ∧ t.core = s.core ∧
      (let sl := (List.range 8).map fun i => signed 16 (reading w.toNat i)
       let smin := sl.foldl min (signed 16 (reading w.toNat 0))
       t.chip.hlt.s4 = slackAt smin c.podStep 4 ∧
       (smin < c.slackCrit → t.chip.allFault = true ∧ t.chip.wantDegraded = true ∧ t.chip.hlt.crit = true))) ∧
    (c.critCause = false → exec .criticalReaction s = .next s) ∧
    (c.critCause = true → c.paired = false → now .criticalReaction
      { (((c.fire 435).setB 0xB00000 7 true).modHlt fun h => { h with crit := true }) with allFault := true, wantDegraded := true }) ∧
    (∀ (w : BitVec 256) (i : Fin 16), ∃ t, exec (.temperatureSample w) s = .next t ∧
      t.chip.reg (0xB00300 + 4 * i.val) = BitVec.ofNat 32 (reading w.toNat i.val)) ∧
    (∀ w : BitVec 384, now (.ageingSample w)
      (forN 24 (fun i c => c.setReg (0xB00100 + 4 * i) (BitVec.ofNat 32 (reading w.toNat i))) c)) ∧
    (∀ x, c.hlt.hourMin = some x → now .ttlUpdate
      (((c.modHlt fun h => { h with minima := (x :: h.minima).take 1024, hourMin := none }).setTtl).fire 444)) ∧
    (∀ ms : BitVec 16, now (.dramRetentionMeasure ms) ((c.setF 0xB00040 31 16 ms.toNat).modHlt fun h =>
      { h with refx := if refreshOf ms.toNat = c.regF 0xB00040 1 0 then none else some (refreshOf ms.toNat) })) ∧
    (∀ r, c.hlt.refx = some r → c.ticking = true → c.tick % c.ringCycle = 0 → now .dramRefreshChange
      ((((c.setF 0xB00040 1 0 r).derate).modHlt fun h => { h with refx := none }).fire 442)) ∧
    (∀ (p : Fin 37) (h w : BitVec 16), c.regF 0xB00044 31 16 ≤ h.toNat → c.regF 0xB00044 15 0 ≤ w.toNat →
      now (.eyeMeasure p h w) (c.setReg (0xB00600 + 4 * p.val) (BitVec.ofNat 32 (h.toNat * 65536 + w.toNat)))) ∧
    (∀ (p : Fin 37) (h w : BitVec 16), (h.toNat < c.regF 0xB00044 31 16 ∨ w.toNat < c.regF 0xB00044 15 0) →
      now (.eyeMeasure p h w) (((c.setReg (0xB00600 + 4 * p.val) (BitVec.ofNat 32 (h.toNat * 65536 + w.toNat))).setB 0xB00000 1 true).fire 441)) ∧
    (∀ (k : Fin 40) (r : BitVec 16), ∃ t, exec (.ronMeasure k r) s = .next t ∧ t.chip.regF (0xB00500 + 4 * k.val) 15 0 = r.toNat ∧
      t.chip.regF (0xB00500 + 4 * k.val) 31 16 = c.regF (0xB00500 + 4 * k.val) 31 16 ∧
      (c.regF (0xB00500 + 4 * k.val) 31 16 < r.toNat → t.chip.regB 0xB00000 2 = true)) ∧
    (∀ x : RailFall,
      (10 * x.mv.toNat < railWarn x.r.val → now (.supplyDipStart x) (c.modHlt fun h =>
        { h with inhibit := true, dipping := if h.dipping.contains x.r.val then h.dipping else x.r.val :: h.dipping })) ∧
      (railWarn x.r.val ≤ 10 * x.mv.toNat → exec (.supplyDipStart x) s = .next s)) ∧
    (∀ (r : Fin 8) (dur : W32) (vmin : BitVec 16),
      (c.hlt.dipping.contains r.val = false → exec (.supplyDip r dur vmin) s = .next s) ∧
      (c.hlt.dipping.contains r.val = true → ∃ t, exec (.supplyDip r dur vmin) s = .next t ∧ t.husk = s.husk ∧ t.core = s.core ∧
        t.chip.hlt.dipping = c.hlt.dipping.filter (· != r.val) ∧ t.chip.hlt.dipEnd = c.tb3 ∧
        (railOff r.val < 10 * vmin.toNat → 10 * vmin.toNat < railWarn r.val →
          t.chip.reg 0xB00030 = BitVec.ofNat 32 (r.val * 2 ^ 28 + satN 65535 dur.toNat) ∧
          t.chip.reg 0xB00034 = BitVec.ofNat 32 vmin.toNat ∧ t.chip.regB 0xB00000 4 = true) ∧
        (10 * vmin.toNat ≤ railOff r.val → t.chip.regs = c.regs))) ∧
    ((c.hlt.inhibit = false ∨ c.hlt.dipping ≠ [] ∨ c.tb3 < c.hlt.dipEnd + 1000000) → exec .nvInhibitEnd s = .next s) ∧
    (c.hlt.inhibit = true → c.hlt.dipping = [] → c.hlt.dipEnd + 1000000 ≤ c.tb3 → now .nvInhibitEnd
      (forL c.hlt.nvWait (fun e c => c.confProgram e.1 e.2) (c.modHlt fun h => { h with inhibit := false, nvWait := [] }))) ∧
    (∀ v : W32,
      (c.pair 0xB00024 % 16 = 0 → c.notStarted (c.pair 0xB00024) = true →
        now (.hltShedCmd m v) (c.modHlt fun h => { h with shed := h.shed ++ [(fld v 3 0, c.pair 0xB00024)] })) ∧
      ((c.pair 0xB00024 % 16 ≠ 0 ∨ c.notStarted (c.pair 0xB00024) = false) → now (.hltShedCmd m v) (c.setB 0xB00000 0 true)))

/-! ## Resets and BOOT (R441, R450, R454, R462, R488, R489) -/

/-- R441, R454, R456, R459, R462, R488, R489: every reset of Corukan leaves the Husk but for a set that awaits confirmation, the flash and
the Husk die's part of the digital I/O as they are and everything else but what a warm reset keeps in DRAM as after reset; the safety core stops, and an internal fault of it lasts
until a power-on. A reset by a register follows the write. BOOT begins with the straps; without trained memory it ends in SAFE.
It rests on the model's choices and deductions of log entries 11, 68, 70, 71, 72 and 84. -/
def Obligations.ResetsAndBoot : Prop :=
  ∀ (s : State) (m : Master), s.chip.quiet = true →
    let resets := fun (i : Instr) (cause : Nat) (held : Bool) => ∃ t : State, exec i s = .next t ∧
      t.husk = { s.husk with pend := [], confirm := false } ∧ t.pending = s.pending ∧ t.chip.flash = s.chip.flash ∧
      t.chip.dio = { s.chip.dio with frame := none, clr := none, link := false } ∧ t.chip.orderHeld = held ∧
      t.chip.modState = .reset ∧ t.chip.tick = 0 ∧ t.chip.ticking = false ∧ t.chip.ticked = false ∧ t.chip.pods = [] ∧
      t.chip.sched = Sched.reset ∧ t.chip.tim = TimeUnit.reset ∧ t.chip.regF 0x214 31 28 = cause ∧
      (∀ off, (off < 0xD00000 ∨ 0xE00000 ≤ off) → off ≠ 0x214 → t.chip.reg off = regReset off) ∧
      (∀ a, t.chip.byteAt a = if cause = 5 ∧ dramBase ≤ a then s.chip.byteAt a else 0) ∧
      t.core = { SafetyCore.reset with fault := s.core.fault && cause != 1 }
    resets .powerOnReset 1 false ∧ resets .pinReset 2 s.chip.orderHeld ∧ resets .railReset 3 s.chip.orderHeld ∧
    (s.chip.modState ≠ .reset → resets .xrefLoss 2 s.chip.orderHeld) ∧ (s.chip.modState = .reset → exec .xrefLoss s = .next s) ∧
    resets .railOrderViolation 3 true ∧
    (∀ v : W32, fld v 15 8 = 0x5A →
      resets (.fullReset m v) 4 s.chip.orderHeld ∧ resets (.warmReset m v) 5 s.chip.orderHeld) ∧
    (∀ (straps : BitVec 6) (fwOk : Bool), s.chip.modState = .reset → s.chip.orderHeld = false →
      let c := (s.chip.setReg 0x200 (straps.zeroExtend 32)).setModState .boot
      exec (.boot straps false fwOk) s = .next (s.withChip ((c.setF 0x214 11 8 1).enterSafe)) ∧
      (s.husk.internal = true → s.husk.supply = true →
        exec (.boot straps true fwOk) s = .next (s.withChip c.enterSafe)) ∧
      (s.husk.internal = false ∨ s.husk.supply = false →
        (c.regF 0x200 5 4 = 1 → c.directory = none →
          exec (.boot straps true fwOk) s = .next (s.withChip ((c.setF 0x214 11 8 2).enterSafe))) ∧
        (c.regF 0x200 5 4 ≥ 2 → exec (.boot straps true fwOk) s = .next (s.withChip c)) ∧
        (c.regF 0x200 5 4 < 2 → exec (.boot straps true fwOk) s = .next (((s.withChip c).bootRun fwOk).settle .pass)))) ∧
    (∀ (straps : BitVec 6) (trained fwOk : Bool), s.chip.modState = .reset → s.chip.orderHeld = true →
      exec (.boot straps trained fwOk) s = .next s) ∧
    (∀ (v : W32) (fwOk : Bool), s.chip.modState = .boot → s.chip.regF 0x200 5 4 = 2 →
      exec (.sysBootCtrlGo m v fwOk) s = .next (((s.withChip { s.chip with bootGo := true }).bootRun fwOk).settle .pass))

/-! ## Module states, watchdog, snapshots (R21, R34, R345, R456 to R461, R463 to R466) -/

/-- R21, R34, R345, R457 to R461, R463, R464: the requests for module states with their refusals, the entries, AUTORUN, the host
watchdog, snapshots and the tick registers.
It rests on the model's choices and deductions of log entries 73, 74, 75, 76 and 80. -/
def Obligations.ModuleStateCommands : Prop :=
  ∀ (s : State) (m : Master), s.chip.quiet = true →
    let c := s.chip
    let now := fun (i : Instr) (d : Chip) => exec i s = .next (s.withChip d)
    ((c.modState = .standby ∨ c.modState = .run ∨ c.modState = .degraded) → c.cfgFrom = none →
      now (.stateRequestConfig m) { c with allFault := true, cfgFrom := some c.tb3 }) ∧
    (¬(c.modState = .standby ∨ c.modState = .run ∨ c.modState = .degraded) →
      now (.stateRequestConfig m) (c.setF 0x204 11 8 0xF)) ∧
    (c.modState ≠ .config → now (.stateRequestSync m) (c.setF 0x204 11 8 0xF)) ∧
    (c.modState = .config → ∀ d,
      (∀ n, firstFail leaveChecks c.startStep = (d, some n) → exec (.stateRequestSync m) s =
        .next ((s.withChip ((d.setF 0x110 11 8 c.podStep).setF 0x204 11 8 n)).settle .pass)) ∧
      (firstFail leaveChecks c.startStep = (d, none) → ((d.setModState .sync).strStart).ringEn = false →
        (let e := (d.setModState .sync).strStart
         exec (.stateRequestSync m) s = .next ((s.withChip { e with
           nextTick := some (if e.ticked then e.tick + 1 else 0), ticking := true }).settle .pass)))) ∧
    (c.modState = .standby → c.cfgFrom = none → (c.paired = false ∨ c.regB 0x700020 28 = false) →
      c.pair 0x20C % c.ringCycle = 0 → c.notStarted (c.pair 0x20C) = true →
      now (.stateRequestRun m) { c with wantRun := some (c.pair 0x20C) }) ∧
    (c.modState = .standby → c.cfgFrom = none → (c.paired = false ∨ c.regB 0x700020 28 = false) →
      (c.pair 0x20C % c.ringCycle ≠ 0 ∨ c.notStarted (c.pair 0x20C) = false) → now (.stateRequestRun m) (c.setF 0x204 11 8 0xF)) ∧
    (c.ticking = true → c.wantRun = some c.tick → (c.modState = .standby ∨ c.modState = .degraded ∧ c.faultHeld = false) →
      c.paired = false → now .runEntry { (c.setModState .run) with wantRun := none }) ∧
    (∀ t, c.cfgFrom = some t → c.ticking = true → t + 200000000 ≤ c.tb3 → c.wantSafe = false → c.wantDegraded = false →
      ∃ u, exec .configEntry s = .next u ∧ u.chip.modState = .config ∧ u.chip.ticking = false ∧ u.chip.cfgFrom = none ∧
        u.chip.allFault = false ∧ u.husk = s.husk ∧ u.core = s.core) ∧
    (c.modState = .sync → c.ticking = true → (c.ringEn = false ∨ c.rstate = rsActive) →
      now .standbyEntry { (c.setModState .standby) with standbyAt := some (c.nextTick.getD c.tick) }) ∧
    (∀ t, c.standbyAt = some t → c.autorun = 2 → c.modState = .standby → c.ticking = true → t + 64 ≤ c.tick → c.paired = false →
      c.cfgFrom = none → 0 < c.ringCycle → c.ticked = true → now .autorunRunRequest
        { c with standbyAt := none, wantRun := some ((c.tick + 2 + c.ringCycle - 1) / c.ringCycle * c.ringCycle) }) ∧
    (∀ t, c.wdFrom = some t → t + c.regF 0x220 15 0 * 1000000 ≤ c.tb3 →
      ((c.regB 0x220 30 = false ∨ c.modState = .safe) → now .hostWatchdogExpiry { (c.setB 0x220 31 true) with wdFrom := none }) ∧
      (c.regB 0x220 30 = true → c.modState ≠ .safe → now .hostWatchdogExpiry
        { (c.setB 0x220 31 true) with wdFrom := none, allFault := true, wantDegraded := true })) ∧
    (∀ v : W32, c.regF 0x220 15 0 ≠ 0 → now (.sysHostwdKick m v) { c with wdFrom := some c.tb3 }) ∧
    (∀ v : W32, c.regB 0x244 0 = false → c.snapPlaced (c.pair 0x230 % 2 ^ 40) = true →
      (bit v 1 = true → c.notStarted (c.pair 0x23C) = true → now (.snapshotRequest m v)
        { (c.setF 0x244 1 0 1) with snapAt := some (c.pair 0x23C), snapTo := c.pair 0x230 % 2 ^ 40 }) ∧
      (bit v 1 = true → c.notStarted (c.pair 0x23C) = false → now (.snapshotRequest m v) (c.setB 0x244 2 true))) ∧
    (c.snapImg ≠ [] → now .snapshotDone (({ (((c.putBytes c.snapTo c.snapImg).setReg 0x248 (BitVec.ofNat 32 c.snapImg.length)).setF
      0x244 1 0 2) with snapImg := [] } : Chip).fire 8)) ∧
    (∀ v : W32,
      (c.inConfig = true →
        (512 ≤ fld v 13 0 → fld v 13 0 ≤ 16000 → now (.tickRegPeriodWrite m v) (c.setF 0x100 13 0 (fld v 13 0))) ∧
        ((fld v 13 0 < 512 ∨ 16000 < fld v 13 0) → now (.tickRegPeriodWrite m v) (c.setB 0x110 0 true)) ∧
        now (.tickRegUlWrite m v) (c.mapWrite 0x104 v) ∧ now (.tickRegDlWrite m v) (c.mapWrite 0x108 v) ∧
        (1 ≤ fld v 28 16 → fld v 28 16 ≤ 4096 → 1 ≤ fld v 6 0 → fld v 6 0 ≤ 64 → now (.tickRegTierWrite m v)
          ((c.setF 0x10C 28 16 (fld v 28 16)).setF 0x10C 6 0 (fld v 6 0)))) ∧
      (c.inConfig = false → now (.tickRegPeriodWrite m v) (c.setB 0x110 1 true) ∧ now (.tickRegUlWrite m v) (c.setB 0x110 1 true) ∧
        now (.tickRegDlWrite m v) (c.setB 0x110 1 true) ∧ now (.tickRegTierWrite m v) (c.setB 0x110 1 true)))

/-! ## Register accesses and the host interface (R3, R470 to R484) -/

/-- R482: a write of D to HST_DOORBELL, and a DOORBELL operation of the plant port with D from 0 to 15, fire event 16 + D; the
operation is answered with status 0. -/
def Obligations.DoorbellFires : Prop :=
  ∀ s : State, s.chip.quiet = true →
    (∀ (m : Master) (v : W32), exec (.hstDoorbell m v) s = .next (s.withChip (s.chip.fire (16 + fld v 3 0)))) ∧
    (∀ f : KppFrame, s.chip.eth.ready = some f → f.op = 3 → leAt f.pay 0 4 < 16 →
      exec .kppDoorbell s = .next (s.withChip ((s.chip.fire (16 + leAt f.pay 0 4)).kppStatus f 0 [])))

/-- R3, R470, R471, R474, R477 to R484: register writes with what is logged, the memory window, doorbells, commits, MSI-X messages, the DMA
channels and a hot reset.
It rests on the model's choices and deductions of log entries 16, 17, 18 and 78. -/
def Obligations.HostCommands : Prop :=
  ∀ (s : State) (m : Master), s.chip.quiet = true →
    let c := s.chip
    let now := fun (i : Instr) (d : Chip) => exec i s = .next (s.withChip d)
    (∀ (off : BitVec 24) (v : W32),
      now (.registerWrite m off v false) (c.logAccess m.val 4 (regBase + off.toNat)) ∧
      (off.toNat % 4 ≠ 0 → now (.registerWrite m off v true) (c.logAccess m.val 4 (regBase + off.toNat))) ∧
      (off.toNat % 4 = 0 →
        (off.toNat / 0x100000 = 12 → now (.registerWrite m off v true) (c.logAccess m.val 5 (regBase + off.toNat))) ∧
        (off.toNat / 0x100000 ≠ 12 → (off.toNat < 0x900400 ∨ 0x900500 ≤ off.toNat) → regDesc off.toNat = none →
          now (.registerWrite m off v true) ((c.logAccess m.val 6 (regBase + off.toNat)).fire 9)) ∧
        (off.toNat / 0x100000 ≠ 12 → (off.toNat < 0x900400 ∨ 0x900500 ≤ off.toNat ∨ m.val = 40) →
          (regDesc off.toNat).isSome = true →
          (0x80011C ≤ off.toNat → off.toNat < 0x800128 → (32 ≤ m.val ∧ m.val ≤ 42)) →
          exec (.registerWrite m off v true) s = .next ((s.withChip (c.blockWrite off.toNat v)).settle .pass)) ∧
        (0x80011C ≤ off.toNat → off.toNat < 0x800128 → ¬(32 ≤ m.val ∧ m.val ≤ 42) →
          now (.registerWrite m off v true) (c.setB 0x800000 1 true)))) ∧
    (∀ (off : BitVec 24) (data : List Byte), off.toNat < 0x800000 → c.bootGo = false →
      (now (.bar2Access true off data []) (c.memStore 40 1 (cellBase + off.toNat) data).1) ∧
      (data ≠ [] → off.toNat + data.length ≤ 0x800000 → (∀ l, l ∈ linesOf (cellBase + off.toNat) data.length → c.lineGood (64 * l)) →
        exec (.bar2Access false off data []) s = .next s)) ∧
    (∀ v : W32, now (.hstDoorbell m v) (c.fire (16 + fld v 3 0))) ∧
    (∀ v : W32,
      let d := c.mapWrite (hst 0x24) (setBit v 31 true)
      (c.host.copying = none → now (.commitSubmit m v) { (d.setB (hst 0x24) 4 true) with host := { c.host with
        copying := some (d.pair (hst 0x10) % 2 ^ 40, d.regF (hst 0x18) 6 0, d.pair (hst 0x1C)) } }) ∧
      (c.host.copying ≠ none → now (.commitSubmit m v) ((d.setF (hst 0x24) 19 16 6).setB (hst 0x24) 0 true))) ∧
    (∀ (src n t : Nat), c.host.copying = some (src, n, t) → src % 16 = 0 → inCell src (16 * n) = true → 1 ≤ n → n ≤ 64 →
      (∀ l, l ∈ linesOf src (16 * n) → c.lineGood (64 * l)) →
      let d : Chip := { (c.setB (hst 0x24) 4 false) with host := { c.host with copying := none } }
      let es := d.commitEntries src n
      let running := c.modState = .sync ∨ c.modState = .standby ∨ c.modState = .run ∨ c.modState = .degraded
      let refused := fun (k : Nat) => now (.commitCopyDone []) ((d.setF (hst 0x24) 19 16 k).setB (hst 0x24) 0 true)
      (¬running → refused 7) ∧
      (running → (es.all fun e => commitAddrOk e.1) = false → refused 1) ∧
      (running → (es.all fun e => commitAddrOk e.1) = true →
        (c.notStarted t = false → refused 2) ∧
        (c.notStarted t = true → 4 ≤ c.host.commits.length → refused 3) ∧
        (c.notStarted t = true → c.host.commits = [] → now (.commitCopyDone [])
          { (d.setF (hst 0x24) 19 16 0) with host := { d.host with commits := [{ tick := t, entries := es }] } }))) ∧
    (∀ es, c.twin.joining = false → c.ticking = true → c.host.commits = [{ tick := c.tick, entries := es }] →
      (let d := (forL es (fun e c => Chip.commitOne c e)
         { c with host := { c.host with commits := [], applied := some c.tick } }).setB (hst 0x24) 2 true
       exec .commitApply s = .next ((s.withChip
         (if d.regB (hst 0x24) 30 then d.vecPend (d.regF (hst 0x24) 29 24) else d)).settle .pass))) ∧
    (∀ x : MsixSend,
      let k := x.vec.val
      let d : Chip := { c with host := { c.host with pci :=
        { x.pci with bar0 := x.pci.bar0 &&& ~~~ 0xFFFFFF#64, bar2 := x.pci.bar2 &&& ~~~ 0xFFFFFF#64 } } }
      (c.regB (hst 0x100 + 16 * k) 31 = true → c.regB (hst 0x8000C + 16 * k) 0 = false → x.pci.fnMask = false →
        tabGet (fun _ => none) c.host.lastMsg k = none → now (.msixMessage x)
        { ((d.setB (hst 0x100 + 16 * k) 31 false).addWrap (hst 0x100 + 16 * k + 4) 1) with host := { d.host with
          lastMsg := tabPut (fun _ => none) c.host.lastMsg k (some c.tb3) } }) ∧
      ((c.regB (hst 0x100 + 16 * k) 31 = false ∨ c.regB (hst 0x8000C + 16 * k) 0 = true ∨ x.pci.fnMask = true) →
        now (.msixMessage x) d)) ∧
    (∀ (ch : Fin 8) (v : W32),
      let d := c.mapWrite (dmaReg ch.val 0) (setBit v 31 true)
      (d.dmaBusy ch.val = false → d.dmaAligned ch.val = true →
        let job := (d.pair (dmaReg ch.val 3) % 2 ^ 40, (d.reg (dmaReg ch.val 5)).toNat, d.regB (dmaReg ch.val 0) 30)
        let e := { d with host := { d.host with dmaJob := tabPut (fun _ => (0, 0, false)) d.host.dmaJob ch.val job } }
        now (.dmaGo m ch v) ((e.setB (dmaReg ch.val 6) 31 true).setReg (dmaReg ch.val 9) 0)) ∧
      (d.dmaBusy ch.val = true → now (.dmaGo m ch v) d) ∧
      (c.dmaBusy ch.val = true → (c.reg (dmaReg ch.val 9)).toNat = (c.dmaMoves ch.val).2.1 →
        now (.dmaDone ch) (((c.setB (dmaReg ch.val 6) 31 false).setB (dmaReg ch.val 6) 30 true).dmaSignal ch.val))) ∧
    (∀ (n : Nat) (data : List Byte) (chks : List LineCheck), c.dmaTurn = some n →
      let left := (c.dmaMoves n).2.1 - (c.reg (dmaReg n 9)).toNat
      let d : Chip := { c with host := { c.host with dmaNext := (n + 1) % 8 } }
      exec (.dmaPiece data true chks) s = .next ((s.withChip (d.dmaLines n data chks (min 512 left / 64))).settle .pass) ∧
      exec (.dmaPiece data false chks) s = .next ((s.withChip
        (d.dmaHalt n 3 ((c.dmaMoves n).1 + (c.reg (dmaReg n 9)).toNat))).settle .pass)) ∧
    (∃ t, exec .pcieHotReset s = .next t ∧ (∀ a, t.chip.byteAt a = c.byteAt a) ∧ t.chip.pods = c.pods ∧ t.chip.tick = c.tick ∧
      t.chip.host.pci = PciSpace.reset ∧ t.chip.host.commits = c.host.commits ∧ t.chip.host.lastMsg = c.host.lastMsg ∧
      (∀ n : Fin 8, t.chip.dmaBusy n.val = false ∧ (c.dmaBusy n.val = true → t.chip.regF (dmaReg n.val 6) 27 24 = 3 ∧
        t.chip.reg (dmaReg n.val 7) = BitVec.ofNat 32 ((c.dmaMoves n.val).1 + (c.reg (dmaReg n.val 9)).toNat))) ∧ t.husk = s.husk ∧ t.core = s.core)

/-- R447, R473: the words whose fields a read clears, for every master but 44; a read of a LO word latches its HI word for that master, and
changes nothing else; the read of a rail also draws its measured voltage anew (log 86). A read of a capture's NS takes the oldest entry.
It rests on the model's choices and deductions of log entries 8 and 86. -/
def Obligations.ReadsClearAndLatch : Prop :=
  ∀ (s : State) (m : Master), m.val ≠ 44 →
    let c := s.chip
    let clears := fun (i : Instr) (off : Nat) (mask : W32) =>
      exec i s = .next (s.withChip (c.setReg off (c.reg off &&& ~~~ mask)))
    (∀ n : Fin 16, clears (.fbkLchQerrRead m n) (lchReg n.val 3) 0xFFFF0000#32) ∧
    (∀ g : Fin 64, clears (.lpeGrpCauseRead m g) (slotGrpReg g.val 1) 0x1F#32) ∧
    clears (.lpePeakRead m) 0x200004 0xFFFF#32 ∧
    (∀ g : Fin 32, clears (.prfGrpCauseRead m g) (prfGrp g.val 1) 0xFFFF#32) ∧
    (∀ n : Fin 32, clears (.strPstCntRead m n false) (pstReg n.val 3) 0xFFFFFFFF#32 ∧
      clears (.strPstCntRead m n true) (pstReg n.val 4) 0xFFFF0000#32) ∧
    clears (.sepPeakRead m) 0x500030 0xFFFFFFFF#32 ∧
    (∀ n : Fin 16, clears (.crnStaCntRead m n) (staReg n.val 3) 0xFFFFFFFF#32) ∧
    (∀ b : Fin 6, clears (.timTbCauseRead m b) (tbReg b.val 12) 0x1F#32) ∧
    (∀ (p : Fin 2) (w : Fin 9), clears (.ethCntRead m p (w.castLE (by decide))) (ethCnt p.val w.val) 0xFFFFFFFF#32) ∧
    clears (.memCntRead m) 0xA00020 0xFFFFFFFF#32 ∧
    (∀ r : Fin 8, let off := 0xB00400 + 4 * r.val
      exec (.hltRailVminRead m r) s = .next (s.withChip
        (let d := c.setReg off (c.reg off &&& 0xFFFF#32)
         { d with draws := c.draws + 1, hlt := { c.hlt with vmin := tabPut (fun _ => none) c.hlt.vmin r.val none } }))) ∧
    (∀ r : Nat, c.railMin r ≤ c.railNow r ∧ ∀ v, tabGet (fun _ => none) c.hlt.vmin r = some v → c.railMin r ≤ v) ∧
    clears (.sysAerrCntRead m) 0x28 0xFFFF#32 ∧
    (∀ (n : Fin 16) (e : CapEntry) (rest : List CapEntry), c.capFifo n.val = e :: rest →
      let sec := e.stamp / 2 ^ 16 / 1000000000
      exec (.timCpNsRead m n) s = .next (s.withChip (((c.setCapFifo n.val rest).setReg (cpReg n.val 3) (BitVec.ofNat 32 sec)).setReg
        (cpReg n.val 4) (BitVec.ofNat 32 (2 ^ 31 + e.level.toNat * 2 ^ 30 + sec / 2 ^ 32 % 2 ^ 16)))) ∧
      c.readValue m.val (cpReg n.val 2) = BitVec.ofNat 32 (e.stamp / 2 ^ 16 % 1000000000)) ∧
    (∀ n : Fin 64, exec (.loWordReadLatch m (BitVec.ofNat 24 (0x330000 + 16 * n.val))) s = .next (s.withChip
        (c.setHi m.val (0x330000 + 16 * n.val + 4) (some (c.readWord (0x330000 + 16 * n.val + 4)))))) ∧
    (∀ w : W32, c.hiOf m.val 0x11C = some w →
      c.readValue m.val 0x11C = w ∧ exec (.loWordReadLatch m 0x11C) s = .next (s.withChip (c.setHi m.val 0x11C none)))

/-! ## Reset (R79, R365, R454) -/

/-- R79 and the reset columns of the maps: right after reset no tick runs, TB3 stands at 0, every pod stands halted with zero in every
register, accumulator and special register and without a sprout, nothing waits in the queue, and the named words hold their stated values.
It rests on the model's choices and deductions of log entry 10. -/
def Obligations.StateAfterReset : Prop :=
  State.reset.pending = [] ∧ State.reset.chip.modState = .reset ∧ State.reset.chip.ticking = false ∧ State.reset.chip.tb3 = 0 ∧
  (∀ n, State.reset.chip.pod n = Pod.reset) ∧ (∀ r, Pod.reset.sget r = 0) ∧ (∀ r, Pod.reset.vget r = 0) ∧
  Pod.reset.acc = [] ∧ Pod.reset.ag = [] ∧ Pod.reset.levels = [] ∧ Pod.reset.slots = [] ∧ Pod.reset.state = .halted ∧
  (∀ k, Pod.reset.srGet k = 0) ∧
  (∀ k : Fin 256, State.reset.chip.reg (obsReg k.val 5) = 0x43960000#32) ∧
  (∀ k : Fin 128, State.reset.chip.reg (xfReg k.val 1) = 0x3FC00000#32) ∧
  (∀ k : Fin 256, State.reset.chip.reg (prfCh k.val 1) = 0x3F800000#32) ∧
  State.reset.chip.reg 0x500024 = 0x3FCCCCCC#32 ∧
  State.reset.husk.Safe ∧ State.reset.husk.stop = false ∧ State.reset.husk.lockPower = true ∧ State.reset.core.started = false
end

