-- ==== Sys2Proof/Laws/Frames.lean ====
section
/-!
SUPPORT. Frames: little-endian numbers read back, the CRC-32C fits its word, and a frame that a station forms is one that passes the
checks of reception.
-/
namespace Sys2Proof.Machine

theorem toBytes_length : ∀ n v : Nat, (toBytes n v).length = n
  | 0, _ => rfl
  | n + 1, v => by simp [toBytes, toBytes_length n]

/-- A number written in n bytes reads back. -/
theorem ofBytes_toBytes : ∀ n v : Nat, v < 256 ^ n → ofBytes (toBytes n v) = v
  | 0, v, h => by simp [toBytes, ofBytes] at *; omega
  | n + 1, v, h => by
    have : v / 256 < 256 ^ n := Nat.div_lt_of_lt_mul (by rw [Nat.pow_succ] at h; omega)
    simp only [toBytes, ofBytes, ofBytes_toBytes n _ this, BitVec.toNat_ofNat]
    omega

theorem xor_lt32 {a b : Nat} (ha : a < 2 ^ 32) (hb : b < 2 ^ 32) : a ^^^ b < 2 ^ 32 := Nat.xor_lt_two_pow ha hb

theorem crcStep_lt {p c : Nat} (hp : p < 2 ^ 32) (hc : c < 2 ^ 32) : crcStep p c < 2 ^ 32 := by
  unfold crcStep
  split
  · exact xor_lt32 (by omega) hp
  · omega

theorem crcByte_lt {p c : Nat} (b : Byte) (hp : p < 2 ^ 32) (hc : c < 2 ^ 32) : crcByte p c b < 2 ^ 32 := by
  have hx : c ^^^ b.toNat < 2 ^ 32 := xor_lt32 hc (by omega)
  unfold crcByte
  repeat apply crcStep_lt hp
  exact hx

/-- The CRC-32C of any bytes fits 32 bits. -/
theorem crc32c_lt (bs : List Byte) : crc32c bs < 2 ^ 32 := by
  suffices h : ∀ (bs : List Byte) (c : Nat), c < 2 ^ 32 → bs.foldl (crcByte 0x82F63B78) c < 2 ^ 32 from
    xor_lt32 (h bs _ (by decide)) (by decide)
  intro bs
  induction bs with
  | nil => exact fun _ h => h
  | cons b bs ih => exact fun c h => ih _ (crcByte_lt b (by decide) h)

theorem leAt_prefix (a b : List Byte) (off n : Nat) (h : off + n ≤ a.length) : leAt (a ++ b) off n = leAt a off n := by
  unfold leAt
  rw [List.drop_append_of_le_length (by omega), List.take_append_of_le_length (by rw [List.length_drop]; omega)]

theorem leAt_after (a b c : List Byte) : leAt (a ++ b ++ c) a.length b.length = ofBytes b := by
  simp [leAt]

theorem ringFrame_length (h : List Byte) : (ringFrame h).length = h.length + 8 := by
  simp [ringFrame, toBytes_length]

/-- R330: a frame formed from a header and payload in whole 8-byte blocks passes the checks of reception. -/
theorem ringFrameOk_ringFrame (type : Nat) (h : List Byte) (hn : 32 ≤ h.length) (h8 : h.length % 8 = 0)
    (ht : leAt h 0 1 = type) (hs : leAt h 1 1 < 16) : ringFrameOk type (ringFrame h) true = true := by
  have hl := ringFrame_length h
  have e : ringFrame h = h ++ (toBytes 4 (crc32c h) ++ [0, 0, 0, 0]) := by simp [ringFrame]
  have h0 : leAt (ringFrame h) 0 1 = type := by rw [e, leAt_prefix _ _ _ _ (by omega), ht]
  have h1 : leAt (ringFrame h) 1 1 < 16 := by rw [e, leAt_prefix _ _ _ _ (by omega)]; exact hs
  have ht : (ringFrame h).take h.length = h := by rw [e, List.take_left']; rfl
  have hc : leAt (ringFrame h) h.length 4 = crc32c h := by
    have := leAt_after h (toBytes 4 (crc32c h)) [0, 0, 0, 0]
    rw [toBytes_length, ofBytes_toBytes 4 _ (by simpa using crc32c_lt h)] at this
    exact this
  have hz : leAt (ringFrame h) (h.length + 4) 4 = 0 := by
    have := leAt_after (h ++ toBytes 4 (crc32c h)) [0, 0, 0, 0] []
    simp only [List.length_append, toBytes_length, List.append_nil] at this
    exact this
  have hm : (ringFrame h).length % 8 = 0 := by omega
  unfold ringFrameOk
  simp only [hl, Nat.add_sub_cancel, ht, hc, hz, h0, h1]
  simp; omega

end Sys2Proof.Machine
end

