-- ==== Sys2Proof/Laws/State.lean ====
section
/-!
SUPPORT. What each update of the state leaves alone, field by field: every lemma holds by rfl.
-/
namespace Sys2Proof.Machine

/-! ## The chip -/

@[simp] theorem Chip.setReg_cells (c : Chip) (off : Nat) (v : W32) : (c.setReg off v).cells = c.cells := rfl
@[simp] theorem Chip.setReg_flash (c : Chip) (off : Nat) (v : W32) : (c.setReg off v).flash = c.flash := rfl
@[simp] theorem Chip.setReg_modState (c : Chip) (off : Nat) (v : W32) : (c.setReg off v).modState = c.modState := rfl
@[simp] theorem Chip.setReg_tick (c : Chip) (off : Nat) (v : W32) : (c.setReg off v).tick = c.tick := rfl
@[simp] theorem Chip.setReg_ticked (c : Chip) (off : Nat) (v : W32) : (c.setReg off v).ticked = c.ticked := rfl
@[simp] theorem Chip.setReg_ticking (c : Chip) (off : Nat) (v : W32) : (c.setReg off v).ticking = c.ticking := rfl
@[simp] theorem Chip.setReg_pods (c : Chip) (off : Nat) (v : W32) : (c.setReg off v).pods = c.pods := rfl
@[simp] theorem Chip.setReg_sched (c : Chip) (off : Nat) (v : W32) : (c.setReg off v).sched = c.sched := rfl
@[simp] theorem Chip.setReg_mem (c : Chip) (off : Nat) (v : W32) : (c.setReg off v).mem = c.mem := rfl
@[simp] theorem Chip.setReg_tim (c : Chip) (off : Nat) (v : W32) : (c.setReg off v).tim = c.tim := rfl
@[simp] theorem Chip.setReg_host (c : Chip) (off : Nat) (v : W32) : (c.setReg off v).host = c.host := rfl
@[simp] theorem Chip.setReg_hiLatch (c : Chip) (off : Nat) (v : W32) : (c.setReg off v).hiLatch = c.hiLatch := rfl
@[simp] theorem Chip.setReg_lastFire (c : Chip) (off : Nat) (v : W32) : (c.setReg off v).lastFire = c.lastFire := rfl
@[simp] theorem Chip.setReg_draws (c : Chip) (off : Nat) (v : W32) : (c.setReg off v).draws = c.draws := rfl
@[simp] theorem Chip.setReg_stepReq (c : Chip) (off : Nat) (v : W32) : (c.setReg off v).stepReq = c.stepReq := rfl
@[simp] theorem Chip.setReg_golden (c : Chip) (off : Nat) (v : W32) : (c.setReg off v).golden = c.golden := rfl
@[simp] theorem Chip.setReg_stf (c : Chip) (off : Nat) (v : W32) : (c.setReg off v).stf = c.stf := rfl
@[simp] theorem Chip.setReg_armFaults (c : Chip) (off : Nat) (v : W32) : (c.setReg off v).armFaults = c.armFaults := rfl
@[simp] theorem Chip.setReg_allFault (c : Chip) (off : Nat) (v : W32) : (c.setReg off v).allFault = c.allFault := rfl
@[simp] theorem Chip.setReg_wantDegraded (c : Chip) (off : Nat) (v : W32) : (c.setReg off v).wantDegraded = c.wantDegraded := rfl
@[simp] theorem Chip.setReg_wantSafe (c : Chip) (off : Nat) (v : W32) : (c.setReg off v).wantSafe = c.wantSafe := rfl
@[simp] theorem Chip.setReg_wantRun (c : Chip) (off : Nat) (v : W32) : (c.setReg off v).wantRun = c.wantRun := rfl
@[simp] theorem Chip.setReg_fbk (c : Chip) (off : Nat) (v : W32) : (c.setReg off v).fbk = c.fbk := rfl
@[simp] theorem Chip.setReg_lpe (c : Chip) (off : Nat) (v : W32) : (c.setReg off v).lpe = c.lpe := rfl
@[simp] theorem Chip.setReg_prf (c : Chip) (off : Nat) (v : W32) : (c.setReg off v).prf = c.prf := rfl
@[simp] theorem Chip.setReg_star (c : Chip) (off : Nat) (v : W32) : (c.setReg off v).star = c.star := rfl
@[simp] theorem Chip.setReg_ring (c : Chip) (off : Nat) (v : W32) : (c.setReg off v).ring = c.ring := rfl
@[simp] theorem Chip.setReg_twin (c : Chip) (off : Nat) (v : W32) : (c.setReg off v).twin = c.twin := rfl
@[simp] theorem Chip.setReg_sep (c : Chip) (off : Nat) (v : W32) : (c.setReg off v).sep = c.sep := rfl
@[simp] theorem Chip.setReg_nextTick (c : Chip) (off : Nat) (v : W32) : (c.setReg off v).nextTick = c.nextTick := rfl
@[simp] theorem Chip.setReg_hlt (c : Chip) (off : Nat) (v : W32) : (c.setReg off v).hlt = c.hlt := rfl
@[simp] theorem Chip.setReg_eth (c : Chip) (off : Nat) (v : W32) : (c.setReg off v).eth = c.eth := rfl
@[simp] theorem Chip.setReg_dio (c : Chip) (off : Nat) (v : W32) : (c.setReg off v).dio = c.dio := rfl
@[simp] theorem Chip.setReg_autorun (c : Chip) (off : Nat) (v : W32) : (c.setReg off v).autorun = c.autorun := rfl
@[simp] theorem Chip.setReg_standbyAt (c : Chip) (off : Nat) (v : W32) : (c.setReg off v).standbyAt = c.standbyAt := rfl
@[simp] theorem Chip.setReg_wdFrom (c : Chip) (off : Nat) (v : W32) : (c.setReg off v).wdFrom = c.wdFrom := rfl
@[simp] theorem Chip.setReg_cfgFrom (c : Chip) (off : Nat) (v : W32) : (c.setReg off v).cfgFrom = c.cfgFrom := rfl
@[simp] theorem Chip.setReg_bootGo (c : Chip) (off : Nat) (v : W32) : (c.setReg off v).bootGo = c.bootGo := rfl
@[simp] theorem Chip.setReg_byRom (c : Chip) (off : Nat) (v : W32) : (c.setReg off v).byRom = c.byRom := rfl
@[simp] theorem Chip.setReg_orderHeld (c : Chip) (off : Nat) (v : W32) : (c.setReg off v).orderHeld = c.orderHeld := rfl
@[simp] theorem Chip.setReg_resetReq (c : Chip) (off : Nat) (v : W32) : (c.setReg off v).resetReq = c.resetReq := rfl
@[simp] theorem Chip.setReg_spsReq (c : Chip) (off : Nat) (v : W32) : (c.setReg off v).spsReq = c.spsReq := rfl
@[simp] theorem Chip.setReg_snapAt (c : Chip) (off : Nat) (v : W32) : (c.setReg off v).snapAt = c.snapAt := rfl
@[simp] theorem Chip.setReg_snapImg (c : Chip) (off : Nat) (v : W32) : (c.setReg off v).snapImg = c.snapImg := rfl
@[simp] theorem Chip.setReg_snapTo (c : Chip) (off : Nat) (v : W32) : (c.setReg off v).snapTo = c.snapTo := rfl
@[simp] theorem Chip.setReg_dwr (c : Chip) (off : Nat) (v : W32) : (c.setReg off v).dwr = c.dwr := rfl
@[simp] theorem Chip.setPod_regs (c : Chip) (n : Nat) (p : Pod) : (c.setPod n p).regs = c.regs := rfl
@[simp] theorem Chip.setPod_cells (c : Chip) (n : Nat) (p : Pod) : (c.setPod n p).cells = c.cells := rfl
@[simp] theorem Chip.setPod_flash (c : Chip) (n : Nat) (p : Pod) : (c.setPod n p).flash = c.flash := rfl
@[simp] theorem Chip.setPod_modState (c : Chip) (n : Nat) (p : Pod) : (c.setPod n p).modState = c.modState := rfl
@[simp] theorem Chip.setPod_tick (c : Chip) (n : Nat) (p : Pod) : (c.setPod n p).tick = c.tick := rfl
@[simp] theorem Chip.setPod_ticked (c : Chip) (n : Nat) (p : Pod) : (c.setPod n p).ticked = c.ticked := rfl
@[simp] theorem Chip.setPod_ticking (c : Chip) (n : Nat) (p : Pod) : (c.setPod n p).ticking = c.ticking := rfl
@[simp] theorem Chip.setPod_sched (c : Chip) (n : Nat) (p : Pod) : (c.setPod n p).sched = c.sched := rfl
@[simp] theorem Chip.setPod_mem (c : Chip) (n : Nat) (p : Pod) : (c.setPod n p).mem = c.mem := rfl
@[simp] theorem Chip.setPod_tim (c : Chip) (n : Nat) (p : Pod) : (c.setPod n p).tim = c.tim := rfl
@[simp] theorem Chip.setPod_host (c : Chip) (n : Nat) (p : Pod) : (c.setPod n p).host = c.host := rfl
@[simp] theorem Chip.setPod_hiLatch (c : Chip) (n : Nat) (p : Pod) : (c.setPod n p).hiLatch = c.hiLatch := rfl
@[simp] theorem Chip.setPod_lastFire (c : Chip) (n : Nat) (p : Pod) : (c.setPod n p).lastFire = c.lastFire := rfl
@[simp] theorem Chip.setPod_draws (c : Chip) (n : Nat) (p : Pod) : (c.setPod n p).draws = c.draws := rfl
@[simp] theorem Chip.setPod_stepReq (c : Chip) (n : Nat) (p : Pod) : (c.setPod n p).stepReq = c.stepReq := rfl
@[simp] theorem Chip.setPod_golden (c : Chip) (n : Nat) (p : Pod) : (c.setPod n p).golden = c.golden := rfl
@[simp] theorem Chip.setPod_stf (c : Chip) (n : Nat) (p : Pod) : (c.setPod n p).stf = c.stf := rfl
@[simp] theorem Chip.setPod_armFaults (c : Chip) (n : Nat) (p : Pod) : (c.setPod n p).armFaults = c.armFaults := rfl
@[simp] theorem Chip.setPod_allFault (c : Chip) (n : Nat) (p : Pod) : (c.setPod n p).allFault = c.allFault := rfl
@[simp] theorem Chip.setPod_wantDegraded (c : Chip) (n : Nat) (p : Pod) : (c.setPod n p).wantDegraded = c.wantDegraded := rfl
@[simp] theorem Chip.setPod_wantSafe (c : Chip) (n : Nat) (p : Pod) : (c.setPod n p).wantSafe = c.wantSafe := rfl
@[simp] theorem Chip.setPod_wantRun (c : Chip) (n : Nat) (p : Pod) : (c.setPod n p).wantRun = c.wantRun := rfl
@[simp] theorem Chip.setPod_fbk (c : Chip) (n : Nat) (p : Pod) : (c.setPod n p).fbk = c.fbk := rfl
@[simp] theorem Chip.setPod_lpe (c : Chip) (n : Nat) (p : Pod) : (c.setPod n p).lpe = c.lpe := rfl
@[simp] theorem Chip.setPod_prf (c : Chip) (n : Nat) (p : Pod) : (c.setPod n p).prf = c.prf := rfl
@[simp] theorem Chip.setPod_star (c : Chip) (n : Nat) (p : Pod) : (c.setPod n p).star = c.star := rfl
@[simp] theorem Chip.setPod_ring (c : Chip) (n : Nat) (p : Pod) : (c.setPod n p).ring = c.ring := rfl
@[simp] theorem Chip.setPod_twin (c : Chip) (n : Nat) (p : Pod) : (c.setPod n p).twin = c.twin := rfl
@[simp] theorem Chip.setPod_sep (c : Chip) (n : Nat) (p : Pod) : (c.setPod n p).sep = c.sep := rfl
@[simp] theorem Chip.setPod_nextTick (c : Chip) (n : Nat) (p : Pod) : (c.setPod n p).nextTick = c.nextTick := rfl
@[simp] theorem Chip.setPod_hlt (c : Chip) (n : Nat) (p : Pod) : (c.setPod n p).hlt = c.hlt := rfl
@[simp] theorem Chip.setPod_eth (c : Chip) (n : Nat) (p : Pod) : (c.setPod n p).eth = c.eth := rfl
@[simp] theorem Chip.setPod_dio (c : Chip) (n : Nat) (p : Pod) : (c.setPod n p).dio = c.dio := rfl
@[simp] theorem Chip.setPod_autorun (c : Chip) (n : Nat) (p : Pod) : (c.setPod n p).autorun = c.autorun := rfl
@[simp] theorem Chip.setPod_standbyAt (c : Chip) (n : Nat) (p : Pod) : (c.setPod n p).standbyAt = c.standbyAt := rfl
@[simp] theorem Chip.setPod_wdFrom (c : Chip) (n : Nat) (p : Pod) : (c.setPod n p).wdFrom = c.wdFrom := rfl
@[simp] theorem Chip.setPod_cfgFrom (c : Chip) (n : Nat) (p : Pod) : (c.setPod n p).cfgFrom = c.cfgFrom := rfl
@[simp] theorem Chip.setPod_bootGo (c : Chip) (n : Nat) (p : Pod) : (c.setPod n p).bootGo = c.bootGo := rfl
@[simp] theorem Chip.setPod_byRom (c : Chip) (n : Nat) (p : Pod) : (c.setPod n p).byRom = c.byRom := rfl
@[simp] theorem Chip.setPod_orderHeld (c : Chip) (n : Nat) (p : Pod) : (c.setPod n p).orderHeld = c.orderHeld := rfl
@[simp] theorem Chip.setPod_resetReq (c : Chip) (n : Nat) (p : Pod) : (c.setPod n p).resetReq = c.resetReq := rfl
@[simp] theorem Chip.setPod_spsReq (c : Chip) (n : Nat) (p : Pod) : (c.setPod n p).spsReq = c.spsReq := rfl
@[simp] theorem Chip.setPod_snapAt (c : Chip) (n : Nat) (p : Pod) : (c.setPod n p).snapAt = c.snapAt := rfl
@[simp] theorem Chip.setPod_snapImg (c : Chip) (n : Nat) (p : Pod) : (c.setPod n p).snapImg = c.snapImg := rfl
@[simp] theorem Chip.setPod_snapTo (c : Chip) (n : Nat) (p : Pod) : (c.setPod n p).snapTo = c.snapTo := rfl
@[simp] theorem Chip.setPod_dwr (c : Chip) (n : Nat) (p : Pod) : (c.setPod n p).dwr = c.dwr := rfl
@[simp] theorem Chip.modPod_regs (c : Chip) (n : Nat) (f : Pod → Pod) : (c.modPod n f).regs = c.regs := rfl
@[simp] theorem Chip.modPod_cells (c : Chip) (n : Nat) (f : Pod → Pod) : (c.modPod n f).cells = c.cells := rfl
@[simp] theorem Chip.modPod_flash (c : Chip) (n : Nat) (f : Pod → Pod) : (c.modPod n f).flash = c.flash := rfl
@[simp] theorem Chip.modPod_modState (c : Chip) (n : Nat) (f : Pod → Pod) : (c.modPod n f).modState = c.modState := rfl
@[simp] theorem Chip.modPod_tick (c : Chip) (n : Nat) (f : Pod → Pod) : (c.modPod n f).tick = c.tick := rfl
@[simp] theorem Chip.modPod_ticked (c : Chip) (n : Nat) (f : Pod → Pod) : (c.modPod n f).ticked = c.ticked := rfl
@[simp] theorem Chip.modPod_ticking (c : Chip) (n : Nat) (f : Pod → Pod) : (c.modPod n f).ticking = c.ticking := rfl
@[simp] theorem Chip.modPod_sched (c : Chip) (n : Nat) (f : Pod → Pod) : (c.modPod n f).sched = c.sched := rfl
@[simp] theorem Chip.modPod_mem (c : Chip) (n : Nat) (f : Pod → Pod) : (c.modPod n f).mem = c.mem := rfl
@[simp] theorem Chip.modPod_tim (c : Chip) (n : Nat) (f : Pod → Pod) : (c.modPod n f).tim = c.tim := rfl
@[simp] theorem Chip.modPod_host (c : Chip) (n : Nat) (f : Pod → Pod) : (c.modPod n f).host = c.host := rfl
@[simp] theorem Chip.modPod_hiLatch (c : Chip) (n : Nat) (f : Pod → Pod) : (c.modPod n f).hiLatch = c.hiLatch := rfl
@[simp] theorem Chip.modPod_lastFire (c : Chip) (n : Nat) (f : Pod → Pod) : (c.modPod n f).lastFire = c.lastFire := rfl
@[simp] theorem Chip.modPod_draws (c : Chip) (n : Nat) (f : Pod → Pod) : (c.modPod n f).draws = c.draws := rfl
@[simp] theorem Chip.modPod_stepReq (c : Chip) (n : Nat) (f : Pod → Pod) : (c.modPod n f).stepReq = c.stepReq := rfl
@[simp] theorem Chip.modPod_golden (c : Chip) (n : Nat) (f : Pod → Pod) : (c.modPod n f).golden = c.golden := rfl
@[simp] theorem Chip.modPod_stf (c : Chip) (n : Nat) (f : Pod → Pod) : (c.modPod n f).stf = c.stf := rfl
@[simp] theorem Chip.modPod_armFaults (c : Chip) (n : Nat) (f : Pod → Pod) : (c.modPod n f).armFaults = c.armFaults := rfl
@[simp] theorem Chip.modPod_allFault (c : Chip) (n : Nat) (f : Pod → Pod) : (c.modPod n f).allFault = c.allFault := rfl
@[simp] theorem Chip.modPod_wantDegraded (c : Chip) (n : Nat) (f : Pod → Pod) : (c.modPod n f).wantDegraded = c.wantDegraded := rfl
@[simp] theorem Chip.modPod_wantSafe (c : Chip) (n : Nat) (f : Pod → Pod) : (c.modPod n f).wantSafe = c.wantSafe := rfl
@[simp] theorem Chip.modPod_wantRun (c : Chip) (n : Nat) (f : Pod → Pod) : (c.modPod n f).wantRun = c.wantRun := rfl
@[simp] theorem Chip.modPod_fbk (c : Chip) (n : Nat) (f : Pod → Pod) : (c.modPod n f).fbk = c.fbk := rfl
@[simp] theorem Chip.modPod_lpe (c : Chip) (n : Nat) (f : Pod → Pod) : (c.modPod n f).lpe = c.lpe := rfl
@[simp] theorem Chip.modPod_prf (c : Chip) (n : Nat) (f : Pod → Pod) : (c.modPod n f).prf = c.prf := rfl
@[simp] theorem Chip.modPod_star (c : Chip) (n : Nat) (f : Pod → Pod) : (c.modPod n f).star = c.star := rfl
@[simp] theorem Chip.modPod_ring (c : Chip) (n : Nat) (f : Pod → Pod) : (c.modPod n f).ring = c.ring := rfl
@[simp] theorem Chip.modPod_twin (c : Chip) (n : Nat) (f : Pod → Pod) : (c.modPod n f).twin = c.twin := rfl
@[simp] theorem Chip.modPod_sep (c : Chip) (n : Nat) (f : Pod → Pod) : (c.modPod n f).sep = c.sep := rfl
@[simp] theorem Chip.modPod_nextTick (c : Chip) (n : Nat) (f : Pod → Pod) : (c.modPod n f).nextTick = c.nextTick := rfl
@[simp] theorem Chip.modPod_hlt (c : Chip) (n : Nat) (f : Pod → Pod) : (c.modPod n f).hlt = c.hlt := rfl
@[simp] theorem Chip.modPod_eth (c : Chip) (n : Nat) (f : Pod → Pod) : (c.modPod n f).eth = c.eth := rfl
@[simp] theorem Chip.modPod_dio (c : Chip) (n : Nat) (f : Pod → Pod) : (c.modPod n f).dio = c.dio := rfl
@[simp] theorem Chip.modPod_autorun (c : Chip) (n : Nat) (f : Pod → Pod) : (c.modPod n f).autorun = c.autorun := rfl
@[simp] theorem Chip.modPod_standbyAt (c : Chip) (n : Nat) (f : Pod → Pod) : (c.modPod n f).standbyAt = c.standbyAt := rfl
@[simp] theorem Chip.modPod_wdFrom (c : Chip) (n : Nat) (f : Pod → Pod) : (c.modPod n f).wdFrom = c.wdFrom := rfl
@[simp] theorem Chip.modPod_cfgFrom (c : Chip) (n : Nat) (f : Pod → Pod) : (c.modPod n f).cfgFrom = c.cfgFrom := rfl
@[simp] theorem Chip.modPod_bootGo (c : Chip) (n : Nat) (f : Pod → Pod) : (c.modPod n f).bootGo = c.bootGo := rfl
@[simp] theorem Chip.modPod_byRom (c : Chip) (n : Nat) (f : Pod → Pod) : (c.modPod n f).byRom = c.byRom := rfl
@[simp] theorem Chip.modPod_orderHeld (c : Chip) (n : Nat) (f : Pod → Pod) : (c.modPod n f).orderHeld = c.orderHeld := rfl
@[simp] theorem Chip.modPod_resetReq (c : Chip) (n : Nat) (f : Pod → Pod) : (c.modPod n f).resetReq = c.resetReq := rfl
@[simp] theorem Chip.modPod_spsReq (c : Chip) (n : Nat) (f : Pod → Pod) : (c.modPod n f).spsReq = c.spsReq := rfl
@[simp] theorem Chip.modPod_snapAt (c : Chip) (n : Nat) (f : Pod → Pod) : (c.modPod n f).snapAt = c.snapAt := rfl
@[simp] theorem Chip.modPod_snapImg (c : Chip) (n : Nat) (f : Pod → Pod) : (c.modPod n f).snapImg = c.snapImg := rfl
@[simp] theorem Chip.modPod_snapTo (c : Chip) (n : Nat) (f : Pod → Pod) : (c.modPod n f).snapTo = c.snapTo := rfl
@[simp] theorem Chip.modPod_dwr (c : Chip) (n : Nat) (f : Pod → Pod) : (c.modPod n f).dwr = c.dwr := rfl
@[simp] theorem Chip.setByte_regs (c : Chip) (a : Nat) (b : Byte) : (c.setByte a b).regs = c.regs := rfl
@[simp] theorem Chip.setByte_flash (c : Chip) (a : Nat) (b : Byte) : (c.setByte a b).flash = c.flash := rfl
@[simp] theorem Chip.setByte_modState (c : Chip) (a : Nat) (b : Byte) : (c.setByte a b).modState = c.modState := rfl
@[simp] theorem Chip.setByte_tick (c : Chip) (a : Nat) (b : Byte) : (c.setByte a b).tick = c.tick := rfl
@[simp] theorem Chip.setByte_ticked (c : Chip) (a : Nat) (b : Byte) : (c.setByte a b).ticked = c.ticked := rfl
@[simp] theorem Chip.setByte_ticking (c : Chip) (a : Nat) (b : Byte) : (c.setByte a b).ticking = c.ticking := rfl
@[simp] theorem Chip.setByte_pods (c : Chip) (a : Nat) (b : Byte) : (c.setByte a b).pods = c.pods := rfl
@[simp] theorem Chip.setByte_sched (c : Chip) (a : Nat) (b : Byte) : (c.setByte a b).sched = c.sched := rfl
@[simp] theorem Chip.setByte_mem (c : Chip) (a : Nat) (b : Byte) : (c.setByte a b).mem = c.mem := rfl
@[simp] theorem Chip.setByte_tim (c : Chip) (a : Nat) (b : Byte) : (c.setByte a b).tim = c.tim := rfl
@[simp] theorem Chip.setByte_host (c : Chip) (a : Nat) (b : Byte) : (c.setByte a b).host = c.host := rfl
@[simp] theorem Chip.setByte_hiLatch (c : Chip) (a : Nat) (b : Byte) : (c.setByte a b).hiLatch = c.hiLatch := rfl
@[simp] theorem Chip.setByte_lastFire (c : Chip) (a : Nat) (b : Byte) : (c.setByte a b).lastFire = c.lastFire := rfl
@[simp] theorem Chip.setByte_draws (c : Chip) (a : Nat) (b : Byte) : (c.setByte a b).draws = c.draws := rfl
@[simp] theorem Chip.setByte_stepReq (c : Chip) (a : Nat) (b : Byte) : (c.setByte a b).stepReq = c.stepReq := rfl
@[simp] theorem Chip.setByte_golden (c : Chip) (a : Nat) (b : Byte) : (c.setByte a b).golden = c.golden := rfl
@[simp] theorem Chip.setByte_stf (c : Chip) (a : Nat) (b : Byte) : (c.setByte a b).stf = c.stf := rfl
@[simp] theorem Chip.setByte_armFaults (c : Chip) (a : Nat) (b : Byte) : (c.setByte a b).armFaults = c.armFaults := rfl
@[simp] theorem Chip.setByte_allFault (c : Chip) (a : Nat) (b : Byte) : (c.setByte a b).allFault = c.allFault := rfl
@[simp] theorem Chip.setByte_wantDegraded (c : Chip) (a : Nat) (b : Byte) : (c.setByte a b).wantDegraded = c.wantDegraded := rfl
@[simp] theorem Chip.setByte_wantSafe (c : Chip) (a : Nat) (b : Byte) : (c.setByte a b).wantSafe = c.wantSafe := rfl
@[simp] theorem Chip.setByte_wantRun (c : Chip) (a : Nat) (b : Byte) : (c.setByte a b).wantRun = c.wantRun := rfl
@[simp] theorem Chip.setByte_fbk (c : Chip) (a : Nat) (b : Byte) : (c.setByte a b).fbk = c.fbk := rfl
@[simp] theorem Chip.setByte_lpe (c : Chip) (a : Nat) (b : Byte) : (c.setByte a b).lpe = c.lpe := rfl
@[simp] theorem Chip.setByte_prf (c : Chip) (a : Nat) (b : Byte) : (c.setByte a b).prf = c.prf := rfl
@[simp] theorem Chip.setByte_star (c : Chip) (a : Nat) (b : Byte) : (c.setByte a b).star = c.star := rfl
@[simp] theorem Chip.setByte_ring (c : Chip) (a : Nat) (b : Byte) : (c.setByte a b).ring = c.ring := rfl
@[simp] theorem Chip.setByte_twin (c : Chip) (a : Nat) (b : Byte) : (c.setByte a b).twin = c.twin := rfl
@[simp] theorem Chip.setByte_sep (c : Chip) (a : Nat) (b : Byte) : (c.setByte a b).sep = c.sep := rfl
@[simp] theorem Chip.setByte_nextTick (c : Chip) (a : Nat) (b : Byte) : (c.setByte a b).nextTick = c.nextTick := rfl
@[simp] theorem Chip.setByte_hlt (c : Chip) (a : Nat) (b : Byte) : (c.setByte a b).hlt = c.hlt := rfl
@[simp] theorem Chip.setByte_eth (c : Chip) (a : Nat) (b : Byte) : (c.setByte a b).eth = c.eth := rfl
@[simp] theorem Chip.setByte_dio (c : Chip) (a : Nat) (b : Byte) : (c.setByte a b).dio = c.dio := rfl
@[simp] theorem Chip.setByte_autorun (c : Chip) (a : Nat) (b : Byte) : (c.setByte a b).autorun = c.autorun := rfl
@[simp] theorem Chip.setByte_standbyAt (c : Chip) (a : Nat) (b : Byte) : (c.setByte a b).standbyAt = c.standbyAt := rfl
@[simp] theorem Chip.setByte_wdFrom (c : Chip) (a : Nat) (b : Byte) : (c.setByte a b).wdFrom = c.wdFrom := rfl
@[simp] theorem Chip.setByte_cfgFrom (c : Chip) (a : Nat) (b : Byte) : (c.setByte a b).cfgFrom = c.cfgFrom := rfl
@[simp] theorem Chip.setByte_bootGo (c : Chip) (a : Nat) (b : Byte) : (c.setByte a b).bootGo = c.bootGo := rfl
@[simp] theorem Chip.setByte_byRom (c : Chip) (a : Nat) (b : Byte) : (c.setByte a b).byRom = c.byRom := rfl
@[simp] theorem Chip.setByte_orderHeld (c : Chip) (a : Nat) (b : Byte) : (c.setByte a b).orderHeld = c.orderHeld := rfl
@[simp] theorem Chip.setByte_resetReq (c : Chip) (a : Nat) (b : Byte) : (c.setByte a b).resetReq = c.resetReq := rfl
@[simp] theorem Chip.setByte_spsReq (c : Chip) (a : Nat) (b : Byte) : (c.setByte a b).spsReq = c.spsReq := rfl
@[simp] theorem Chip.setByte_snapAt (c : Chip) (a : Nat) (b : Byte) : (c.setByte a b).snapAt = c.snapAt := rfl
@[simp] theorem Chip.setByte_snapImg (c : Chip) (a : Nat) (b : Byte) : (c.setByte a b).snapImg = c.snapImg := rfl
@[simp] theorem Chip.setByte_snapTo (c : Chip) (a : Nat) (b : Byte) : (c.setByte a b).snapTo = c.snapTo := rfl
@[simp] theorem Chip.setByte_dwr (c : Chip) (a : Nat) (b : Byte) : (c.setByte a b).dwr = c.dwr := rfl
@[simp] theorem Chip.setFlash_regs (c : Chip) (a : Nat) (b : Byte) : (c.setFlash a b).regs = c.regs := rfl
@[simp] theorem Chip.setFlash_cells (c : Chip) (a : Nat) (b : Byte) : (c.setFlash a b).cells = c.cells := rfl
@[simp] theorem Chip.setFlash_modState (c : Chip) (a : Nat) (b : Byte) : (c.setFlash a b).modState = c.modState := rfl
@[simp] theorem Chip.setFlash_tick (c : Chip) (a : Nat) (b : Byte) : (c.setFlash a b).tick = c.tick := rfl
@[simp] theorem Chip.setFlash_ticked (c : Chip) (a : Nat) (b : Byte) : (c.setFlash a b).ticked = c.ticked := rfl
@[simp] theorem Chip.setFlash_ticking (c : Chip) (a : Nat) (b : Byte) : (c.setFlash a b).ticking = c.ticking := rfl
@[simp] theorem Chip.setFlash_pods (c : Chip) (a : Nat) (b : Byte) : (c.setFlash a b).pods = c.pods := rfl
@[simp] theorem Chip.setFlash_sched (c : Chip) (a : Nat) (b : Byte) : (c.setFlash a b).sched = c.sched := rfl
@[simp] theorem Chip.setFlash_mem (c : Chip) (a : Nat) (b : Byte) : (c.setFlash a b).mem = c.mem := rfl
@[simp] theorem Chip.setFlash_tim (c : Chip) (a : Nat) (b : Byte) : (c.setFlash a b).tim = c.tim := rfl
@[simp] theorem Chip.setFlash_host (c : Chip) (a : Nat) (b : Byte) : (c.setFlash a b).host = c.host := rfl
@[simp] theorem Chip.setFlash_hiLatch (c : Chip) (a : Nat) (b : Byte) : (c.setFlash a b).hiLatch = c.hiLatch := rfl
@[simp] theorem Chip.setFlash_lastFire (c : Chip) (a : Nat) (b : Byte) : (c.setFlash a b).lastFire = c.lastFire := rfl
@[simp] theorem Chip.setFlash_draws (c : Chip) (a : Nat) (b : Byte) : (c.setFlash a b).draws = c.draws := rfl
@[simp] theorem Chip.setFlash_stepReq (c : Chip) (a : Nat) (b : Byte) : (c.setFlash a b).stepReq = c.stepReq := rfl
@[simp] theorem Chip.setFlash_golden (c : Chip) (a : Nat) (b : Byte) : (c.setFlash a b).golden = c.golden := rfl
@[simp] theorem Chip.setFlash_stf (c : Chip) (a : Nat) (b : Byte) : (c.setFlash a b).stf = c.stf := rfl
@[simp] theorem Chip.setFlash_armFaults (c : Chip) (a : Nat) (b : Byte) : (c.setFlash a b).armFaults = c.armFaults := rfl
@[simp] theorem Chip.setFlash_allFault (c : Chip) (a : Nat) (b : Byte) : (c.setFlash a b).allFault = c.allFault := rfl
@[simp] theorem Chip.setFlash_wantDegraded (c : Chip) (a : Nat) (b : Byte) : (c.setFlash a b).wantDegraded = c.wantDegraded := rfl
@[simp] theorem Chip.setFlash_wantSafe (c : Chip) (a : Nat) (b : Byte) : (c.setFlash a b).wantSafe = c.wantSafe := rfl
@[simp] theorem Chip.setFlash_wantRun (c : Chip) (a : Nat) (b : Byte) : (c.setFlash a b).wantRun = c.wantRun := rfl
@[simp] theorem Chip.setFlash_fbk (c : Chip) (a : Nat) (b : Byte) : (c.setFlash a b).fbk = c.fbk := rfl
@[simp] theorem Chip.setFlash_lpe (c : Chip) (a : Nat) (b : Byte) : (c.setFlash a b).lpe = c.lpe := rfl
@[simp] theorem Chip.setFlash_prf (c : Chip) (a : Nat) (b : Byte) : (c.setFlash a b).prf = c.prf := rfl
@[simp] theorem Chip.setFlash_star (c : Chip) (a : Nat) (b : Byte) : (c.setFlash a b).star = c.star := rfl
@[simp] theorem Chip.setFlash_ring (c : Chip) (a : Nat) (b : Byte) : (c.setFlash a b).ring = c.ring := rfl
@[simp] theorem Chip.setFlash_twin (c : Chip) (a : Nat) (b : Byte) : (c.setFlash a b).twin = c.twin := rfl
@[simp] theorem Chip.setFlash_sep (c : Chip) (a : Nat) (b : Byte) : (c.setFlash a b).sep = c.sep := rfl
@[simp] theorem Chip.setFlash_nextTick (c : Chip) (a : Nat) (b : Byte) : (c.setFlash a b).nextTick = c.nextTick := rfl
@[simp] theorem Chip.setFlash_hlt (c : Chip) (a : Nat) (b : Byte) : (c.setFlash a b).hlt = c.hlt := rfl
@[simp] theorem Chip.setFlash_eth (c : Chip) (a : Nat) (b : Byte) : (c.setFlash a b).eth = c.eth := rfl
@[simp] theorem Chip.setFlash_dio (c : Chip) (a : Nat) (b : Byte) : (c.setFlash a b).dio = c.dio := rfl
@[simp] theorem Chip.setFlash_autorun (c : Chip) (a : Nat) (b : Byte) : (c.setFlash a b).autorun = c.autorun := rfl
@[simp] theorem Chip.setFlash_standbyAt (c : Chip) (a : Nat) (b : Byte) : (c.setFlash a b).standbyAt = c.standbyAt := rfl
@[simp] theorem Chip.setFlash_wdFrom (c : Chip) (a : Nat) (b : Byte) : (c.setFlash a b).wdFrom = c.wdFrom := rfl
@[simp] theorem Chip.setFlash_cfgFrom (c : Chip) (a : Nat) (b : Byte) : (c.setFlash a b).cfgFrom = c.cfgFrom := rfl
@[simp] theorem Chip.setFlash_bootGo (c : Chip) (a : Nat) (b : Byte) : (c.setFlash a b).bootGo = c.bootGo := rfl
@[simp] theorem Chip.setFlash_byRom (c : Chip) (a : Nat) (b : Byte) : (c.setFlash a b).byRom = c.byRom := rfl
@[simp] theorem Chip.setFlash_orderHeld (c : Chip) (a : Nat) (b : Byte) : (c.setFlash a b).orderHeld = c.orderHeld := rfl
@[simp] theorem Chip.setFlash_resetReq (c : Chip) (a : Nat) (b : Byte) : (c.setFlash a b).resetReq = c.resetReq := rfl
@[simp] theorem Chip.setFlash_spsReq (c : Chip) (a : Nat) (b : Byte) : (c.setFlash a b).spsReq = c.spsReq := rfl
@[simp] theorem Chip.setFlash_snapAt (c : Chip) (a : Nat) (b : Byte) : (c.setFlash a b).snapAt = c.snapAt := rfl
@[simp] theorem Chip.setFlash_snapImg (c : Chip) (a : Nat) (b : Byte) : (c.setFlash a b).snapImg = c.snapImg := rfl
@[simp] theorem Chip.setFlash_snapTo (c : Chip) (a : Nat) (b : Byte) : (c.setFlash a b).snapTo = c.snapTo := rfl
@[simp] theorem Chip.setFlash_dwr (c : Chip) (a : Nat) (b : Byte) : (c.setFlash a b).dwr = c.dwr := rfl
@[simp] theorem Chip.setLine_regs (c : Chip) (l : Nat) (x : Line) : (c.setLine l x).regs = c.regs := rfl
@[simp] theorem Chip.setLine_cells (c : Chip) (l : Nat) (x : Line) : (c.setLine l x).cells = c.cells := rfl
@[simp] theorem Chip.setLine_flash (c : Chip) (l : Nat) (x : Line) : (c.setLine l x).flash = c.flash := rfl
@[simp] theorem Chip.setLine_modState (c : Chip) (l : Nat) (x : Line) : (c.setLine l x).modState = c.modState := rfl
@[simp] theorem Chip.setLine_tick (c : Chip) (l : Nat) (x : Line) : (c.setLine l x).tick = c.tick := rfl
@[simp] theorem Chip.setLine_ticked (c : Chip) (l : Nat) (x : Line) : (c.setLine l x).ticked = c.ticked := rfl
@[simp] theorem Chip.setLine_ticking (c : Chip) (l : Nat) (x : Line) : (c.setLine l x).ticking = c.ticking := rfl
@[simp] theorem Chip.setLine_pods (c : Chip) (l : Nat) (x : Line) : (c.setLine l x).pods = c.pods := rfl
@[simp] theorem Chip.setLine_sched (c : Chip) (l : Nat) (x : Line) : (c.setLine l x).sched = c.sched := rfl
@[simp] theorem Chip.setLine_tim (c : Chip) (l : Nat) (x : Line) : (c.setLine l x).tim = c.tim := rfl
@[simp] theorem Chip.setLine_host (c : Chip) (l : Nat) (x : Line) : (c.setLine l x).host = c.host := rfl
@[simp] theorem Chip.setLine_hiLatch (c : Chip) (l : Nat) (x : Line) : (c.setLine l x).hiLatch = c.hiLatch := rfl
@[simp] theorem Chip.setLine_lastFire (c : Chip) (l : Nat) (x : Line) : (c.setLine l x).lastFire = c.lastFire := rfl
@[simp] theorem Chip.setLine_draws (c : Chip) (l : Nat) (x : Line) : (c.setLine l x).draws = c.draws := rfl
@[simp] theorem Chip.setLine_stepReq (c : Chip) (l : Nat) (x : Line) : (c.setLine l x).stepReq = c.stepReq := rfl
@[simp] theorem Chip.setLine_golden (c : Chip) (l : Nat) (x : Line) : (c.setLine l x).golden = c.golden := rfl
@[simp] theorem Chip.setLine_stf (c : Chip) (l : Nat) (x : Line) : (c.setLine l x).stf = c.stf := rfl
@[simp] theorem Chip.setLine_armFaults (c : Chip) (l : Nat) (x : Line) : (c.setLine l x).armFaults = c.armFaults := rfl
@[simp] theorem Chip.setLine_allFault (c : Chip) (l : Nat) (x : Line) : (c.setLine l x).allFault = c.allFault := rfl
@[simp] theorem Chip.setLine_wantDegraded (c : Chip) (l : Nat) (x : Line) : (c.setLine l x).wantDegraded = c.wantDegraded := rfl
@[simp] theorem Chip.setLine_wantSafe (c : Chip) (l : Nat) (x : Line) : (c.setLine l x).wantSafe = c.wantSafe := rfl
@[simp] theorem Chip.setLine_wantRun (c : Chip) (l : Nat) (x : Line) : (c.setLine l x).wantRun = c.wantRun := rfl
@[simp] theorem Chip.setLine_fbk (c : Chip) (l : Nat) (x : Line) : (c.setLine l x).fbk = c.fbk := rfl
@[simp] theorem Chip.setLine_lpe (c : Chip) (l : Nat) (x : Line) : (c.setLine l x).lpe = c.lpe := rfl
@[simp] theorem Chip.setLine_prf (c : Chip) (l : Nat) (x : Line) : (c.setLine l x).prf = c.prf := rfl
@[simp] theorem Chip.setLine_star (c : Chip) (l : Nat) (x : Line) : (c.setLine l x).star = c.star := rfl
@[simp] theorem Chip.setLine_ring (c : Chip) (l : Nat) (x : Line) : (c.setLine l x).ring = c.ring := rfl
@[simp] theorem Chip.setLine_twin (c : Chip) (l : Nat) (x : Line) : (c.setLine l x).twin = c.twin := rfl
@[simp] theorem Chip.setLine_sep (c : Chip) (l : Nat) (x : Line) : (c.setLine l x).sep = c.sep := rfl
@[simp] theorem Chip.setLine_nextTick (c : Chip) (l : Nat) (x : Line) : (c.setLine l x).nextTick = c.nextTick := rfl
@[simp] theorem Chip.setLine_hlt (c : Chip) (l : Nat) (x : Line) : (c.setLine l x).hlt = c.hlt := rfl
@[simp] theorem Chip.setLine_eth (c : Chip) (l : Nat) (x : Line) : (c.setLine l x).eth = c.eth := rfl
@[simp] theorem Chip.setLine_dio (c : Chip) (l : Nat) (x : Line) : (c.setLine l x).dio = c.dio := rfl
@[simp] theorem Chip.setLine_autorun (c : Chip) (l : Nat) (x : Line) : (c.setLine l x).autorun = c.autorun := rfl
@[simp] theorem Chip.setLine_standbyAt (c : Chip) (l : Nat) (x : Line) : (c.setLine l x).standbyAt = c.standbyAt := rfl
@[simp] theorem Chip.setLine_wdFrom (c : Chip) (l : Nat) (x : Line) : (c.setLine l x).wdFrom = c.wdFrom := rfl
@[simp] theorem Chip.setLine_cfgFrom (c : Chip) (l : Nat) (x : Line) : (c.setLine l x).cfgFrom = c.cfgFrom := rfl
@[simp] theorem Chip.setLine_bootGo (c : Chip) (l : Nat) (x : Line) : (c.setLine l x).bootGo = c.bootGo := rfl
@[simp] theorem Chip.setLine_byRom (c : Chip) (l : Nat) (x : Line) : (c.setLine l x).byRom = c.byRom := rfl
@[simp] theorem Chip.setLine_orderHeld (c : Chip) (l : Nat) (x : Line) : (c.setLine l x).orderHeld = c.orderHeld := rfl
@[simp] theorem Chip.setLine_resetReq (c : Chip) (l : Nat) (x : Line) : (c.setLine l x).resetReq = c.resetReq := rfl
@[simp] theorem Chip.setLine_spsReq (c : Chip) (l : Nat) (x : Line) : (c.setLine l x).spsReq = c.spsReq := rfl
@[simp] theorem Chip.setLine_snapAt (c : Chip) (l : Nat) (x : Line) : (c.setLine l x).snapAt = c.snapAt := rfl
@[simp] theorem Chip.setLine_snapImg (c : Chip) (l : Nat) (x : Line) : (c.setLine l x).snapImg = c.snapImg := rfl
@[simp] theorem Chip.setLine_snapTo (c : Chip) (l : Nat) (x : Line) : (c.setLine l x).snapTo = c.snapTo := rfl
@[simp] theorem Chip.setLine_dwr (c : Chip) (l : Nat) (x : Line) : (c.setLine l x).dwr = c.dwr := rfl
@[simp] theorem Chip.setBase_regs (c : Chip) (b : Nat) (t : TimeBase) : (c.setBase b t).regs = c.regs := rfl
@[simp] theorem Chip.setBase_cells (c : Chip) (b : Nat) (t : TimeBase) : (c.setBase b t).cells = c.cells := rfl
@[simp] theorem Chip.setBase_flash (c : Chip) (b : Nat) (t : TimeBase) : (c.setBase b t).flash = c.flash := rfl
@[simp] theorem Chip.setBase_modState (c : Chip) (b : Nat) (t : TimeBase) : (c.setBase b t).modState = c.modState := rfl
@[simp] theorem Chip.setBase_tick (c : Chip) (b : Nat) (t : TimeBase) : (c.setBase b t).tick = c.tick := rfl
@[simp] theorem Chip.setBase_ticked (c : Chip) (b : Nat) (t : TimeBase) : (c.setBase b t).ticked = c.ticked := rfl
@[simp] theorem Chip.setBase_ticking (c : Chip) (b : Nat) (t : TimeBase) : (c.setBase b t).ticking = c.ticking := rfl
@[simp] theorem Chip.setBase_pods (c : Chip) (b : Nat) (t : TimeBase) : (c.setBase b t).pods = c.pods := rfl
@[simp] theorem Chip.setBase_sched (c : Chip) (b : Nat) (t : TimeBase) : (c.setBase b t).sched = c.sched := rfl
@[simp] theorem Chip.setBase_mem (c : Chip) (b : Nat) (t : TimeBase) : (c.setBase b t).mem = c.mem := rfl
@[simp] theorem Chip.setBase_host (c : Chip) (b : Nat) (t : TimeBase) : (c.setBase b t).host = c.host := rfl
@[simp] theorem Chip.setBase_hiLatch (c : Chip) (b : Nat) (t : TimeBase) : (c.setBase b t).hiLatch = c.hiLatch := rfl
@[simp] theorem Chip.setBase_lastFire (c : Chip) (b : Nat) (t : TimeBase) : (c.setBase b t).lastFire = c.lastFire := rfl
@[simp] theorem Chip.setBase_draws (c : Chip) (b : Nat) (t : TimeBase) : (c.setBase b t).draws = c.draws := rfl
@[simp] theorem Chip.setBase_stepReq (c : Chip) (b : Nat) (t : TimeBase) : (c.setBase b t).stepReq = c.stepReq := rfl
@[simp] theorem Chip.setBase_golden (c : Chip) (b : Nat) (t : TimeBase) : (c.setBase b t).golden = c.golden := rfl
@[simp] theorem Chip.setBase_stf (c : Chip) (b : Nat) (t : TimeBase) : (c.setBase b t).stf = c.stf := rfl
@[simp] theorem Chip.setBase_armFaults (c : Chip) (b : Nat) (t : TimeBase) : (c.setBase b t).armFaults = c.armFaults := rfl
@[simp] theorem Chip.setBase_allFault (c : Chip) (b : Nat) (t : TimeBase) : (c.setBase b t).allFault = c.allFault := rfl
@[simp] theorem Chip.setBase_wantDegraded (c : Chip) (b : Nat) (t : TimeBase) : (c.setBase b t).wantDegraded = c.wantDegraded := rfl
@[simp] theorem Chip.setBase_wantSafe (c : Chip) (b : Nat) (t : TimeBase) : (c.setBase b t).wantSafe = c.wantSafe := rfl
@[simp] theorem Chip.setBase_wantRun (c : Chip) (b : Nat) (t : TimeBase) : (c.setBase b t).wantRun = c.wantRun := rfl
@[simp] theorem Chip.setBase_fbk (c : Chip) (b : Nat) (t : TimeBase) : (c.setBase b t).fbk = c.fbk := rfl
@[simp] theorem Chip.setBase_lpe (c : Chip) (b : Nat) (t : TimeBase) : (c.setBase b t).lpe = c.lpe := rfl
@[simp] theorem Chip.setBase_prf (c : Chip) (b : Nat) (t : TimeBase) : (c.setBase b t).prf = c.prf := rfl
@[simp] theorem Chip.setBase_star (c : Chip) (b : Nat) (t : TimeBase) : (c.setBase b t).star = c.star := rfl
@[simp] theorem Chip.setBase_ring (c : Chip) (b : Nat) (t : TimeBase) : (c.setBase b t).ring = c.ring := rfl
@[simp] theorem Chip.setBase_twin (c : Chip) (b : Nat) (t : TimeBase) : (c.setBase b t).twin = c.twin := rfl
@[simp] theorem Chip.setBase_sep (c : Chip) (b : Nat) (t : TimeBase) : (c.setBase b t).sep = c.sep := rfl
@[simp] theorem Chip.setBase_nextTick (c : Chip) (b : Nat) (t : TimeBase) : (c.setBase b t).nextTick = c.nextTick := rfl
@[simp] theorem Chip.setBase_hlt (c : Chip) (b : Nat) (t : TimeBase) : (c.setBase b t).hlt = c.hlt := rfl
@[simp] theorem Chip.setBase_eth (c : Chip) (b : Nat) (t : TimeBase) : (c.setBase b t).eth = c.eth := rfl
@[simp] theorem Chip.setBase_dio (c : Chip) (b : Nat) (t : TimeBase) : (c.setBase b t).dio = c.dio := rfl
@[simp] theorem Chip.setBase_autorun (c : Chip) (b : Nat) (t : TimeBase) : (c.setBase b t).autorun = c.autorun := rfl
@[simp] theorem Chip.setBase_standbyAt (c : Chip) (b : Nat) (t : TimeBase) : (c.setBase b t).standbyAt = c.standbyAt := rfl
@[simp] theorem Chip.setBase_wdFrom (c : Chip) (b : Nat) (t : TimeBase) : (c.setBase b t).wdFrom = c.wdFrom := rfl
@[simp] theorem Chip.setBase_cfgFrom (c : Chip) (b : Nat) (t : TimeBase) : (c.setBase b t).cfgFrom = c.cfgFrom := rfl
@[simp] theorem Chip.setBase_bootGo (c : Chip) (b : Nat) (t : TimeBase) : (c.setBase b t).bootGo = c.bootGo := rfl
@[simp] theorem Chip.setBase_byRom (c : Chip) (b : Nat) (t : TimeBase) : (c.setBase b t).byRom = c.byRom := rfl
@[simp] theorem Chip.setBase_orderHeld (c : Chip) (b : Nat) (t : TimeBase) : (c.setBase b t).orderHeld = c.orderHeld := rfl
@[simp] theorem Chip.setBase_resetReq (c : Chip) (b : Nat) (t : TimeBase) : (c.setBase b t).resetReq = c.resetReq := rfl
@[simp] theorem Chip.setBase_spsReq (c : Chip) (b : Nat) (t : TimeBase) : (c.setBase b t).spsReq = c.spsReq := rfl
@[simp] theorem Chip.setBase_snapAt (c : Chip) (b : Nat) (t : TimeBase) : (c.setBase b t).snapAt = c.snapAt := rfl
@[simp] theorem Chip.setBase_snapImg (c : Chip) (b : Nat) (t : TimeBase) : (c.setBase b t).snapImg = c.snapImg := rfl
@[simp] theorem Chip.setBase_snapTo (c : Chip) (b : Nat) (t : TimeBase) : (c.setBase b t).snapTo = c.snapTo := rfl
@[simp] theorem Chip.setBase_dwr (c : Chip) (b : Nat) (t : TimeBase) : (c.setBase b t).dwr = c.dwr := rfl
@[simp] theorem Chip.modSched_regs (c : Chip) (f : Sched → Sched) : (c.modSched f).regs = c.regs := rfl
@[simp] theorem Chip.modSched_cells (c : Chip) (f : Sched → Sched) : (c.modSched f).cells = c.cells := rfl
@[simp] theorem Chip.modSched_flash (c : Chip) (f : Sched → Sched) : (c.modSched f).flash = c.flash := rfl
@[simp] theorem Chip.modSched_modState (c : Chip) (f : Sched → Sched) : (c.modSched f).modState = c.modState := rfl
@[simp] theorem Chip.modSched_tick (c : Chip) (f : Sched → Sched) : (c.modSched f).tick = c.tick := rfl
@[simp] theorem Chip.modSched_ticked (c : Chip) (f : Sched → Sched) : (c.modSched f).ticked = c.ticked := rfl
@[simp] theorem Chip.modSched_ticking (c : Chip) (f : Sched → Sched) : (c.modSched f).ticking = c.ticking := rfl
@[simp] theorem Chip.modSched_pods (c : Chip) (f : Sched → Sched) : (c.modSched f).pods = c.pods := rfl
@[simp] theorem Chip.modSched_mem (c : Chip) (f : Sched → Sched) : (c.modSched f).mem = c.mem := rfl
@[simp] theorem Chip.modSched_tim (c : Chip) (f : Sched → Sched) : (c.modSched f).tim = c.tim := rfl
@[simp] theorem Chip.modSched_host (c : Chip) (f : Sched → Sched) : (c.modSched f).host = c.host := rfl
@[simp] theorem Chip.modSched_hiLatch (c : Chip) (f : Sched → Sched) : (c.modSched f).hiLatch = c.hiLatch := rfl
@[simp] theorem Chip.modSched_lastFire (c : Chip) (f : Sched → Sched) : (c.modSched f).lastFire = c.lastFire := rfl
@[simp] theorem Chip.modSched_draws (c : Chip) (f : Sched → Sched) : (c.modSched f).draws = c.draws := rfl
@[simp] theorem Chip.modSched_stepReq (c : Chip) (f : Sched → Sched) : (c.modSched f).stepReq = c.stepReq := rfl
@[simp] theorem Chip.modSched_golden (c : Chip) (f : Sched → Sched) : (c.modSched f).golden = c.golden := rfl
@[simp] theorem Chip.modSched_stf (c : Chip) (f : Sched → Sched) : (c.modSched f).stf = c.stf := rfl
@[simp] theorem Chip.modSched_armFaults (c : Chip) (f : Sched → Sched) : (c.modSched f).armFaults = c.armFaults := rfl
@[simp] theorem Chip.modSched_allFault (c : Chip) (f : Sched → Sched) : (c.modSched f).allFault = c.allFault := rfl
@[simp] theorem Chip.modSched_wantDegraded (c : Chip) (f : Sched → Sched) : (c.modSched f).wantDegraded = c.wantDegraded := rfl
@[simp] theorem Chip.modSched_wantSafe (c : Chip) (f : Sched → Sched) : (c.modSched f).wantSafe = c.wantSafe := rfl
@[simp] theorem Chip.modSched_wantRun (c : Chip) (f : Sched → Sched) : (c.modSched f).wantRun = c.wantRun := rfl
@[simp] theorem Chip.modSched_fbk (c : Chip) (f : Sched → Sched) : (c.modSched f).fbk = c.fbk := rfl
@[simp] theorem Chip.modSched_lpe (c : Chip) (f : Sched → Sched) : (c.modSched f).lpe = c.lpe := rfl
@[simp] theorem Chip.modSched_prf (c : Chip) (f : Sched → Sched) : (c.modSched f).prf = c.prf := rfl
@[simp] theorem Chip.modSched_star (c : Chip) (f : Sched → Sched) : (c.modSched f).star = c.star := rfl
@[simp] theorem Chip.modSched_ring (c : Chip) (f : Sched → Sched) : (c.modSched f).ring = c.ring := rfl
@[simp] theorem Chip.modSched_twin (c : Chip) (f : Sched → Sched) : (c.modSched f).twin = c.twin := rfl
@[simp] theorem Chip.modSched_sep (c : Chip) (f : Sched → Sched) : (c.modSched f).sep = c.sep := rfl
@[simp] theorem Chip.modSched_nextTick (c : Chip) (f : Sched → Sched) : (c.modSched f).nextTick = c.nextTick := rfl
@[simp] theorem Chip.modSched_hlt (c : Chip) (f : Sched → Sched) : (c.modSched f).hlt = c.hlt := rfl
@[simp] theorem Chip.modSched_eth (c : Chip) (f : Sched → Sched) : (c.modSched f).eth = c.eth := rfl
@[simp] theorem Chip.modSched_dio (c : Chip) (f : Sched → Sched) : (c.modSched f).dio = c.dio := rfl
@[simp] theorem Chip.modSched_autorun (c : Chip) (f : Sched → Sched) : (c.modSched f).autorun = c.autorun := rfl
@[simp] theorem Chip.modSched_standbyAt (c : Chip) (f : Sched → Sched) : (c.modSched f).standbyAt = c.standbyAt := rfl
@[simp] theorem Chip.modSched_wdFrom (c : Chip) (f : Sched → Sched) : (c.modSched f).wdFrom = c.wdFrom := rfl
@[simp] theorem Chip.modSched_cfgFrom (c : Chip) (f : Sched → Sched) : (c.modSched f).cfgFrom = c.cfgFrom := rfl
@[simp] theorem Chip.modSched_bootGo (c : Chip) (f : Sched → Sched) : (c.modSched f).bootGo = c.bootGo := rfl
@[simp] theorem Chip.modSched_byRom (c : Chip) (f : Sched → Sched) : (c.modSched f).byRom = c.byRom := rfl
@[simp] theorem Chip.modSched_orderHeld (c : Chip) (f : Sched → Sched) : (c.modSched f).orderHeld = c.orderHeld := rfl
@[simp] theorem Chip.modSched_resetReq (c : Chip) (f : Sched → Sched) : (c.modSched f).resetReq = c.resetReq := rfl
@[simp] theorem Chip.modSched_spsReq (c : Chip) (f : Sched → Sched) : (c.modSched f).spsReq = c.spsReq := rfl
@[simp] theorem Chip.modSched_snapAt (c : Chip) (f : Sched → Sched) : (c.modSched f).snapAt = c.snapAt := rfl
@[simp] theorem Chip.modSched_snapImg (c : Chip) (f : Sched → Sched) : (c.modSched f).snapImg = c.snapImg := rfl
@[simp] theorem Chip.modSched_snapTo (c : Chip) (f : Sched → Sched) : (c.modSched f).snapTo = c.snapTo := rfl
@[simp] theorem Chip.modSched_dwr (c : Chip) (f : Sched → Sched) : (c.modSched f).dwr = c.dwr := rfl
@[simp] theorem Chip.modFbk_regs (c : Chip) (f : Fbk → Fbk) : (c.modFbk f).regs = c.regs := rfl
@[simp] theorem Chip.modFbk_cells (c : Chip) (f : Fbk → Fbk) : (c.modFbk f).cells = c.cells := rfl
@[simp] theorem Chip.modFbk_flash (c : Chip) (f : Fbk → Fbk) : (c.modFbk f).flash = c.flash := rfl
@[simp] theorem Chip.modFbk_modState (c : Chip) (f : Fbk → Fbk) : (c.modFbk f).modState = c.modState := rfl
@[simp] theorem Chip.modFbk_tick (c : Chip) (f : Fbk → Fbk) : (c.modFbk f).tick = c.tick := rfl
@[simp] theorem Chip.modFbk_ticked (c : Chip) (f : Fbk → Fbk) : (c.modFbk f).ticked = c.ticked := rfl
@[simp] theorem Chip.modFbk_ticking (c : Chip) (f : Fbk → Fbk) : (c.modFbk f).ticking = c.ticking := rfl
@[simp] theorem Chip.modFbk_pods (c : Chip) (f : Fbk → Fbk) : (c.modFbk f).pods = c.pods := rfl
@[simp] theorem Chip.modFbk_sched (c : Chip) (f : Fbk → Fbk) : (c.modFbk f).sched = c.sched := rfl
@[simp] theorem Chip.modFbk_mem (c : Chip) (f : Fbk → Fbk) : (c.modFbk f).mem = c.mem := rfl
@[simp] theorem Chip.modFbk_tim (c : Chip) (f : Fbk → Fbk) : (c.modFbk f).tim = c.tim := rfl
@[simp] theorem Chip.modFbk_host (c : Chip) (f : Fbk → Fbk) : (c.modFbk f).host = c.host := rfl
@[simp] theorem Chip.modFbk_hiLatch (c : Chip) (f : Fbk → Fbk) : (c.modFbk f).hiLatch = c.hiLatch := rfl
@[simp] theorem Chip.modFbk_lastFire (c : Chip) (f : Fbk → Fbk) : (c.modFbk f).lastFire = c.lastFire := rfl
@[simp] theorem Chip.modFbk_draws (c : Chip) (f : Fbk → Fbk) : (c.modFbk f).draws = c.draws := rfl
@[simp] theorem Chip.modFbk_stepReq (c : Chip) (f : Fbk → Fbk) : (c.modFbk f).stepReq = c.stepReq := rfl
@[simp] theorem Chip.modFbk_golden (c : Chip) (f : Fbk → Fbk) : (c.modFbk f).golden = c.golden := rfl
@[simp] theorem Chip.modFbk_stf (c : Chip) (f : Fbk → Fbk) : (c.modFbk f).stf = c.stf := rfl
@[simp] theorem Chip.modFbk_armFaults (c : Chip) (f : Fbk → Fbk) : (c.modFbk f).armFaults = c.armFaults := rfl
@[simp] theorem Chip.modFbk_allFault (c : Chip) (f : Fbk → Fbk) : (c.modFbk f).allFault = c.allFault := rfl
@[simp] theorem Chip.modFbk_wantDegraded (c : Chip) (f : Fbk → Fbk) : (c.modFbk f).wantDegraded = c.wantDegraded := rfl
@[simp] theorem Chip.modFbk_wantSafe (c : Chip) (f : Fbk → Fbk) : (c.modFbk f).wantSafe = c.wantSafe := rfl
@[simp] theorem Chip.modFbk_wantRun (c : Chip) (f : Fbk → Fbk) : (c.modFbk f).wantRun = c.wantRun := rfl
@[simp] theorem Chip.modFbk_lpe (c : Chip) (f : Fbk → Fbk) : (c.modFbk f).lpe = c.lpe := rfl
@[simp] theorem Chip.modFbk_prf (c : Chip) (f : Fbk → Fbk) : (c.modFbk f).prf = c.prf := rfl
@[simp] theorem Chip.modFbk_star (c : Chip) (f : Fbk → Fbk) : (c.modFbk f).star = c.star := rfl
@[simp] theorem Chip.modFbk_ring (c : Chip) (f : Fbk → Fbk) : (c.modFbk f).ring = c.ring := rfl
@[simp] theorem Chip.modFbk_twin (c : Chip) (f : Fbk → Fbk) : (c.modFbk f).twin = c.twin := rfl
@[simp] theorem Chip.modFbk_sep (c : Chip) (f : Fbk → Fbk) : (c.modFbk f).sep = c.sep := rfl
@[simp] theorem Chip.modFbk_nextTick (c : Chip) (f : Fbk → Fbk) : (c.modFbk f).nextTick = c.nextTick := rfl
@[simp] theorem Chip.modFbk_hlt (c : Chip) (f : Fbk → Fbk) : (c.modFbk f).hlt = c.hlt := rfl
@[simp] theorem Chip.modFbk_eth (c : Chip) (f : Fbk → Fbk) : (c.modFbk f).eth = c.eth := rfl
@[simp] theorem Chip.modFbk_dio (c : Chip) (f : Fbk → Fbk) : (c.modFbk f).dio = c.dio := rfl
@[simp] theorem Chip.modFbk_autorun (c : Chip) (f : Fbk → Fbk) : (c.modFbk f).autorun = c.autorun := rfl
@[simp] theorem Chip.modFbk_standbyAt (c : Chip) (f : Fbk → Fbk) : (c.modFbk f).standbyAt = c.standbyAt := rfl
@[simp] theorem Chip.modFbk_wdFrom (c : Chip) (f : Fbk → Fbk) : (c.modFbk f).wdFrom = c.wdFrom := rfl
@[simp] theorem Chip.modFbk_cfgFrom (c : Chip) (f : Fbk → Fbk) : (c.modFbk f).cfgFrom = c.cfgFrom := rfl
@[simp] theorem Chip.modFbk_bootGo (c : Chip) (f : Fbk → Fbk) : (c.modFbk f).bootGo = c.bootGo := rfl
@[simp] theorem Chip.modFbk_byRom (c : Chip) (f : Fbk → Fbk) : (c.modFbk f).byRom = c.byRom := rfl
@[simp] theorem Chip.modFbk_orderHeld (c : Chip) (f : Fbk → Fbk) : (c.modFbk f).orderHeld = c.orderHeld := rfl
@[simp] theorem Chip.modFbk_resetReq (c : Chip) (f : Fbk → Fbk) : (c.modFbk f).resetReq = c.resetReq := rfl
@[simp] theorem Chip.modFbk_spsReq (c : Chip) (f : Fbk → Fbk) : (c.modFbk f).spsReq = c.spsReq := rfl
@[simp] theorem Chip.modFbk_snapAt (c : Chip) (f : Fbk → Fbk) : (c.modFbk f).snapAt = c.snapAt := rfl
@[simp] theorem Chip.modFbk_snapImg (c : Chip) (f : Fbk → Fbk) : (c.modFbk f).snapImg = c.snapImg := rfl
@[simp] theorem Chip.modFbk_snapTo (c : Chip) (f : Fbk → Fbk) : (c.modFbk f).snapTo = c.snapTo := rfl
@[simp] theorem Chip.modFbk_dwr (c : Chip) (f : Fbk → Fbk) : (c.modFbk f).dwr = c.dwr := rfl
@[simp] theorem Chip.modLpe_regs (c : Chip) (f : Lpe → Lpe) : (c.modLpe f).regs = c.regs := rfl
@[simp] theorem Chip.modLpe_cells (c : Chip) (f : Lpe → Lpe) : (c.modLpe f).cells = c.cells := rfl
@[simp] theorem Chip.modLpe_flash (c : Chip) (f : Lpe → Lpe) : (c.modLpe f).flash = c.flash := rfl
@[simp] theorem Chip.modLpe_modState (c : Chip) (f : Lpe → Lpe) : (c.modLpe f).modState = c.modState := rfl
@[simp] theorem Chip.modLpe_tick (c : Chip) (f : Lpe → Lpe) : (c.modLpe f).tick = c.tick := rfl
@[simp] theorem Chip.modLpe_ticked (c : Chip) (f : Lpe → Lpe) : (c.modLpe f).ticked = c.ticked := rfl
@[simp] theorem Chip.modLpe_ticking (c : Chip) (f : Lpe → Lpe) : (c.modLpe f).ticking = c.ticking := rfl
@[simp] theorem Chip.modLpe_pods (c : Chip) (f : Lpe → Lpe) : (c.modLpe f).pods = c.pods := rfl
@[simp] theorem Chip.modLpe_sched (c : Chip) (f : Lpe → Lpe) : (c.modLpe f).sched = c.sched := rfl
@[simp] theorem Chip.modLpe_mem (c : Chip) (f : Lpe → Lpe) : (c.modLpe f).mem = c.mem := rfl
@[simp] theorem Chip.modLpe_tim (c : Chip) (f : Lpe → Lpe) : (c.modLpe f).tim = c.tim := rfl
@[simp] theorem Chip.modLpe_host (c : Chip) (f : Lpe → Lpe) : (c.modLpe f).host = c.host := rfl
@[simp] theorem Chip.modLpe_hiLatch (c : Chip) (f : Lpe → Lpe) : (c.modLpe f).hiLatch = c.hiLatch := rfl
@[simp] theorem Chip.modLpe_lastFire (c : Chip) (f : Lpe → Lpe) : (c.modLpe f).lastFire = c.lastFire := rfl
@[simp] theorem Chip.modLpe_draws (c : Chip) (f : Lpe → Lpe) : (c.modLpe f).draws = c.draws := rfl
@[simp] theorem Chip.modLpe_stepReq (c : Chip) (f : Lpe → Lpe) : (c.modLpe f).stepReq = c.stepReq := rfl
@[simp] theorem Chip.modLpe_golden (c : Chip) (f : Lpe → Lpe) : (c.modLpe f).golden = c.golden := rfl
@[simp] theorem Chip.modLpe_stf (c : Chip) (f : Lpe → Lpe) : (c.modLpe f).stf = c.stf := rfl
@[simp] theorem Chip.modLpe_armFaults (c : Chip) (f : Lpe → Lpe) : (c.modLpe f).armFaults = c.armFaults := rfl
@[simp] theorem Chip.modLpe_allFault (c : Chip) (f : Lpe → Lpe) : (c.modLpe f).allFault = c.allFault := rfl
@[simp] theorem Chip.modLpe_wantDegraded (c : Chip) (f : Lpe → Lpe) : (c.modLpe f).wantDegraded = c.wantDegraded := rfl
@[simp] theorem Chip.modLpe_wantSafe (c : Chip) (f : Lpe → Lpe) : (c.modLpe f).wantSafe = c.wantSafe := rfl
@[simp] theorem Chip.modLpe_wantRun (c : Chip) (f : Lpe → Lpe) : (c.modLpe f).wantRun = c.wantRun := rfl
@[simp] theorem Chip.modLpe_fbk (c : Chip) (f : Lpe → Lpe) : (c.modLpe f).fbk = c.fbk := rfl
@[simp] theorem Chip.modLpe_prf (c : Chip) (f : Lpe → Lpe) : (c.modLpe f).prf = c.prf := rfl
@[simp] theorem Chip.modLpe_star (c : Chip) (f : Lpe → Lpe) : (c.modLpe f).star = c.star := rfl
@[simp] theorem Chip.modLpe_ring (c : Chip) (f : Lpe → Lpe) : (c.modLpe f).ring = c.ring := rfl
@[simp] theorem Chip.modLpe_twin (c : Chip) (f : Lpe → Lpe) : (c.modLpe f).twin = c.twin := rfl
@[simp] theorem Chip.modLpe_sep (c : Chip) (f : Lpe → Lpe) : (c.modLpe f).sep = c.sep := rfl
@[simp] theorem Chip.modLpe_nextTick (c : Chip) (f : Lpe → Lpe) : (c.modLpe f).nextTick = c.nextTick := rfl
@[simp] theorem Chip.modLpe_hlt (c : Chip) (f : Lpe → Lpe) : (c.modLpe f).hlt = c.hlt := rfl
@[simp] theorem Chip.modLpe_eth (c : Chip) (f : Lpe → Lpe) : (c.modLpe f).eth = c.eth := rfl
@[simp] theorem Chip.modLpe_dio (c : Chip) (f : Lpe → Lpe) : (c.modLpe f).dio = c.dio := rfl
@[simp] theorem Chip.modLpe_autorun (c : Chip) (f : Lpe → Lpe) : (c.modLpe f).autorun = c.autorun := rfl
@[simp] theorem Chip.modLpe_standbyAt (c : Chip) (f : Lpe → Lpe) : (c.modLpe f).standbyAt = c.standbyAt := rfl
@[simp] theorem Chip.modLpe_wdFrom (c : Chip) (f : Lpe → Lpe) : (c.modLpe f).wdFrom = c.wdFrom := rfl
@[simp] theorem Chip.modLpe_cfgFrom (c : Chip) (f : Lpe → Lpe) : (c.modLpe f).cfgFrom = c.cfgFrom := rfl
@[simp] theorem Chip.modLpe_bootGo (c : Chip) (f : Lpe → Lpe) : (c.modLpe f).bootGo = c.bootGo := rfl
@[simp] theorem Chip.modLpe_byRom (c : Chip) (f : Lpe → Lpe) : (c.modLpe f).byRom = c.byRom := rfl
@[simp] theorem Chip.modLpe_orderHeld (c : Chip) (f : Lpe → Lpe) : (c.modLpe f).orderHeld = c.orderHeld := rfl
@[simp] theorem Chip.modLpe_resetReq (c : Chip) (f : Lpe → Lpe) : (c.modLpe f).resetReq = c.resetReq := rfl
@[simp] theorem Chip.modLpe_spsReq (c : Chip) (f : Lpe → Lpe) : (c.modLpe f).spsReq = c.spsReq := rfl
@[simp] theorem Chip.modLpe_snapAt (c : Chip) (f : Lpe → Lpe) : (c.modLpe f).snapAt = c.snapAt := rfl
@[simp] theorem Chip.modLpe_snapImg (c : Chip) (f : Lpe → Lpe) : (c.modLpe f).snapImg = c.snapImg := rfl
@[simp] theorem Chip.modLpe_snapTo (c : Chip) (f : Lpe → Lpe) : (c.modLpe f).snapTo = c.snapTo := rfl
@[simp] theorem Chip.modLpe_dwr (c : Chip) (f : Lpe → Lpe) : (c.modLpe f).dwr = c.dwr := rfl
@[simp] theorem Chip.modPrf_regs (c : Chip) (f : Prf → Prf) : (c.modPrf f).regs = c.regs := rfl
@[simp] theorem Chip.modPrf_cells (c : Chip) (f : Prf → Prf) : (c.modPrf f).cells = c.cells := rfl
@[simp] theorem Chip.modPrf_flash (c : Chip) (f : Prf → Prf) : (c.modPrf f).flash = c.flash := rfl
@[simp] theorem Chip.modPrf_modState (c : Chip) (f : Prf → Prf) : (c.modPrf f).modState = c.modState := rfl
@[simp] theorem Chip.modPrf_tick (c : Chip) (f : Prf → Prf) : (c.modPrf f).tick = c.tick := rfl
@[simp] theorem Chip.modPrf_ticked (c : Chip) (f : Prf → Prf) : (c.modPrf f).ticked = c.ticked := rfl
@[simp] theorem Chip.modPrf_ticking (c : Chip) (f : Prf → Prf) : (c.modPrf f).ticking = c.ticking := rfl
@[simp] theorem Chip.modPrf_pods (c : Chip) (f : Prf → Prf) : (c.modPrf f).pods = c.pods := rfl
@[simp] theorem Chip.modPrf_sched (c : Chip) (f : Prf → Prf) : (c.modPrf f).sched = c.sched := rfl
@[simp] theorem Chip.modPrf_mem (c : Chip) (f : Prf → Prf) : (c.modPrf f).mem = c.mem := rfl
@[simp] theorem Chip.modPrf_tim (c : Chip) (f : Prf → Prf) : (c.modPrf f).tim = c.tim := rfl
@[simp] theorem Chip.modPrf_host (c : Chip) (f : Prf → Prf) : (c.modPrf f).host = c.host := rfl
@[simp] theorem Chip.modPrf_hiLatch (c : Chip) (f : Prf → Prf) : (c.modPrf f).hiLatch = c.hiLatch := rfl
@[simp] theorem Chip.modPrf_lastFire (c : Chip) (f : Prf → Prf) : (c.modPrf f).lastFire = c.lastFire := rfl
@[simp] theorem Chip.modPrf_draws (c : Chip) (f : Prf → Prf) : (c.modPrf f).draws = c.draws := rfl
@[simp] theorem Chip.modPrf_stepReq (c : Chip) (f : Prf → Prf) : (c.modPrf f).stepReq = c.stepReq := rfl
@[simp] theorem Chip.modPrf_golden (c : Chip) (f : Prf → Prf) : (c.modPrf f).golden = c.golden := rfl
@[simp] theorem Chip.modPrf_stf (c : Chip) (f : Prf → Prf) : (c.modPrf f).stf = c.stf := rfl
@[simp] theorem Chip.modPrf_armFaults (c : Chip) (f : Prf → Prf) : (c.modPrf f).armFaults = c.armFaults := rfl
@[simp] theorem Chip.modPrf_allFault (c : Chip) (f : Prf → Prf) : (c.modPrf f).allFault = c.allFault := rfl
@[simp] theorem Chip.modPrf_wantDegraded (c : Chip) (f : Prf → Prf) : (c.modPrf f).wantDegraded = c.wantDegraded := rfl
@[simp] theorem Chip.modPrf_wantSafe (c : Chip) (f : Prf → Prf) : (c.modPrf f).wantSafe = c.wantSafe := rfl
@[simp] theorem Chip.modPrf_wantRun (c : Chip) (f : Prf → Prf) : (c.modPrf f).wantRun = c.wantRun := rfl
@[simp] theorem Chip.modPrf_fbk (c : Chip) (f : Prf → Prf) : (c.modPrf f).fbk = c.fbk := rfl
@[simp] theorem Chip.modPrf_lpe (c : Chip) (f : Prf → Prf) : (c.modPrf f).lpe = c.lpe := rfl
@[simp] theorem Chip.modPrf_star (c : Chip) (f : Prf → Prf) : (c.modPrf f).star = c.star := rfl
@[simp] theorem Chip.modPrf_ring (c : Chip) (f : Prf → Prf) : (c.modPrf f).ring = c.ring := rfl
@[simp] theorem Chip.modPrf_twin (c : Chip) (f : Prf → Prf) : (c.modPrf f).twin = c.twin := rfl
@[simp] theorem Chip.modPrf_sep (c : Chip) (f : Prf → Prf) : (c.modPrf f).sep = c.sep := rfl
@[simp] theorem Chip.modPrf_nextTick (c : Chip) (f : Prf → Prf) : (c.modPrf f).nextTick = c.nextTick := rfl
@[simp] theorem Chip.modPrf_hlt (c : Chip) (f : Prf → Prf) : (c.modPrf f).hlt = c.hlt := rfl
@[simp] theorem Chip.modPrf_eth (c : Chip) (f : Prf → Prf) : (c.modPrf f).eth = c.eth := rfl
@[simp] theorem Chip.modPrf_dio (c : Chip) (f : Prf → Prf) : (c.modPrf f).dio = c.dio := rfl
@[simp] theorem Chip.modPrf_autorun (c : Chip) (f : Prf → Prf) : (c.modPrf f).autorun = c.autorun := rfl
@[simp] theorem Chip.modPrf_standbyAt (c : Chip) (f : Prf → Prf) : (c.modPrf f).standbyAt = c.standbyAt := rfl
@[simp] theorem Chip.modPrf_wdFrom (c : Chip) (f : Prf → Prf) : (c.modPrf f).wdFrom = c.wdFrom := rfl
@[simp] theorem Chip.modPrf_cfgFrom (c : Chip) (f : Prf → Prf) : (c.modPrf f).cfgFrom = c.cfgFrom := rfl
@[simp] theorem Chip.modPrf_bootGo (c : Chip) (f : Prf → Prf) : (c.modPrf f).bootGo = c.bootGo := rfl
@[simp] theorem Chip.modPrf_byRom (c : Chip) (f : Prf → Prf) : (c.modPrf f).byRom = c.byRom := rfl
@[simp] theorem Chip.modPrf_orderHeld (c : Chip) (f : Prf → Prf) : (c.modPrf f).orderHeld = c.orderHeld := rfl
@[simp] theorem Chip.modPrf_resetReq (c : Chip) (f : Prf → Prf) : (c.modPrf f).resetReq = c.resetReq := rfl
@[simp] theorem Chip.modPrf_spsReq (c : Chip) (f : Prf → Prf) : (c.modPrf f).spsReq = c.spsReq := rfl
@[simp] theorem Chip.modPrf_snapAt (c : Chip) (f : Prf → Prf) : (c.modPrf f).snapAt = c.snapAt := rfl
@[simp] theorem Chip.modPrf_snapImg (c : Chip) (f : Prf → Prf) : (c.modPrf f).snapImg = c.snapImg := rfl
@[simp] theorem Chip.modPrf_snapTo (c : Chip) (f : Prf → Prf) : (c.modPrf f).snapTo = c.snapTo := rfl
@[simp] theorem Chip.modPrf_dwr (c : Chip) (f : Prf → Prf) : (c.modPrf f).dwr = c.dwr := rfl
@[simp] theorem Chip.modStar_regs (c : Chip) (f : Star → Star) : (c.modStar f).regs = c.regs := rfl
@[simp] theorem Chip.modStar_cells (c : Chip) (f : Star → Star) : (c.modStar f).cells = c.cells := rfl
@[simp] theorem Chip.modStar_flash (c : Chip) (f : Star → Star) : (c.modStar f).flash = c.flash := rfl
@[simp] theorem Chip.modStar_modState (c : Chip) (f : Star → Star) : (c.modStar f).modState = c.modState := rfl
@[simp] theorem Chip.modStar_tick (c : Chip) (f : Star → Star) : (c.modStar f).tick = c.tick := rfl
@[simp] theorem Chip.modStar_ticked (c : Chip) (f : Star → Star) : (c.modStar f).ticked = c.ticked := rfl
@[simp] theorem Chip.modStar_ticking (c : Chip) (f : Star → Star) : (c.modStar f).ticking = c.ticking := rfl
@[simp] theorem Chip.modStar_pods (c : Chip) (f : Star → Star) : (c.modStar f).pods = c.pods := rfl
@[simp] theorem Chip.modStar_sched (c : Chip) (f : Star → Star) : (c.modStar f).sched = c.sched := rfl
@[simp] theorem Chip.modStar_mem (c : Chip) (f : Star → Star) : (c.modStar f).mem = c.mem := rfl
@[simp] theorem Chip.modStar_tim (c : Chip) (f : Star → Star) : (c.modStar f).tim = c.tim := rfl
@[simp] theorem Chip.modStar_host (c : Chip) (f : Star → Star) : (c.modStar f).host = c.host := rfl
@[simp] theorem Chip.modStar_hiLatch (c : Chip) (f : Star → Star) : (c.modStar f).hiLatch = c.hiLatch := rfl
@[simp] theorem Chip.modStar_lastFire (c : Chip) (f : Star → Star) : (c.modStar f).lastFire = c.lastFire := rfl
@[simp] theorem Chip.modStar_draws (c : Chip) (f : Star → Star) : (c.modStar f).draws = c.draws := rfl
@[simp] theorem Chip.modStar_stepReq (c : Chip) (f : Star → Star) : (c.modStar f).stepReq = c.stepReq := rfl
@[simp] theorem Chip.modStar_golden (c : Chip) (f : Star → Star) : (c.modStar f).golden = c.golden := rfl
@[simp] theorem Chip.modStar_stf (c : Chip) (f : Star → Star) : (c.modStar f).stf = c.stf := rfl
@[simp] theorem Chip.modStar_armFaults (c : Chip) (f : Star → Star) : (c.modStar f).armFaults = c.armFaults := rfl
@[simp] theorem Chip.modStar_allFault (c : Chip) (f : Star → Star) : (c.modStar f).allFault = c.allFault := rfl
@[simp] theorem Chip.modStar_wantDegraded (c : Chip) (f : Star → Star) : (c.modStar f).wantDegraded = c.wantDegraded := rfl
@[simp] theorem Chip.modStar_wantSafe (c : Chip) (f : Star → Star) : (c.modStar f).wantSafe = c.wantSafe := rfl
@[simp] theorem Chip.modStar_wantRun (c : Chip) (f : Star → Star) : (c.modStar f).wantRun = c.wantRun := rfl
@[simp] theorem Chip.modStar_fbk (c : Chip) (f : Star → Star) : (c.modStar f).fbk = c.fbk := rfl
@[simp] theorem Chip.modStar_lpe (c : Chip) (f : Star → Star) : (c.modStar f).lpe = c.lpe := rfl
@[simp] theorem Chip.modStar_prf (c : Chip) (f : Star → Star) : (c.modStar f).prf = c.prf := rfl
@[simp] theorem Chip.modStar_ring (c : Chip) (f : Star → Star) : (c.modStar f).ring = c.ring := rfl
@[simp] theorem Chip.modStar_twin (c : Chip) (f : Star → Star) : (c.modStar f).twin = c.twin := rfl
@[simp] theorem Chip.modStar_sep (c : Chip) (f : Star → Star) : (c.modStar f).sep = c.sep := rfl
@[simp] theorem Chip.modStar_nextTick (c : Chip) (f : Star → Star) : (c.modStar f).nextTick = c.nextTick := rfl
@[simp] theorem Chip.modStar_hlt (c : Chip) (f : Star → Star) : (c.modStar f).hlt = c.hlt := rfl
@[simp] theorem Chip.modStar_eth (c : Chip) (f : Star → Star) : (c.modStar f).eth = c.eth := rfl
@[simp] theorem Chip.modStar_dio (c : Chip) (f : Star → Star) : (c.modStar f).dio = c.dio := rfl
@[simp] theorem Chip.modStar_autorun (c : Chip) (f : Star → Star) : (c.modStar f).autorun = c.autorun := rfl
@[simp] theorem Chip.modStar_standbyAt (c : Chip) (f : Star → Star) : (c.modStar f).standbyAt = c.standbyAt := rfl
@[simp] theorem Chip.modStar_wdFrom (c : Chip) (f : Star → Star) : (c.modStar f).wdFrom = c.wdFrom := rfl
@[simp] theorem Chip.modStar_cfgFrom (c : Chip) (f : Star → Star) : (c.modStar f).cfgFrom = c.cfgFrom := rfl
@[simp] theorem Chip.modStar_bootGo (c : Chip) (f : Star → Star) : (c.modStar f).bootGo = c.bootGo := rfl
@[simp] theorem Chip.modStar_byRom (c : Chip) (f : Star → Star) : (c.modStar f).byRom = c.byRom := rfl
@[simp] theorem Chip.modStar_orderHeld (c : Chip) (f : Star → Star) : (c.modStar f).orderHeld = c.orderHeld := rfl
@[simp] theorem Chip.modStar_resetReq (c : Chip) (f : Star → Star) : (c.modStar f).resetReq = c.resetReq := rfl
@[simp] theorem Chip.modStar_spsReq (c : Chip) (f : Star → Star) : (c.modStar f).spsReq = c.spsReq := rfl
@[simp] theorem Chip.modStar_snapAt (c : Chip) (f : Star → Star) : (c.modStar f).snapAt = c.snapAt := rfl
@[simp] theorem Chip.modStar_snapImg (c : Chip) (f : Star → Star) : (c.modStar f).snapImg = c.snapImg := rfl
@[simp] theorem Chip.modStar_snapTo (c : Chip) (f : Star → Star) : (c.modStar f).snapTo = c.snapTo := rfl
@[simp] theorem Chip.modStar_dwr (c : Chip) (f : Star → Star) : (c.modStar f).dwr = c.dwr := rfl
@[simp] theorem Chip.modRing_regs (c : Chip) (f : Ring → Ring) : (c.modRing f).regs = c.regs := rfl
@[simp] theorem Chip.modRing_cells (c : Chip) (f : Ring → Ring) : (c.modRing f).cells = c.cells := rfl
@[simp] theorem Chip.modRing_flash (c : Chip) (f : Ring → Ring) : (c.modRing f).flash = c.flash := rfl
@[simp] theorem Chip.modRing_modState (c : Chip) (f : Ring → Ring) : (c.modRing f).modState = c.modState := rfl
@[simp] theorem Chip.modRing_tick (c : Chip) (f : Ring → Ring) : (c.modRing f).tick = c.tick := rfl
@[simp] theorem Chip.modRing_ticked (c : Chip) (f : Ring → Ring) : (c.modRing f).ticked = c.ticked := rfl
@[simp] theorem Chip.modRing_ticking (c : Chip) (f : Ring → Ring) : (c.modRing f).ticking = c.ticking := rfl
@[simp] theorem Chip.modRing_pods (c : Chip) (f : Ring → Ring) : (c.modRing f).pods = c.pods := rfl
@[simp] theorem Chip.modRing_sched (c : Chip) (f : Ring → Ring) : (c.modRing f).sched = c.sched := rfl
@[simp] theorem Chip.modRing_mem (c : Chip) (f : Ring → Ring) : (c.modRing f).mem = c.mem := rfl
@[simp] theorem Chip.modRing_tim (c : Chip) (f : Ring → Ring) : (c.modRing f).tim = c.tim := rfl
@[simp] theorem Chip.modRing_host (c : Chip) (f : Ring → Ring) : (c.modRing f).host = c.host := rfl
@[simp] theorem Chip.modRing_hiLatch (c : Chip) (f : Ring → Ring) : (c.modRing f).hiLatch = c.hiLatch := rfl
@[simp] theorem Chip.modRing_lastFire (c : Chip) (f : Ring → Ring) : (c.modRing f).lastFire = c.lastFire := rfl
@[simp] theorem Chip.modRing_draws (c : Chip) (f : Ring → Ring) : (c.modRing f).draws = c.draws := rfl
@[simp] theorem Chip.modRing_stepReq (c : Chip) (f : Ring → Ring) : (c.modRing f).stepReq = c.stepReq := rfl
@[simp] theorem Chip.modRing_golden (c : Chip) (f : Ring → Ring) : (c.modRing f).golden = c.golden := rfl
@[simp] theorem Chip.modRing_stf (c : Chip) (f : Ring → Ring) : (c.modRing f).stf = c.stf := rfl
@[simp] theorem Chip.modRing_armFaults (c : Chip) (f : Ring → Ring) : (c.modRing f).armFaults = c.armFaults := rfl
@[simp] theorem Chip.modRing_allFault (c : Chip) (f : Ring → Ring) : (c.modRing f).allFault = c.allFault := rfl
@[simp] theorem Chip.modRing_wantDegraded (c : Chip) (f : Ring → Ring) : (c.modRing f).wantDegraded = c.wantDegraded := rfl
@[simp] theorem Chip.modRing_wantSafe (c : Chip) (f : Ring → Ring) : (c.modRing f).wantSafe = c.wantSafe := rfl
@[simp] theorem Chip.modRing_wantRun (c : Chip) (f : Ring → Ring) : (c.modRing f).wantRun = c.wantRun := rfl
@[simp] theorem Chip.modRing_fbk (c : Chip) (f : Ring → Ring) : (c.modRing f).fbk = c.fbk := rfl
@[simp] theorem Chip.modRing_lpe (c : Chip) (f : Ring → Ring) : (c.modRing f).lpe = c.lpe := rfl
@[simp] theorem Chip.modRing_prf (c : Chip) (f : Ring → Ring) : (c.modRing f).prf = c.prf := rfl
@[simp] theorem Chip.modRing_star (c : Chip) (f : Ring → Ring) : (c.modRing f).star = c.star := rfl
@[simp] theorem Chip.modRing_twin (c : Chip) (f : Ring → Ring) : (c.modRing f).twin = c.twin := rfl
@[simp] theorem Chip.modRing_sep (c : Chip) (f : Ring → Ring) : (c.modRing f).sep = c.sep := rfl
@[simp] theorem Chip.modRing_nextTick (c : Chip) (f : Ring → Ring) : (c.modRing f).nextTick = c.nextTick := rfl
@[simp] theorem Chip.modRing_hlt (c : Chip) (f : Ring → Ring) : (c.modRing f).hlt = c.hlt := rfl
@[simp] theorem Chip.modRing_eth (c : Chip) (f : Ring → Ring) : (c.modRing f).eth = c.eth := rfl
@[simp] theorem Chip.modRing_dio (c : Chip) (f : Ring → Ring) : (c.modRing f).dio = c.dio := rfl
@[simp] theorem Chip.modRing_autorun (c : Chip) (f : Ring → Ring) : (c.modRing f).autorun = c.autorun := rfl
@[simp] theorem Chip.modRing_standbyAt (c : Chip) (f : Ring → Ring) : (c.modRing f).standbyAt = c.standbyAt := rfl
@[simp] theorem Chip.modRing_wdFrom (c : Chip) (f : Ring → Ring) : (c.modRing f).wdFrom = c.wdFrom := rfl
@[simp] theorem Chip.modRing_cfgFrom (c : Chip) (f : Ring → Ring) : (c.modRing f).cfgFrom = c.cfgFrom := rfl
@[simp] theorem Chip.modRing_bootGo (c : Chip) (f : Ring → Ring) : (c.modRing f).bootGo = c.bootGo := rfl
@[simp] theorem Chip.modRing_byRom (c : Chip) (f : Ring → Ring) : (c.modRing f).byRom = c.byRom := rfl
@[simp] theorem Chip.modRing_orderHeld (c : Chip) (f : Ring → Ring) : (c.modRing f).orderHeld = c.orderHeld := rfl
@[simp] theorem Chip.modRing_resetReq (c : Chip) (f : Ring → Ring) : (c.modRing f).resetReq = c.resetReq := rfl
@[simp] theorem Chip.modRing_spsReq (c : Chip) (f : Ring → Ring) : (c.modRing f).spsReq = c.spsReq := rfl
@[simp] theorem Chip.modRing_snapAt (c : Chip) (f : Ring → Ring) : (c.modRing f).snapAt = c.snapAt := rfl
@[simp] theorem Chip.modRing_snapImg (c : Chip) (f : Ring → Ring) : (c.modRing f).snapImg = c.snapImg := rfl
@[simp] theorem Chip.modRing_snapTo (c : Chip) (f : Ring → Ring) : (c.modRing f).snapTo = c.snapTo := rfl
@[simp] theorem Chip.modRing_dwr (c : Chip) (f : Ring → Ring) : (c.modRing f).dwr = c.dwr := rfl
@[simp] theorem Chip.modTwin_regs (c : Chip) (f : Twin → Twin) : (c.modTwin f).regs = c.regs := rfl
@[simp] theorem Chip.modTwin_cells (c : Chip) (f : Twin → Twin) : (c.modTwin f).cells = c.cells := rfl
@[simp] theorem Chip.modTwin_flash (c : Chip) (f : Twin → Twin) : (c.modTwin f).flash = c.flash := rfl
@[simp] theorem Chip.modTwin_modState (c : Chip) (f : Twin → Twin) : (c.modTwin f).modState = c.modState := rfl
@[simp] theorem Chip.modTwin_tick (c : Chip) (f : Twin → Twin) : (c.modTwin f).tick = c.tick := rfl
@[simp] theorem Chip.modTwin_ticked (c : Chip) (f : Twin → Twin) : (c.modTwin f).ticked = c.ticked := rfl
@[simp] theorem Chip.modTwin_ticking (c : Chip) (f : Twin → Twin) : (c.modTwin f).ticking = c.ticking := rfl
@[simp] theorem Chip.modTwin_pods (c : Chip) (f : Twin → Twin) : (c.modTwin f).pods = c.pods := rfl
@[simp] theorem Chip.modTwin_sched (c : Chip) (f : Twin → Twin) : (c.modTwin f).sched = c.sched := rfl
@[simp] theorem Chip.modTwin_mem (c : Chip) (f : Twin → Twin) : (c.modTwin f).mem = c.mem := rfl
@[simp] theorem Chip.modTwin_tim (c : Chip) (f : Twin → Twin) : (c.modTwin f).tim = c.tim := rfl
@[simp] theorem Chip.modTwin_host (c : Chip) (f : Twin → Twin) : (c.modTwin f).host = c.host := rfl
@[simp] theorem Chip.modTwin_hiLatch (c : Chip) (f : Twin → Twin) : (c.modTwin f).hiLatch = c.hiLatch := rfl
@[simp] theorem Chip.modTwin_lastFire (c : Chip) (f : Twin → Twin) : (c.modTwin f).lastFire = c.lastFire := rfl
@[simp] theorem Chip.modTwin_draws (c : Chip) (f : Twin → Twin) : (c.modTwin f).draws = c.draws := rfl
@[simp] theorem Chip.modTwin_stepReq (c : Chip) (f : Twin → Twin) : (c.modTwin f).stepReq = c.stepReq := rfl
@[simp] theorem Chip.modTwin_golden (c : Chip) (f : Twin → Twin) : (c.modTwin f).golden = c.golden := rfl
@[simp] theorem Chip.modTwin_stf (c : Chip) (f : Twin → Twin) : (c.modTwin f).stf = c.stf := rfl
@[simp] theorem Chip.modTwin_armFaults (c : Chip) (f : Twin → Twin) : (c.modTwin f).armFaults = c.armFaults := rfl
@[simp] theorem Chip.modTwin_allFault (c : Chip) (f : Twin → Twin) : (c.modTwin f).allFault = c.allFault := rfl
@[simp] theorem Chip.modTwin_wantDegraded (c : Chip) (f : Twin → Twin) : (c.modTwin f).wantDegraded = c.wantDegraded := rfl
@[simp] theorem Chip.modTwin_wantSafe (c : Chip) (f : Twin → Twin) : (c.modTwin f).wantSafe = c.wantSafe := rfl
@[simp] theorem Chip.modTwin_wantRun (c : Chip) (f : Twin → Twin) : (c.modTwin f).wantRun = c.wantRun := rfl
@[simp] theorem Chip.modTwin_fbk (c : Chip) (f : Twin → Twin) : (c.modTwin f).fbk = c.fbk := rfl
@[simp] theorem Chip.modTwin_lpe (c : Chip) (f : Twin → Twin) : (c.modTwin f).lpe = c.lpe := rfl
@[simp] theorem Chip.modTwin_prf (c : Chip) (f : Twin → Twin) : (c.modTwin f).prf = c.prf := rfl
@[simp] theorem Chip.modTwin_star (c : Chip) (f : Twin → Twin) : (c.modTwin f).star = c.star := rfl
@[simp] theorem Chip.modTwin_ring (c : Chip) (f : Twin → Twin) : (c.modTwin f).ring = c.ring := rfl
@[simp] theorem Chip.modTwin_sep (c : Chip) (f : Twin → Twin) : (c.modTwin f).sep = c.sep := rfl
@[simp] theorem Chip.modTwin_nextTick (c : Chip) (f : Twin → Twin) : (c.modTwin f).nextTick = c.nextTick := rfl
@[simp] theorem Chip.modTwin_hlt (c : Chip) (f : Twin → Twin) : (c.modTwin f).hlt = c.hlt := rfl
@[simp] theorem Chip.modTwin_eth (c : Chip) (f : Twin → Twin) : (c.modTwin f).eth = c.eth := rfl
@[simp] theorem Chip.modTwin_dio (c : Chip) (f : Twin → Twin) : (c.modTwin f).dio = c.dio := rfl
@[simp] theorem Chip.modTwin_autorun (c : Chip) (f : Twin → Twin) : (c.modTwin f).autorun = c.autorun := rfl
@[simp] theorem Chip.modTwin_standbyAt (c : Chip) (f : Twin → Twin) : (c.modTwin f).standbyAt = c.standbyAt := rfl
@[simp] theorem Chip.modTwin_wdFrom (c : Chip) (f : Twin → Twin) : (c.modTwin f).wdFrom = c.wdFrom := rfl
@[simp] theorem Chip.modTwin_cfgFrom (c : Chip) (f : Twin → Twin) : (c.modTwin f).cfgFrom = c.cfgFrom := rfl
@[simp] theorem Chip.modTwin_bootGo (c : Chip) (f : Twin → Twin) : (c.modTwin f).bootGo = c.bootGo := rfl
@[simp] theorem Chip.modTwin_byRom (c : Chip) (f : Twin → Twin) : (c.modTwin f).byRom = c.byRom := rfl
@[simp] theorem Chip.modTwin_orderHeld (c : Chip) (f : Twin → Twin) : (c.modTwin f).orderHeld = c.orderHeld := rfl
@[simp] theorem Chip.modTwin_resetReq (c : Chip) (f : Twin → Twin) : (c.modTwin f).resetReq = c.resetReq := rfl
@[simp] theorem Chip.modTwin_spsReq (c : Chip) (f : Twin → Twin) : (c.modTwin f).spsReq = c.spsReq := rfl
@[simp] theorem Chip.modTwin_snapAt (c : Chip) (f : Twin → Twin) : (c.modTwin f).snapAt = c.snapAt := rfl
@[simp] theorem Chip.modTwin_snapImg (c : Chip) (f : Twin → Twin) : (c.modTwin f).snapImg = c.snapImg := rfl
@[simp] theorem Chip.modTwin_snapTo (c : Chip) (f : Twin → Twin) : (c.modTwin f).snapTo = c.snapTo := rfl
@[simp] theorem Chip.modTwin_dwr (c : Chip) (f : Twin → Twin) : (c.modTwin f).dwr = c.dwr := rfl
@[simp] theorem Chip.modSep_regs (c : Chip) (f : Sep → Sep) : (c.modSep f).regs = c.regs := rfl
@[simp] theorem Chip.modSep_cells (c : Chip) (f : Sep → Sep) : (c.modSep f).cells = c.cells := rfl
@[simp] theorem Chip.modSep_flash (c : Chip) (f : Sep → Sep) : (c.modSep f).flash = c.flash := rfl
@[simp] theorem Chip.modSep_modState (c : Chip) (f : Sep → Sep) : (c.modSep f).modState = c.modState := rfl
@[simp] theorem Chip.modSep_tick (c : Chip) (f : Sep → Sep) : (c.modSep f).tick = c.tick := rfl
@[simp] theorem Chip.modSep_ticked (c : Chip) (f : Sep → Sep) : (c.modSep f).ticked = c.ticked := rfl
@[simp] theorem Chip.modSep_ticking (c : Chip) (f : Sep → Sep) : (c.modSep f).ticking = c.ticking := rfl
@[simp] theorem Chip.modSep_pods (c : Chip) (f : Sep → Sep) : (c.modSep f).pods = c.pods := rfl
@[simp] theorem Chip.modSep_sched (c : Chip) (f : Sep → Sep) : (c.modSep f).sched = c.sched := rfl
@[simp] theorem Chip.modSep_mem (c : Chip) (f : Sep → Sep) : (c.modSep f).mem = c.mem := rfl
@[simp] theorem Chip.modSep_tim (c : Chip) (f : Sep → Sep) : (c.modSep f).tim = c.tim := rfl
@[simp] theorem Chip.modSep_host (c : Chip) (f : Sep → Sep) : (c.modSep f).host = c.host := rfl
@[simp] theorem Chip.modSep_hiLatch (c : Chip) (f : Sep → Sep) : (c.modSep f).hiLatch = c.hiLatch := rfl
@[simp] theorem Chip.modSep_lastFire (c : Chip) (f : Sep → Sep) : (c.modSep f).lastFire = c.lastFire := rfl
@[simp] theorem Chip.modSep_draws (c : Chip) (f : Sep → Sep) : (c.modSep f).draws = c.draws := rfl
@[simp] theorem Chip.modSep_stepReq (c : Chip) (f : Sep → Sep) : (c.modSep f).stepReq = c.stepReq := rfl
@[simp] theorem Chip.modSep_golden (c : Chip) (f : Sep → Sep) : (c.modSep f).golden = c.golden := rfl
@[simp] theorem Chip.modSep_stf (c : Chip) (f : Sep → Sep) : (c.modSep f).stf = c.stf := rfl
@[simp] theorem Chip.modSep_armFaults (c : Chip) (f : Sep → Sep) : (c.modSep f).armFaults = c.armFaults := rfl
@[simp] theorem Chip.modSep_allFault (c : Chip) (f : Sep → Sep) : (c.modSep f).allFault = c.allFault := rfl
@[simp] theorem Chip.modSep_wantDegraded (c : Chip) (f : Sep → Sep) : (c.modSep f).wantDegraded = c.wantDegraded := rfl
@[simp] theorem Chip.modSep_wantSafe (c : Chip) (f : Sep → Sep) : (c.modSep f).wantSafe = c.wantSafe := rfl
@[simp] theorem Chip.modSep_wantRun (c : Chip) (f : Sep → Sep) : (c.modSep f).wantRun = c.wantRun := rfl
@[simp] theorem Chip.modSep_fbk (c : Chip) (f : Sep → Sep) : (c.modSep f).fbk = c.fbk := rfl
@[simp] theorem Chip.modSep_lpe (c : Chip) (f : Sep → Sep) : (c.modSep f).lpe = c.lpe := rfl
@[simp] theorem Chip.modSep_prf (c : Chip) (f : Sep → Sep) : (c.modSep f).prf = c.prf := rfl
@[simp] theorem Chip.modSep_star (c : Chip) (f : Sep → Sep) : (c.modSep f).star = c.star := rfl
@[simp] theorem Chip.modSep_ring (c : Chip) (f : Sep → Sep) : (c.modSep f).ring = c.ring := rfl
@[simp] theorem Chip.modSep_twin (c : Chip) (f : Sep → Sep) : (c.modSep f).twin = c.twin := rfl
@[simp] theorem Chip.modSep_nextTick (c : Chip) (f : Sep → Sep) : (c.modSep f).nextTick = c.nextTick := rfl
@[simp] theorem Chip.modSep_hlt (c : Chip) (f : Sep → Sep) : (c.modSep f).hlt = c.hlt := rfl
@[simp] theorem Chip.modSep_eth (c : Chip) (f : Sep → Sep) : (c.modSep f).eth = c.eth := rfl
@[simp] theorem Chip.modSep_dio (c : Chip) (f : Sep → Sep) : (c.modSep f).dio = c.dio := rfl
@[simp] theorem Chip.modSep_autorun (c : Chip) (f : Sep → Sep) : (c.modSep f).autorun = c.autorun := rfl
@[simp] theorem Chip.modSep_standbyAt (c : Chip) (f : Sep → Sep) : (c.modSep f).standbyAt = c.standbyAt := rfl
@[simp] theorem Chip.modSep_wdFrom (c : Chip) (f : Sep → Sep) : (c.modSep f).wdFrom = c.wdFrom := rfl
@[simp] theorem Chip.modSep_cfgFrom (c : Chip) (f : Sep → Sep) : (c.modSep f).cfgFrom = c.cfgFrom := rfl
@[simp] theorem Chip.modSep_bootGo (c : Chip) (f : Sep → Sep) : (c.modSep f).bootGo = c.bootGo := rfl
@[simp] theorem Chip.modSep_byRom (c : Chip) (f : Sep → Sep) : (c.modSep f).byRom = c.byRom := rfl
@[simp] theorem Chip.modSep_orderHeld (c : Chip) (f : Sep → Sep) : (c.modSep f).orderHeld = c.orderHeld := rfl
@[simp] theorem Chip.modSep_resetReq (c : Chip) (f : Sep → Sep) : (c.modSep f).resetReq = c.resetReq := rfl
@[simp] theorem Chip.modSep_spsReq (c : Chip) (f : Sep → Sep) : (c.modSep f).spsReq = c.spsReq := rfl
@[simp] theorem Chip.modSep_snapAt (c : Chip) (f : Sep → Sep) : (c.modSep f).snapAt = c.snapAt := rfl
@[simp] theorem Chip.modSep_snapImg (c : Chip) (f : Sep → Sep) : (c.modSep f).snapImg = c.snapImg := rfl
@[simp] theorem Chip.modSep_snapTo (c : Chip) (f : Sep → Sep) : (c.modSep f).snapTo = c.snapTo := rfl
@[simp] theorem Chip.modSep_dwr (c : Chip) (f : Sep → Sep) : (c.modSep f).dwr = c.dwr := rfl
@[simp] theorem Chip.modHlt_regs (c : Chip) (f : Hlt → Hlt) : (c.modHlt f).regs = c.regs := rfl
@[simp] theorem Chip.modHlt_cells (c : Chip) (f : Hlt → Hlt) : (c.modHlt f).cells = c.cells := rfl
@[simp] theorem Chip.modHlt_flash (c : Chip) (f : Hlt → Hlt) : (c.modHlt f).flash = c.flash := rfl
@[simp] theorem Chip.modHlt_modState (c : Chip) (f : Hlt → Hlt) : (c.modHlt f).modState = c.modState := rfl
@[simp] theorem Chip.modHlt_tick (c : Chip) (f : Hlt → Hlt) : (c.modHlt f).tick = c.tick := rfl
@[simp] theorem Chip.modHlt_ticked (c : Chip) (f : Hlt → Hlt) : (c.modHlt f).ticked = c.ticked := rfl
@[simp] theorem Chip.modHlt_ticking (c : Chip) (f : Hlt → Hlt) : (c.modHlt f).ticking = c.ticking := rfl
@[simp] theorem Chip.modHlt_pods (c : Chip) (f : Hlt → Hlt) : (c.modHlt f).pods = c.pods := rfl
@[simp] theorem Chip.modHlt_sched (c : Chip) (f : Hlt → Hlt) : (c.modHlt f).sched = c.sched := rfl
@[simp] theorem Chip.modHlt_mem (c : Chip) (f : Hlt → Hlt) : (c.modHlt f).mem = c.mem := rfl
@[simp] theorem Chip.modHlt_tim (c : Chip) (f : Hlt → Hlt) : (c.modHlt f).tim = c.tim := rfl
@[simp] theorem Chip.modHlt_host (c : Chip) (f : Hlt → Hlt) : (c.modHlt f).host = c.host := rfl
@[simp] theorem Chip.modHlt_hiLatch (c : Chip) (f : Hlt → Hlt) : (c.modHlt f).hiLatch = c.hiLatch := rfl
@[simp] theorem Chip.modHlt_lastFire (c : Chip) (f : Hlt → Hlt) : (c.modHlt f).lastFire = c.lastFire := rfl
@[simp] theorem Chip.modHlt_draws (c : Chip) (f : Hlt → Hlt) : (c.modHlt f).draws = c.draws := rfl
@[simp] theorem Chip.modHlt_stepReq (c : Chip) (f : Hlt → Hlt) : (c.modHlt f).stepReq = c.stepReq := rfl
@[simp] theorem Chip.modHlt_golden (c : Chip) (f : Hlt → Hlt) : (c.modHlt f).golden = c.golden := rfl
@[simp] theorem Chip.modHlt_stf (c : Chip) (f : Hlt → Hlt) : (c.modHlt f).stf = c.stf := rfl
@[simp] theorem Chip.modHlt_armFaults (c : Chip) (f : Hlt → Hlt) : (c.modHlt f).armFaults = c.armFaults := rfl
@[simp] theorem Chip.modHlt_allFault (c : Chip) (f : Hlt → Hlt) : (c.modHlt f).allFault = c.allFault := rfl
@[simp] theorem Chip.modHlt_wantDegraded (c : Chip) (f : Hlt → Hlt) : (c.modHlt f).wantDegraded = c.wantDegraded := rfl
@[simp] theorem Chip.modHlt_wantSafe (c : Chip) (f : Hlt → Hlt) : (c.modHlt f).wantSafe = c.wantSafe := rfl
@[simp] theorem Chip.modHlt_wantRun (c : Chip) (f : Hlt → Hlt) : (c.modHlt f).wantRun = c.wantRun := rfl
@[simp] theorem Chip.modHlt_fbk (c : Chip) (f : Hlt → Hlt) : (c.modHlt f).fbk = c.fbk := rfl
@[simp] theorem Chip.modHlt_lpe (c : Chip) (f : Hlt → Hlt) : (c.modHlt f).lpe = c.lpe := rfl
@[simp] theorem Chip.modHlt_prf (c : Chip) (f : Hlt → Hlt) : (c.modHlt f).prf = c.prf := rfl
@[simp] theorem Chip.modHlt_star (c : Chip) (f : Hlt → Hlt) : (c.modHlt f).star = c.star := rfl
@[simp] theorem Chip.modHlt_ring (c : Chip) (f : Hlt → Hlt) : (c.modHlt f).ring = c.ring := rfl
@[simp] theorem Chip.modHlt_twin (c : Chip) (f : Hlt → Hlt) : (c.modHlt f).twin = c.twin := rfl
@[simp] theorem Chip.modHlt_sep (c : Chip) (f : Hlt → Hlt) : (c.modHlt f).sep = c.sep := rfl
@[simp] theorem Chip.modHlt_nextTick (c : Chip) (f : Hlt → Hlt) : (c.modHlt f).nextTick = c.nextTick := rfl
@[simp] theorem Chip.modHlt_eth (c : Chip) (f : Hlt → Hlt) : (c.modHlt f).eth = c.eth := rfl
@[simp] theorem Chip.modHlt_dio (c : Chip) (f : Hlt → Hlt) : (c.modHlt f).dio = c.dio := rfl
@[simp] theorem Chip.modHlt_autorun (c : Chip) (f : Hlt → Hlt) : (c.modHlt f).autorun = c.autorun := rfl
@[simp] theorem Chip.modHlt_standbyAt (c : Chip) (f : Hlt → Hlt) : (c.modHlt f).standbyAt = c.standbyAt := rfl
@[simp] theorem Chip.modHlt_wdFrom (c : Chip) (f : Hlt → Hlt) : (c.modHlt f).wdFrom = c.wdFrom := rfl
@[simp] theorem Chip.modHlt_cfgFrom (c : Chip) (f : Hlt → Hlt) : (c.modHlt f).cfgFrom = c.cfgFrom := rfl
@[simp] theorem Chip.modHlt_bootGo (c : Chip) (f : Hlt → Hlt) : (c.modHlt f).bootGo = c.bootGo := rfl
@[simp] theorem Chip.modHlt_byRom (c : Chip) (f : Hlt → Hlt) : (c.modHlt f).byRom = c.byRom := rfl
@[simp] theorem Chip.modHlt_orderHeld (c : Chip) (f : Hlt → Hlt) : (c.modHlt f).orderHeld = c.orderHeld := rfl
@[simp] theorem Chip.modHlt_resetReq (c : Chip) (f : Hlt → Hlt) : (c.modHlt f).resetReq = c.resetReq := rfl
@[simp] theorem Chip.modHlt_spsReq (c : Chip) (f : Hlt → Hlt) : (c.modHlt f).spsReq = c.spsReq := rfl
@[simp] theorem Chip.modHlt_snapAt (c : Chip) (f : Hlt → Hlt) : (c.modHlt f).snapAt = c.snapAt := rfl
@[simp] theorem Chip.modHlt_snapImg (c : Chip) (f : Hlt → Hlt) : (c.modHlt f).snapImg = c.snapImg := rfl
@[simp] theorem Chip.modHlt_snapTo (c : Chip) (f : Hlt → Hlt) : (c.modHlt f).snapTo = c.snapTo := rfl
@[simp] theorem Chip.modHlt_dwr (c : Chip) (f : Hlt → Hlt) : (c.modHlt f).dwr = c.dwr := rfl
@[simp] theorem Chip.modDio_regs (c : Chip) (f : Dio → Dio) : (c.modDio f).regs = c.regs := rfl
@[simp] theorem Chip.modDio_cells (c : Chip) (f : Dio → Dio) : (c.modDio f).cells = c.cells := rfl
@[simp] theorem Chip.modDio_flash (c : Chip) (f : Dio → Dio) : (c.modDio f).flash = c.flash := rfl
@[simp] theorem Chip.modDio_modState (c : Chip) (f : Dio → Dio) : (c.modDio f).modState = c.modState := rfl
@[simp] theorem Chip.modDio_tick (c : Chip) (f : Dio → Dio) : (c.modDio f).tick = c.tick := rfl
@[simp] theorem Chip.modDio_ticked (c : Chip) (f : Dio → Dio) : (c.modDio f).ticked = c.ticked := rfl
@[simp] theorem Chip.modDio_ticking (c : Chip) (f : Dio → Dio) : (c.modDio f).ticking = c.ticking := rfl
@[simp] theorem Chip.modDio_pods (c : Chip) (f : Dio → Dio) : (c.modDio f).pods = c.pods := rfl
@[simp] theorem Chip.modDio_sched (c : Chip) (f : Dio → Dio) : (c.modDio f).sched = c.sched := rfl
@[simp] theorem Chip.modDio_mem (c : Chip) (f : Dio → Dio) : (c.modDio f).mem = c.mem := rfl
@[simp] theorem Chip.modDio_tim (c : Chip) (f : Dio → Dio) : (c.modDio f).tim = c.tim := rfl
@[simp] theorem Chip.modDio_host (c : Chip) (f : Dio → Dio) : (c.modDio f).host = c.host := rfl
@[simp] theorem Chip.modDio_hiLatch (c : Chip) (f : Dio → Dio) : (c.modDio f).hiLatch = c.hiLatch := rfl
@[simp] theorem Chip.modDio_lastFire (c : Chip) (f : Dio → Dio) : (c.modDio f).lastFire = c.lastFire := rfl
@[simp] theorem Chip.modDio_draws (c : Chip) (f : Dio → Dio) : (c.modDio f).draws = c.draws := rfl
@[simp] theorem Chip.modDio_stepReq (c : Chip) (f : Dio → Dio) : (c.modDio f).stepReq = c.stepReq := rfl
@[simp] theorem Chip.modDio_golden (c : Chip) (f : Dio → Dio) : (c.modDio f).golden = c.golden := rfl
@[simp] theorem Chip.modDio_stf (c : Chip) (f : Dio → Dio) : (c.modDio f).stf = c.stf := rfl
@[simp] theorem Chip.modDio_armFaults (c : Chip) (f : Dio → Dio) : (c.modDio f).armFaults = c.armFaults := rfl
@[simp] theorem Chip.modDio_allFault (c : Chip) (f : Dio → Dio) : (c.modDio f).allFault = c.allFault := rfl
@[simp] theorem Chip.modDio_wantDegraded (c : Chip) (f : Dio → Dio) : (c.modDio f).wantDegraded = c.wantDegraded := rfl
@[simp] theorem Chip.modDio_wantSafe (c : Chip) (f : Dio → Dio) : (c.modDio f).wantSafe = c.wantSafe := rfl
@[simp] theorem Chip.modDio_wantRun (c : Chip) (f : Dio → Dio) : (c.modDio f).wantRun = c.wantRun := rfl
@[simp] theorem Chip.modDio_fbk (c : Chip) (f : Dio → Dio) : (c.modDio f).fbk = c.fbk := rfl
@[simp] theorem Chip.modDio_lpe (c : Chip) (f : Dio → Dio) : (c.modDio f).lpe = c.lpe := rfl
@[simp] theorem Chip.modDio_prf (c : Chip) (f : Dio → Dio) : (c.modDio f).prf = c.prf := rfl
@[simp] theorem Chip.modDio_star (c : Chip) (f : Dio → Dio) : (c.modDio f).star = c.star := rfl
@[simp] theorem Chip.modDio_ring (c : Chip) (f : Dio → Dio) : (c.modDio f).ring = c.ring := rfl
@[simp] theorem Chip.modDio_twin (c : Chip) (f : Dio → Dio) : (c.modDio f).twin = c.twin := rfl
@[simp] theorem Chip.modDio_sep (c : Chip) (f : Dio → Dio) : (c.modDio f).sep = c.sep := rfl
@[simp] theorem Chip.modDio_nextTick (c : Chip) (f : Dio → Dio) : (c.modDio f).nextTick = c.nextTick := rfl
@[simp] theorem Chip.modDio_hlt (c : Chip) (f : Dio → Dio) : (c.modDio f).hlt = c.hlt := rfl
@[simp] theorem Chip.modDio_eth (c : Chip) (f : Dio → Dio) : (c.modDio f).eth = c.eth := rfl
@[simp] theorem Chip.modDio_autorun (c : Chip) (f : Dio → Dio) : (c.modDio f).autorun = c.autorun := rfl
@[simp] theorem Chip.modDio_standbyAt (c : Chip) (f : Dio → Dio) : (c.modDio f).standbyAt = c.standbyAt := rfl
@[simp] theorem Chip.modDio_wdFrom (c : Chip) (f : Dio → Dio) : (c.modDio f).wdFrom = c.wdFrom := rfl
@[simp] theorem Chip.modDio_cfgFrom (c : Chip) (f : Dio → Dio) : (c.modDio f).cfgFrom = c.cfgFrom := rfl
@[simp] theorem Chip.modDio_bootGo (c : Chip) (f : Dio → Dio) : (c.modDio f).bootGo = c.bootGo := rfl
@[simp] theorem Chip.modDio_byRom (c : Chip) (f : Dio → Dio) : (c.modDio f).byRom = c.byRom := rfl
@[simp] theorem Chip.modDio_orderHeld (c : Chip) (f : Dio → Dio) : (c.modDio f).orderHeld = c.orderHeld := rfl
@[simp] theorem Chip.modDio_resetReq (c : Chip) (f : Dio → Dio) : (c.modDio f).resetReq = c.resetReq := rfl
@[simp] theorem Chip.modDio_spsReq (c : Chip) (f : Dio → Dio) : (c.modDio f).spsReq = c.spsReq := rfl
@[simp] theorem Chip.modDio_snapAt (c : Chip) (f : Dio → Dio) : (c.modDio f).snapAt = c.snapAt := rfl
@[simp] theorem Chip.modDio_snapImg (c : Chip) (f : Dio → Dio) : (c.modDio f).snapImg = c.snapImg := rfl
@[simp] theorem Chip.modDio_snapTo (c : Chip) (f : Dio → Dio) : (c.modDio f).snapTo = c.snapTo := rfl
@[simp] theorem Chip.modDio_dwr (c : Chip) (f : Dio → Dio) : (c.modDio f).dwr = c.dwr := rfl
@[simp] theorem Chip.modEth_regs (c : Chip) (f : Eth → Eth) : (c.modEth f).regs = c.regs := rfl
@[simp] theorem Chip.modEth_cells (c : Chip) (f : Eth → Eth) : (c.modEth f).cells = c.cells := rfl
@[simp] theorem Chip.modEth_flash (c : Chip) (f : Eth → Eth) : (c.modEth f).flash = c.flash := rfl
@[simp] theorem Chip.modEth_modState (c : Chip) (f : Eth → Eth) : (c.modEth f).modState = c.modState := rfl
@[simp] theorem Chip.modEth_tick (c : Chip) (f : Eth → Eth) : (c.modEth f).tick = c.tick := rfl
@[simp] theorem Chip.modEth_ticked (c : Chip) (f : Eth → Eth) : (c.modEth f).ticked = c.ticked := rfl
@[simp] theorem Chip.modEth_ticking (c : Chip) (f : Eth → Eth) : (c.modEth f).ticking = c.ticking := rfl
@[simp] theorem Chip.modEth_pods (c : Chip) (f : Eth → Eth) : (c.modEth f).pods = c.pods := rfl
@[simp] theorem Chip.modEth_sched (c : Chip) (f : Eth → Eth) : (c.modEth f).sched = c.sched := rfl
@[simp] theorem Chip.modEth_mem (c : Chip) (f : Eth → Eth) : (c.modEth f).mem = c.mem := rfl
@[simp] theorem Chip.modEth_tim (c : Chip) (f : Eth → Eth) : (c.modEth f).tim = c.tim := rfl
@[simp] theorem Chip.modEth_host (c : Chip) (f : Eth → Eth) : (c.modEth f).host = c.host := rfl
@[simp] theorem Chip.modEth_hiLatch (c : Chip) (f : Eth → Eth) : (c.modEth f).hiLatch = c.hiLatch := rfl
@[simp] theorem Chip.modEth_lastFire (c : Chip) (f : Eth → Eth) : (c.modEth f).lastFire = c.lastFire := rfl
@[simp] theorem Chip.modEth_draws (c : Chip) (f : Eth → Eth) : (c.modEth f).draws = c.draws := rfl
@[simp] theorem Chip.modEth_stepReq (c : Chip) (f : Eth → Eth) : (c.modEth f).stepReq = c.stepReq := rfl
@[simp] theorem Chip.modEth_golden (c : Chip) (f : Eth → Eth) : (c.modEth f).golden = c.golden := rfl
@[simp] theorem Chip.modEth_stf (c : Chip) (f : Eth → Eth) : (c.modEth f).stf = c.stf := rfl
@[simp] theorem Chip.modEth_armFaults (c : Chip) (f : Eth → Eth) : (c.modEth f).armFaults = c.armFaults := rfl
@[simp] theorem Chip.modEth_allFault (c : Chip) (f : Eth → Eth) : (c.modEth f).allFault = c.allFault := rfl
@[simp] theorem Chip.modEth_wantDegraded (c : Chip) (f : Eth → Eth) : (c.modEth f).wantDegraded = c.wantDegraded := rfl
@[simp] theorem Chip.modEth_wantSafe (c : Chip) (f : Eth → Eth) : (c.modEth f).wantSafe = c.wantSafe := rfl
@[simp] theorem Chip.modEth_wantRun (c : Chip) (f : Eth → Eth) : (c.modEth f).wantRun = c.wantRun := rfl
@[simp] theorem Chip.modEth_fbk (c : Chip) (f : Eth → Eth) : (c.modEth f).fbk = c.fbk := rfl
@[simp] theorem Chip.modEth_lpe (c : Chip) (f : Eth → Eth) : (c.modEth f).lpe = c.lpe := rfl
@[simp] theorem Chip.modEth_prf (c : Chip) (f : Eth → Eth) : (c.modEth f).prf = c.prf := rfl
@[simp] theorem Chip.modEth_star (c : Chip) (f : Eth → Eth) : (c.modEth f).star = c.star := rfl
@[simp] theorem Chip.modEth_ring (c : Chip) (f : Eth → Eth) : (c.modEth f).ring = c.ring := rfl
@[simp] theorem Chip.modEth_twin (c : Chip) (f : Eth → Eth) : (c.modEth f).twin = c.twin := rfl
@[simp] theorem Chip.modEth_sep (c : Chip) (f : Eth → Eth) : (c.modEth f).sep = c.sep := rfl
@[simp] theorem Chip.modEth_nextTick (c : Chip) (f : Eth → Eth) : (c.modEth f).nextTick = c.nextTick := rfl
@[simp] theorem Chip.modEth_hlt (c : Chip) (f : Eth → Eth) : (c.modEth f).hlt = c.hlt := rfl
@[simp] theorem Chip.modEth_dio (c : Chip) (f : Eth → Eth) : (c.modEth f).dio = c.dio := rfl
@[simp] theorem Chip.modEth_autorun (c : Chip) (f : Eth → Eth) : (c.modEth f).autorun = c.autorun := rfl
@[simp] theorem Chip.modEth_standbyAt (c : Chip) (f : Eth → Eth) : (c.modEth f).standbyAt = c.standbyAt := rfl
@[simp] theorem Chip.modEth_wdFrom (c : Chip) (f : Eth → Eth) : (c.modEth f).wdFrom = c.wdFrom := rfl
@[simp] theorem Chip.modEth_cfgFrom (c : Chip) (f : Eth → Eth) : (c.modEth f).cfgFrom = c.cfgFrom := rfl
@[simp] theorem Chip.modEth_bootGo (c : Chip) (f : Eth → Eth) : (c.modEth f).bootGo = c.bootGo := rfl
@[simp] theorem Chip.modEth_byRom (c : Chip) (f : Eth → Eth) : (c.modEth f).byRom = c.byRom := rfl
@[simp] theorem Chip.modEth_orderHeld (c : Chip) (f : Eth → Eth) : (c.modEth f).orderHeld = c.orderHeld := rfl
@[simp] theorem Chip.modEth_resetReq (c : Chip) (f : Eth → Eth) : (c.modEth f).resetReq = c.resetReq := rfl
@[simp] theorem Chip.modEth_spsReq (c : Chip) (f : Eth → Eth) : (c.modEth f).spsReq = c.spsReq := rfl
@[simp] theorem Chip.modEth_snapAt (c : Chip) (f : Eth → Eth) : (c.modEth f).snapAt = c.snapAt := rfl
@[simp] theorem Chip.modEth_snapImg (c : Chip) (f : Eth → Eth) : (c.modEth f).snapImg = c.snapImg := rfl
@[simp] theorem Chip.modEth_snapTo (c : Chip) (f : Eth → Eth) : (c.modEth f).snapTo = c.snapTo := rfl
@[simp] theorem Chip.modEth_dwr (c : Chip) (f : Eth → Eth) : (c.modEth f).dwr = c.dwr := rfl

/-! ## Fields and bits of registers -/

@[simp] theorem Chip.setF_cells (c : Chip) (off hi lo v : Nat) : (c.setF off hi lo v).cells = c.cells := rfl
@[simp] theorem Chip.setF_flash (c : Chip) (off hi lo v : Nat) : (c.setF off hi lo v).flash = c.flash := rfl
@[simp] theorem Chip.setF_modState (c : Chip) (off hi lo v : Nat) : (c.setF off hi lo v).modState = c.modState := rfl
@[simp] theorem Chip.setF_tick (c : Chip) (off hi lo v : Nat) : (c.setF off hi lo v).tick = c.tick := rfl
@[simp] theorem Chip.setF_ticked (c : Chip) (off hi lo v : Nat) : (c.setF off hi lo v).ticked = c.ticked := rfl
@[simp] theorem Chip.setF_ticking (c : Chip) (off hi lo v : Nat) : (c.setF off hi lo v).ticking = c.ticking := rfl
@[simp] theorem Chip.setF_pods (c : Chip) (off hi lo v : Nat) : (c.setF off hi lo v).pods = c.pods := rfl
@[simp] theorem Chip.setF_sched (c : Chip) (off hi lo v : Nat) : (c.setF off hi lo v).sched = c.sched := rfl
@[simp] theorem Chip.setF_mem (c : Chip) (off hi lo v : Nat) : (c.setF off hi lo v).mem = c.mem := rfl
@[simp] theorem Chip.setF_tim (c : Chip) (off hi lo v : Nat) : (c.setF off hi lo v).tim = c.tim := rfl
@[simp] theorem Chip.setF_host (c : Chip) (off hi lo v : Nat) : (c.setF off hi lo v).host = c.host := rfl
@[simp] theorem Chip.setF_hiLatch (c : Chip) (off hi lo v : Nat) : (c.setF off hi lo v).hiLatch = c.hiLatch := rfl
@[simp] theorem Chip.setF_lastFire (c : Chip) (off hi lo v : Nat) : (c.setF off hi lo v).lastFire = c.lastFire := rfl
@[simp] theorem Chip.setF_draws (c : Chip) (off hi lo v : Nat) : (c.setF off hi lo v).draws = c.draws := rfl
@[simp] theorem Chip.setF_stepReq (c : Chip) (off hi lo v : Nat) : (c.setF off hi lo v).stepReq = c.stepReq := rfl
@[simp] theorem Chip.setF_golden (c : Chip) (off hi lo v : Nat) : (c.setF off hi lo v).golden = c.golden := rfl
@[simp] theorem Chip.setF_stf (c : Chip) (off hi lo v : Nat) : (c.setF off hi lo v).stf = c.stf := rfl
@[simp] theorem Chip.setF_armFaults (c : Chip) (off hi lo v : Nat) : (c.setF off hi lo v).armFaults = c.armFaults := rfl
@[simp] theorem Chip.setF_allFault (c : Chip) (off hi lo v : Nat) : (c.setF off hi lo v).allFault = c.allFault := rfl
@[simp] theorem Chip.setF_wantDegraded (c : Chip) (off hi lo v : Nat) : (c.setF off hi lo v).wantDegraded = c.wantDegraded := rfl
@[simp] theorem Chip.setF_wantSafe (c : Chip) (off hi lo v : Nat) : (c.setF off hi lo v).wantSafe = c.wantSafe := rfl
@[simp] theorem Chip.setF_wantRun (c : Chip) (off hi lo v : Nat) : (c.setF off hi lo v).wantRun = c.wantRun := rfl
@[simp] theorem Chip.setF_fbk (c : Chip) (off hi lo v : Nat) : (c.setF off hi lo v).fbk = c.fbk := rfl
@[simp] theorem Chip.setF_lpe (c : Chip) (off hi lo v : Nat) : (c.setF off hi lo v).lpe = c.lpe := rfl
@[simp] theorem Chip.setF_prf (c : Chip) (off hi lo v : Nat) : (c.setF off hi lo v).prf = c.prf := rfl
@[simp] theorem Chip.setF_star (c : Chip) (off hi lo v : Nat) : (c.setF off hi lo v).star = c.star := rfl
@[simp] theorem Chip.setF_ring (c : Chip) (off hi lo v : Nat) : (c.setF off hi lo v).ring = c.ring := rfl
@[simp] theorem Chip.setF_twin (c : Chip) (off hi lo v : Nat) : (c.setF off hi lo v).twin = c.twin := rfl
@[simp] theorem Chip.setF_sep (c : Chip) (off hi lo v : Nat) : (c.setF off hi lo v).sep = c.sep := rfl
@[simp] theorem Chip.setF_nextTick (c : Chip) (off hi lo v : Nat) : (c.setF off hi lo v).nextTick = c.nextTick := rfl
@[simp] theorem Chip.setF_hlt (c : Chip) (off hi lo v : Nat) : (c.setF off hi lo v).hlt = c.hlt := rfl
@[simp] theorem Chip.setF_eth (c : Chip) (off hi lo v : Nat) : (c.setF off hi lo v).eth = c.eth := rfl
@[simp] theorem Chip.setF_dio (c : Chip) (off hi lo v : Nat) : (c.setF off hi lo v).dio = c.dio := rfl
@[simp] theorem Chip.setF_autorun (c : Chip) (off hi lo v : Nat) : (c.setF off hi lo v).autorun = c.autorun := rfl
@[simp] theorem Chip.setF_standbyAt (c : Chip) (off hi lo v : Nat) : (c.setF off hi lo v).standbyAt = c.standbyAt := rfl
@[simp] theorem Chip.setF_wdFrom (c : Chip) (off hi lo v : Nat) : (c.setF off hi lo v).wdFrom = c.wdFrom := rfl
@[simp] theorem Chip.setF_cfgFrom (c : Chip) (off hi lo v : Nat) : (c.setF off hi lo v).cfgFrom = c.cfgFrom := rfl
@[simp] theorem Chip.setF_bootGo (c : Chip) (off hi lo v : Nat) : (c.setF off hi lo v).bootGo = c.bootGo := rfl
@[simp] theorem Chip.setF_byRom (c : Chip) (off hi lo v : Nat) : (c.setF off hi lo v).byRom = c.byRom := rfl
@[simp] theorem Chip.setF_orderHeld (c : Chip) (off hi lo v : Nat) : (c.setF off hi lo v).orderHeld = c.orderHeld := rfl
@[simp] theorem Chip.setF_resetReq (c : Chip) (off hi lo v : Nat) : (c.setF off hi lo v).resetReq = c.resetReq := rfl
@[simp] theorem Chip.setF_spsReq (c : Chip) (off hi lo v : Nat) : (c.setF off hi lo v).spsReq = c.spsReq := rfl
@[simp] theorem Chip.setF_snapAt (c : Chip) (off hi lo v : Nat) : (c.setF off hi lo v).snapAt = c.snapAt := rfl
@[simp] theorem Chip.setF_snapImg (c : Chip) (off hi lo v : Nat) : (c.setF off hi lo v).snapImg = c.snapImg := rfl
@[simp] theorem Chip.setF_snapTo (c : Chip) (off hi lo v : Nat) : (c.setF off hi lo v).snapTo = c.snapTo := rfl
@[simp] theorem Chip.setF_dwr (c : Chip) (off hi lo v : Nat) : (c.setF off hi lo v).dwr = c.dwr := rfl
@[simp] theorem Chip.setB_cells (c : Chip) (off i : Nat) (b : Bool) : (c.setB off i b).cells = c.cells := rfl
@[simp] theorem Chip.setB_flash (c : Chip) (off i : Nat) (b : Bool) : (c.setB off i b).flash = c.flash := rfl
@[simp] theorem Chip.setB_modState (c : Chip) (off i : Nat) (b : Bool) : (c.setB off i b).modState = c.modState := rfl
@[simp] theorem Chip.setB_tick (c : Chip) (off i : Nat) (b : Bool) : (c.setB off i b).tick = c.tick := rfl
@[simp] theorem Chip.setB_ticked (c : Chip) (off i : Nat) (b : Bool) : (c.setB off i b).ticked = c.ticked := rfl
@[simp] theorem Chip.setB_ticking (c : Chip) (off i : Nat) (b : Bool) : (c.setB off i b).ticking = c.ticking := rfl
@[simp] theorem Chip.setB_pods (c : Chip) (off i : Nat) (b : Bool) : (c.setB off i b).pods = c.pods := rfl
@[simp] theorem Chip.setB_sched (c : Chip) (off i : Nat) (b : Bool) : (c.setB off i b).sched = c.sched := rfl
@[simp] theorem Chip.setB_mem (c : Chip) (off i : Nat) (b : Bool) : (c.setB off i b).mem = c.mem := rfl
@[simp] theorem Chip.setB_tim (c : Chip) (off i : Nat) (b : Bool) : (c.setB off i b).tim = c.tim := rfl
@[simp] theorem Chip.setB_host (c : Chip) (off i : Nat) (b : Bool) : (c.setB off i b).host = c.host := rfl
@[simp] theorem Chip.setB_hiLatch (c : Chip) (off i : Nat) (b : Bool) : (c.setB off i b).hiLatch = c.hiLatch := rfl
@[simp] theorem Chip.setB_lastFire (c : Chip) (off i : Nat) (b : Bool) : (c.setB off i b).lastFire = c.lastFire := rfl
@[simp] theorem Chip.setB_draws (c : Chip) (off i : Nat) (b : Bool) : (c.setB off i b).draws = c.draws := rfl
@[simp] theorem Chip.setB_stepReq (c : Chip) (off i : Nat) (b : Bool) : (c.setB off i b).stepReq = c.stepReq := rfl
@[simp] theorem Chip.setB_golden (c : Chip) (off i : Nat) (b : Bool) : (c.setB off i b).golden = c.golden := rfl
@[simp] theorem Chip.setB_stf (c : Chip) (off i : Nat) (b : Bool) : (c.setB off i b).stf = c.stf := rfl
@[simp] theorem Chip.setB_armFaults (c : Chip) (off i : Nat) (b : Bool) : (c.setB off i b).armFaults = c.armFaults := rfl
@[simp] theorem Chip.setB_allFault (c : Chip) (off i : Nat) (b : Bool) : (c.setB off i b).allFault = c.allFault := rfl
@[simp] theorem Chip.setB_wantDegraded (c : Chip) (off i : Nat) (b : Bool) : (c.setB off i b).wantDegraded = c.wantDegraded := rfl
@[simp] theorem Chip.setB_wantSafe (c : Chip) (off i : Nat) (b : Bool) : (c.setB off i b).wantSafe = c.wantSafe := rfl
@[simp] theorem Chip.setB_wantRun (c : Chip) (off i : Nat) (b : Bool) : (c.setB off i b).wantRun = c.wantRun := rfl
@[simp] theorem Chip.setB_fbk (c : Chip) (off i : Nat) (b : Bool) : (c.setB off i b).fbk = c.fbk := rfl
@[simp] theorem Chip.setB_lpe (c : Chip) (off i : Nat) (b : Bool) : (c.setB off i b).lpe = c.lpe := rfl
@[simp] theorem Chip.setB_prf (c : Chip) (off i : Nat) (b : Bool) : (c.setB off i b).prf = c.prf := rfl
@[simp] theorem Chip.setB_star (c : Chip) (off i : Nat) (b : Bool) : (c.setB off i b).star = c.star := rfl
@[simp] theorem Chip.setB_ring (c : Chip) (off i : Nat) (b : Bool) : (c.setB off i b).ring = c.ring := rfl
@[simp] theorem Chip.setB_twin (c : Chip) (off i : Nat) (b : Bool) : (c.setB off i b).twin = c.twin := rfl
@[simp] theorem Chip.setB_sep (c : Chip) (off i : Nat) (b : Bool) : (c.setB off i b).sep = c.sep := rfl
@[simp] theorem Chip.setB_nextTick (c : Chip) (off i : Nat) (b : Bool) : (c.setB off i b).nextTick = c.nextTick := rfl
@[simp] theorem Chip.setB_hlt (c : Chip) (off i : Nat) (b : Bool) : (c.setB off i b).hlt = c.hlt := rfl
@[simp] theorem Chip.setB_eth (c : Chip) (off i : Nat) (b : Bool) : (c.setB off i b).eth = c.eth := rfl
@[simp] theorem Chip.setB_dio (c : Chip) (off i : Nat) (b : Bool) : (c.setB off i b).dio = c.dio := rfl
@[simp] theorem Chip.setB_autorun (c : Chip) (off i : Nat) (b : Bool) : (c.setB off i b).autorun = c.autorun := rfl
@[simp] theorem Chip.setB_standbyAt (c : Chip) (off i : Nat) (b : Bool) : (c.setB off i b).standbyAt = c.standbyAt := rfl
@[simp] theorem Chip.setB_wdFrom (c : Chip) (off i : Nat) (b : Bool) : (c.setB off i b).wdFrom = c.wdFrom := rfl
@[simp] theorem Chip.setB_cfgFrom (c : Chip) (off i : Nat) (b : Bool) : (c.setB off i b).cfgFrom = c.cfgFrom := rfl
@[simp] theorem Chip.setB_bootGo (c : Chip) (off i : Nat) (b : Bool) : (c.setB off i b).bootGo = c.bootGo := rfl
@[simp] theorem Chip.setB_byRom (c : Chip) (off i : Nat) (b : Bool) : (c.setB off i b).byRom = c.byRom := rfl
@[simp] theorem Chip.setB_orderHeld (c : Chip) (off i : Nat) (b : Bool) : (c.setB off i b).orderHeld = c.orderHeld := rfl
@[simp] theorem Chip.setB_resetReq (c : Chip) (off i : Nat) (b : Bool) : (c.setB off i b).resetReq = c.resetReq := rfl
@[simp] theorem Chip.setB_spsReq (c : Chip) (off i : Nat) (b : Bool) : (c.setB off i b).spsReq = c.spsReq := rfl
@[simp] theorem Chip.setB_snapAt (c : Chip) (off i : Nat) (b : Bool) : (c.setB off i b).snapAt = c.snapAt := rfl
@[simp] theorem Chip.setB_snapImg (c : Chip) (off i : Nat) (b : Bool) : (c.setB off i b).snapImg = c.snapImg := rfl
@[simp] theorem Chip.setB_snapTo (c : Chip) (off i : Nat) (b : Bool) : (c.setB off i b).snapTo = c.snapTo := rfl
@[simp] theorem Chip.setB_dwr (c : Chip) (off i : Nat) (b : Bool) : (c.setB off i b).dwr = c.dwr := rfl

/-! ## Pods -/

@[simp] theorem Pod.vset_pc (p : Pod) (r : Nat) (v : W128) : (p.vset r v).pc = p.pc := rfl
@[simp] theorem Pod.vset_sreg (p : Pod) (r : Nat) (v : W128) : (p.vset r v).sreg = p.sreg := rfl
@[simp] theorem Pod.vset_acc (p : Pod) (r : Nat) (v : W128) : (p.vset r v).acc = p.acc := rfl
@[simp] theorem Pod.vset_ag (p : Pod) (r : Nat) (v : W128) : (p.vset r v).ag = p.ag := rfl
@[simp] theorem Pod.vset_levels (p : Pod) (r : Nat) (v : W128) : (p.vset r v).levels = p.levels := rfl
@[simp] theorem Pod.vset_bounds (p : Pod) (r : Nat) (v : W128) : (p.vset r v).bounds = p.bounds := rfl
@[simp] theorem Pod.vset_pstat (p : Pod) (r : Nat) (v : W128) : (p.vset r v).pstat = p.pstat := rfl
@[simp] theorem Pod.vset_trapen (p : Pod) (r : Nat) (v : W128) : (p.vset r v).trapen = p.trapen := rfl
@[simp] theorem Pod.vset_epc (p : Pod) (r : Nat) (v : W128) : (p.vset r v).epc = p.epc := rfl
@[simp] theorem Pod.vset_ecause (p : Pod) (r : Nat) (v : W128) : (p.vset r v).ecause = p.ecause := rfl
@[simp] theorem Pod.vset_eaddr (p : Pod) (r : Nat) (v : W128) : (p.vset r v).eaddr = p.eaddr := rfl
@[simp] theorem Pod.vset_erep (p : Pod) (r : Nat) (v : W128) : (p.vset r v).erep = p.erep := rfl
@[simp] theorem Pod.vset_esprout (p : Pod) (r : Nat) (v : W128) : (p.vset r v).esprout = p.esprout := rfl
@[simp] theorem Pod.vset_agstat (p : Pod) (r : Nat) (v : W128) : (p.vset r v).agstat = p.agstat := rfl
@[simp] theorem Pod.vset_started (p : Pod) (r : Nat) (v : W128) : (p.vset r v).started = p.started := rfl
@[simp] theorem Pod.vset_cyc (p : Pod) (r : Nat) (v : W128) : (p.vset r v).cyc = p.cyc := rfl
@[simp] theorem Pod.vset_state (p : Pod) (r : Nat) (v : W128) : (p.vset r v).state = p.state := rfl
@[simp] theorem Pod.vset_run (p : Pod) (r : Nat) (v : W128) : (p.vset r v).run = p.run := rfl
@[simp] theorem Pod.vset_lastCause (p : Pod) (r : Nat) (v : W128) : (p.vset r v).lastCause = p.lastCause := rfl
@[simp] theorem Pod.vset_slots (p : Pod) (r : Nat) (v : W128) : (p.vset r v).slots = p.slots := rfl
@[simp] theorem Pod.vset_stamp (p : Pod) (r : Nat) (v : W128) : (p.vset r v).stamp = p.stamp := rfl
@[simp] theorem Pod.vset_accept (p : Pod) (r : Nat) (v : W128) : (p.vset r v).accept = p.accept := rfl
@[simp] theorem Pod.vset_getRd (p : Pod) (r : Nat) (v : W128) : (p.vset r v).getRd = p.getRd := rfl
@[simp] theorem Pod.vset_waking (p : Pod) (r : Nat) (v : W128) : (p.vset r v).waking = p.waking := rfl
@[simp] theorem Pod.vset_loads (p : Pod) (r : Nat) (v : W128) : (p.vset r v).loads = p.loads := rfl
@[simp] theorem Pod.vset_stores (p : Pod) (r : Nat) (v : W128) : (p.vset r v).stores = p.stores := rfl
@[simp] theorem Pod.vset_toSched (p : Pod) (r : Nat) (v : W128) : (p.vset r v).toSched = p.toSched := rfl
@[simp] theorem Pod.vset_pendOverrun (p : Pod) (r : Nat) (v : W128) : (p.vset r v).pendOverrun = p.pendOverrun := rfl
@[simp] theorem Pod.vset_pendFlag (p : Pod) (r : Nat) (v : W128) : (p.vset r v).pendFlag = p.pendFlag := rfl
@[simp] theorem Pod.vset_pendRestart (p : Pod) (r : Nat) (v : W128) : (p.vset r v).pendRestart = p.pendRestart := rfl
@[simp] theorem Pod.accSet_pc (p : Pod) (n : Nat) (v : W80) : (p.accSet n v).pc = p.pc := rfl
@[simp] theorem Pod.accSet_sreg (p : Pod) (n : Nat) (v : W80) : (p.accSet n v).sreg = p.sreg := rfl
@[simp] theorem Pod.accSet_vreg (p : Pod) (n : Nat) (v : W80) : (p.accSet n v).vreg = p.vreg := rfl
@[simp] theorem Pod.accSet_ag (p : Pod) (n : Nat) (v : W80) : (p.accSet n v).ag = p.ag := rfl
@[simp] theorem Pod.accSet_levels (p : Pod) (n : Nat) (v : W80) : (p.accSet n v).levels = p.levels := rfl
@[simp] theorem Pod.accSet_bounds (p : Pod) (n : Nat) (v : W80) : (p.accSet n v).bounds = p.bounds := rfl
@[simp] theorem Pod.accSet_pstat (p : Pod) (n : Nat) (v : W80) : (p.accSet n v).pstat = p.pstat := rfl
@[simp] theorem Pod.accSet_trapen (p : Pod) (n : Nat) (v : W80) : (p.accSet n v).trapen = p.trapen := rfl
@[simp] theorem Pod.accSet_epc (p : Pod) (n : Nat) (v : W80) : (p.accSet n v).epc = p.epc := rfl
@[simp] theorem Pod.accSet_ecause (p : Pod) (n : Nat) (v : W80) : (p.accSet n v).ecause = p.ecause := rfl
@[simp] theorem Pod.accSet_eaddr (p : Pod) (n : Nat) (v : W80) : (p.accSet n v).eaddr = p.eaddr := rfl
@[simp] theorem Pod.accSet_erep (p : Pod) (n : Nat) (v : W80) : (p.accSet n v).erep = p.erep := rfl
@[simp] theorem Pod.accSet_esprout (p : Pod) (n : Nat) (v : W80) : (p.accSet n v).esprout = p.esprout := rfl
@[simp] theorem Pod.accSet_agstat (p : Pod) (n : Nat) (v : W80) : (p.accSet n v).agstat = p.agstat := rfl
@[simp] theorem Pod.accSet_started (p : Pod) (n : Nat) (v : W80) : (p.accSet n v).started = p.started := rfl
@[simp] theorem Pod.accSet_cyc (p : Pod) (n : Nat) (v : W80) : (p.accSet n v).cyc = p.cyc := rfl
@[simp] theorem Pod.accSet_state (p : Pod) (n : Nat) (v : W80) : (p.accSet n v).state = p.state := rfl
@[simp] theorem Pod.accSet_run (p : Pod) (n : Nat) (v : W80) : (p.accSet n v).run = p.run := rfl
@[simp] theorem Pod.accSet_lastCause (p : Pod) (n : Nat) (v : W80) : (p.accSet n v).lastCause = p.lastCause := rfl
@[simp] theorem Pod.accSet_slots (p : Pod) (n : Nat) (v : W80) : (p.accSet n v).slots = p.slots := rfl
@[simp] theorem Pod.accSet_stamp (p : Pod) (n : Nat) (v : W80) : (p.accSet n v).stamp = p.stamp := rfl
@[simp] theorem Pod.accSet_accept (p : Pod) (n : Nat) (v : W80) : (p.accSet n v).accept = p.accept := rfl
@[simp] theorem Pod.accSet_getRd (p : Pod) (n : Nat) (v : W80) : (p.accSet n v).getRd = p.getRd := rfl
@[simp] theorem Pod.accSet_waking (p : Pod) (n : Nat) (v : W80) : (p.accSet n v).waking = p.waking := rfl
@[simp] theorem Pod.accSet_loads (p : Pod) (n : Nat) (v : W80) : (p.accSet n v).loads = p.loads := rfl
@[simp] theorem Pod.accSet_stores (p : Pod) (n : Nat) (v : W80) : (p.accSet n v).stores = p.stores := rfl
@[simp] theorem Pod.accSet_toSched (p : Pod) (n : Nat) (v : W80) : (p.accSet n v).toSched = p.toSched := rfl
@[simp] theorem Pod.accSet_pendOverrun (p : Pod) (n : Nat) (v : W80) : (p.accSet n v).pendOverrun = p.pendOverrun := rfl
@[simp] theorem Pod.accSet_pendFlag (p : Pod) (n : Nat) (v : W80) : (p.accSet n v).pendFlag = p.pendFlag := rfl
@[simp] theorem Pod.accSet_pendRestart (p : Pod) (n : Nat) (v : W80) : (p.accSet n v).pendRestart = p.pendRestart := rfl
@[simp] theorem Pod.agSet_pc (p : Pod) (k : Nat) (g : AddrGen) : (p.agSet k g).pc = p.pc := rfl
@[simp] theorem Pod.agSet_sreg (p : Pod) (k : Nat) (g : AddrGen) : (p.agSet k g).sreg = p.sreg := rfl
@[simp] theorem Pod.agSet_vreg (p : Pod) (k : Nat) (g : AddrGen) : (p.agSet k g).vreg = p.vreg := rfl
@[simp] theorem Pod.agSet_acc (p : Pod) (k : Nat) (g : AddrGen) : (p.agSet k g).acc = p.acc := rfl
@[simp] theorem Pod.agSet_levels (p : Pod) (k : Nat) (g : AddrGen) : (p.agSet k g).levels = p.levels := rfl
@[simp] theorem Pod.agSet_bounds (p : Pod) (k : Nat) (g : AddrGen) : (p.agSet k g).bounds = p.bounds := rfl
@[simp] theorem Pod.agSet_pstat (p : Pod) (k : Nat) (g : AddrGen) : (p.agSet k g).pstat = p.pstat := rfl
@[simp] theorem Pod.agSet_trapen (p : Pod) (k : Nat) (g : AddrGen) : (p.agSet k g).trapen = p.trapen := rfl
@[simp] theorem Pod.agSet_epc (p : Pod) (k : Nat) (g : AddrGen) : (p.agSet k g).epc = p.epc := rfl
@[simp] theorem Pod.agSet_ecause (p : Pod) (k : Nat) (g : AddrGen) : (p.agSet k g).ecause = p.ecause := rfl
@[simp] theorem Pod.agSet_eaddr (p : Pod) (k : Nat) (g : AddrGen) : (p.agSet k g).eaddr = p.eaddr := rfl
@[simp] theorem Pod.agSet_erep (p : Pod) (k : Nat) (g : AddrGen) : (p.agSet k g).erep = p.erep := rfl
@[simp] theorem Pod.agSet_esprout (p : Pod) (k : Nat) (g : AddrGen) : (p.agSet k g).esprout = p.esprout := rfl
@[simp] theorem Pod.agSet_agstat (p : Pod) (k : Nat) (g : AddrGen) : (p.agSet k g).agstat = p.agstat := rfl
@[simp] theorem Pod.agSet_started (p : Pod) (k : Nat) (g : AddrGen) : (p.agSet k g).started = p.started := rfl
@[simp] theorem Pod.agSet_cyc (p : Pod) (k : Nat) (g : AddrGen) : (p.agSet k g).cyc = p.cyc := rfl
@[simp] theorem Pod.agSet_state (p : Pod) (k : Nat) (g : AddrGen) : (p.agSet k g).state = p.state := rfl
@[simp] theorem Pod.agSet_run (p : Pod) (k : Nat) (g : AddrGen) : (p.agSet k g).run = p.run := rfl
@[simp] theorem Pod.agSet_lastCause (p : Pod) (k : Nat) (g : AddrGen) : (p.agSet k g).lastCause = p.lastCause := rfl
@[simp] theorem Pod.agSet_slots (p : Pod) (k : Nat) (g : AddrGen) : (p.agSet k g).slots = p.slots := rfl
@[simp] theorem Pod.agSet_stamp (p : Pod) (k : Nat) (g : AddrGen) : (p.agSet k g).stamp = p.stamp := rfl
@[simp] theorem Pod.agSet_accept (p : Pod) (k : Nat) (g : AddrGen) : (p.agSet k g).accept = p.accept := rfl
@[simp] theorem Pod.agSet_getRd (p : Pod) (k : Nat) (g : AddrGen) : (p.agSet k g).getRd = p.getRd := rfl
@[simp] theorem Pod.agSet_waking (p : Pod) (k : Nat) (g : AddrGen) : (p.agSet k g).waking = p.waking := rfl
@[simp] theorem Pod.agSet_loads (p : Pod) (k : Nat) (g : AddrGen) : (p.agSet k g).loads = p.loads := rfl
@[simp] theorem Pod.agSet_stores (p : Pod) (k : Nat) (g : AddrGen) : (p.agSet k g).stores = p.stores := rfl
@[simp] theorem Pod.agSet_toSched (p : Pod) (k : Nat) (g : AddrGen) : (p.agSet k g).toSched = p.toSched := rfl
@[simp] theorem Pod.agSet_pendOverrun (p : Pod) (k : Nat) (g : AddrGen) : (p.agSet k g).pendOverrun = p.pendOverrun := rfl
@[simp] theorem Pod.agSet_pendFlag (p : Pod) (k : Nat) (g : AddrGen) : (p.agSet k g).pendFlag = p.pendFlag := rfl
@[simp] theorem Pod.agSet_pendRestart (p : Pod) (k : Nat) (g : AddrGen) : (p.agSet k g).pendRestart = p.pendRestart := rfl
@[simp] theorem Pod.setSlot_pc (p : Pod) (k : Nat) (x : Option Slot) : (p.setSlot k x).pc = p.pc := rfl
@[simp] theorem Pod.setSlot_sreg (p : Pod) (k : Nat) (x : Option Slot) : (p.setSlot k x).sreg = p.sreg := rfl
@[simp] theorem Pod.setSlot_vreg (p : Pod) (k : Nat) (x : Option Slot) : (p.setSlot k x).vreg = p.vreg := rfl
@[simp] theorem Pod.setSlot_acc (p : Pod) (k : Nat) (x : Option Slot) : (p.setSlot k x).acc = p.acc := rfl
@[simp] theorem Pod.setSlot_ag (p : Pod) (k : Nat) (x : Option Slot) : (p.setSlot k x).ag = p.ag := rfl
@[simp] theorem Pod.setSlot_levels (p : Pod) (k : Nat) (x : Option Slot) : (p.setSlot k x).levels = p.levels := rfl
@[simp] theorem Pod.setSlot_bounds (p : Pod) (k : Nat) (x : Option Slot) : (p.setSlot k x).bounds = p.bounds := rfl
@[simp] theorem Pod.setSlot_pstat (p : Pod) (k : Nat) (x : Option Slot) : (p.setSlot k x).pstat = p.pstat := rfl
@[simp] theorem Pod.setSlot_trapen (p : Pod) (k : Nat) (x : Option Slot) : (p.setSlot k x).trapen = p.trapen := rfl
@[simp] theorem Pod.setSlot_epc (p : Pod) (k : Nat) (x : Option Slot) : (p.setSlot k x).epc = p.epc := rfl
@[simp] theorem Pod.setSlot_ecause (p : Pod) (k : Nat) (x : Option Slot) : (p.setSlot k x).ecause = p.ecause := rfl
@[simp] theorem Pod.setSlot_eaddr (p : Pod) (k : Nat) (x : Option Slot) : (p.setSlot k x).eaddr = p.eaddr := rfl
@[simp] theorem Pod.setSlot_erep (p : Pod) (k : Nat) (x : Option Slot) : (p.setSlot k x).erep = p.erep := rfl
@[simp] theorem Pod.setSlot_esprout (p : Pod) (k : Nat) (x : Option Slot) : (p.setSlot k x).esprout = p.esprout := rfl
@[simp] theorem Pod.setSlot_agstat (p : Pod) (k : Nat) (x : Option Slot) : (p.setSlot k x).agstat = p.agstat := rfl
@[simp] theorem Pod.setSlot_started (p : Pod) (k : Nat) (x : Option Slot) : (p.setSlot k x).started = p.started := rfl
@[simp] theorem Pod.setSlot_cyc (p : Pod) (k : Nat) (x : Option Slot) : (p.setSlot k x).cyc = p.cyc := rfl
@[simp] theorem Pod.setSlot_state (p : Pod) (k : Nat) (x : Option Slot) : (p.setSlot k x).state = p.state := rfl
@[simp] theorem Pod.setSlot_run (p : Pod) (k : Nat) (x : Option Slot) : (p.setSlot k x).run = p.run := rfl
@[simp] theorem Pod.setSlot_lastCause (p : Pod) (k : Nat) (x : Option Slot) : (p.setSlot k x).lastCause = p.lastCause := rfl
@[simp] theorem Pod.setSlot_stamp (p : Pod) (k : Nat) (x : Option Slot) : (p.setSlot k x).stamp = p.stamp := rfl
@[simp] theorem Pod.setSlot_accept (p : Pod) (k : Nat) (x : Option Slot) : (p.setSlot k x).accept = p.accept := rfl
@[simp] theorem Pod.setSlot_getRd (p : Pod) (k : Nat) (x : Option Slot) : (p.setSlot k x).getRd = p.getRd := rfl
@[simp] theorem Pod.setSlot_waking (p : Pod) (k : Nat) (x : Option Slot) : (p.setSlot k x).waking = p.waking := rfl
@[simp] theorem Pod.setSlot_loads (p : Pod) (k : Nat) (x : Option Slot) : (p.setSlot k x).loads = p.loads := rfl
@[simp] theorem Pod.setSlot_stores (p : Pod) (k : Nat) (x : Option Slot) : (p.setSlot k x).stores = p.stores := rfl
@[simp] theorem Pod.setSlot_toSched (p : Pod) (k : Nat) (x : Option Slot) : (p.setSlot k x).toSched = p.toSched := rfl
@[simp] theorem Pod.setSlot_pendOverrun (p : Pod) (k : Nat) (x : Option Slot) : (p.setSlot k x).pendOverrun = p.pendOverrun := rfl
@[simp] theorem Pod.setSlot_pendFlag (p : Pod) (k : Nat) (x : Option Slot) : (p.setSlot k x).pendFlag = p.pendFlag := rfl
@[simp] theorem Pod.setSlot_pendRestart (p : Pod) (k : Nat) (x : Option Slot) : (p.setSlot k x).pendRestart = p.pendRestart := rfl
@[simp] theorem Pod.sset_pc (p : Pod) (r : Nat) (v : W64) : (p.sset r v).pc = p.pc := by unfold Pod.sset; split <;> rfl
@[simp] theorem Pod.sset_vreg (p : Pod) (r : Nat) (v : W64) : (p.sset r v).vreg = p.vreg := by unfold Pod.sset; split <;> rfl
@[simp] theorem Pod.sset_acc (p : Pod) (r : Nat) (v : W64) : (p.sset r v).acc = p.acc := by unfold Pod.sset; split <;> rfl
@[simp] theorem Pod.sset_ag (p : Pod) (r : Nat) (v : W64) : (p.sset r v).ag = p.ag := by unfold Pod.sset; split <;> rfl
@[simp] theorem Pod.sset_levels (p : Pod) (r : Nat) (v : W64) : (p.sset r v).levels = p.levels := by unfold Pod.sset; split <;> rfl
@[simp] theorem Pod.sset_bounds (p : Pod) (r : Nat) (v : W64) : (p.sset r v).bounds = p.bounds := by unfold Pod.sset; split <;> rfl
@[simp] theorem Pod.sset_pstat (p : Pod) (r : Nat) (v : W64) : (p.sset r v).pstat = p.pstat := by unfold Pod.sset; split <;> rfl
@[simp] theorem Pod.sset_trapen (p : Pod) (r : Nat) (v : W64) : (p.sset r v).trapen = p.trapen := by unfold Pod.sset; split <;> rfl
@[simp] theorem Pod.sset_epc (p : Pod) (r : Nat) (v : W64) : (p.sset r v).epc = p.epc := by unfold Pod.sset; split <;> rfl
@[simp] theorem Pod.sset_ecause (p : Pod) (r : Nat) (v : W64) : (p.sset r v).ecause = p.ecause := by unfold Pod.sset; split <;> rfl
@[simp] theorem Pod.sset_eaddr (p : Pod) (r : Nat) (v : W64) : (p.sset r v).eaddr = p.eaddr := by unfold Pod.sset; split <;> rfl
@[simp] theorem Pod.sset_erep (p : Pod) (r : Nat) (v : W64) : (p.sset r v).erep = p.erep := by unfold Pod.sset; split <;> rfl
@[simp] theorem Pod.sset_esprout (p : Pod) (r : Nat) (v : W64) : (p.sset r v).esprout = p.esprout := by unfold Pod.sset; split <;> rfl
@[simp] theorem Pod.sset_agstat (p : Pod) (r : Nat) (v : W64) : (p.sset r v).agstat = p.agstat := by unfold Pod.sset; split <;> rfl
@[simp] theorem Pod.sset_started (p : Pod) (r : Nat) (v : W64) : (p.sset r v).started = p.started := by unfold Pod.sset; split <;> rfl
@[simp] theorem Pod.sset_cyc (p : Pod) (r : Nat) (v : W64) : (p.sset r v).cyc = p.cyc := by unfold Pod.sset; split <;> rfl
@[simp] theorem Pod.sset_state (p : Pod) (r : Nat) (v : W64) : (p.sset r v).state = p.state := by unfold Pod.sset; split <;> rfl
@[simp] theorem Pod.sset_run (p : Pod) (r : Nat) (v : W64) : (p.sset r v).run = p.run := by unfold Pod.sset; split <;> rfl
@[simp] theorem Pod.sset_lastCause (p : Pod) (r : Nat) (v : W64) : (p.sset r v).lastCause = p.lastCause := by unfold Pod.sset; split <;> rfl
@[simp] theorem Pod.sset_slots (p : Pod) (r : Nat) (v : W64) : (p.sset r v).slots = p.slots := by unfold Pod.sset; split <;> rfl
@[simp] theorem Pod.sset_stamp (p : Pod) (r : Nat) (v : W64) : (p.sset r v).stamp = p.stamp := by unfold Pod.sset; split <;> rfl
@[simp] theorem Pod.sset_accept (p : Pod) (r : Nat) (v : W64) : (p.sset r v).accept = p.accept := by unfold Pod.sset; split <;> rfl
@[simp] theorem Pod.sset_getRd (p : Pod) (r : Nat) (v : W64) : (p.sset r v).getRd = p.getRd := by unfold Pod.sset; split <;> rfl
@[simp] theorem Pod.sset_waking (p : Pod) (r : Nat) (v : W64) : (p.sset r v).waking = p.waking := by unfold Pod.sset; split <;> rfl
@[simp] theorem Pod.sset_loads (p : Pod) (r : Nat) (v : W64) : (p.sset r v).loads = p.loads := by unfold Pod.sset; split <;> rfl
@[simp] theorem Pod.sset_stores (p : Pod) (r : Nat) (v : W64) : (p.sset r v).stores = p.stores := by unfold Pod.sset; split <;> rfl
@[simp] theorem Pod.sset_toSched (p : Pod) (r : Nat) (v : W64) : (p.sset r v).toSched = p.toSched := by unfold Pod.sset; split <;> rfl
@[simp] theorem Pod.sset_pendOverrun (p : Pod) (r : Nat) (v : W64) : (p.sset r v).pendOverrun = p.pendOverrun := by unfold Pod.sset; split <;> rfl
@[simp] theorem Pod.sset_pendFlag (p : Pod) (r : Nat) (v : W64) : (p.sset r v).pendFlag = p.pendFlag := by unfold Pod.sset; split <;> rfl
@[simp] theorem Pod.sset_pendRestart (p : Pod) (r : Nat) (v : W64) : (p.sset r v).pendRestart = p.pendRestart := by unfold Pod.sset; split <;> rfl
@[simp] theorem Pod.flag_pc (p : Pod) (i : Nat) (b : Bool) : (p.flag i b).pc = p.pc := by unfold Pod.flag; split <;> rfl
@[simp] theorem Pod.flag_sreg (p : Pod) (i : Nat) (b : Bool) : (p.flag i b).sreg = p.sreg := by unfold Pod.flag; split <;> rfl
@[simp] theorem Pod.flag_vreg (p : Pod) (i : Nat) (b : Bool) : (p.flag i b).vreg = p.vreg := by unfold Pod.flag; split <;> rfl
@[simp] theorem Pod.flag_acc (p : Pod) (i : Nat) (b : Bool) : (p.flag i b).acc = p.acc := by unfold Pod.flag; split <;> rfl
@[simp] theorem Pod.flag_ag (p : Pod) (i : Nat) (b : Bool) : (p.flag i b).ag = p.ag := by unfold Pod.flag; split <;> rfl
@[simp] theorem Pod.flag_levels (p : Pod) (i : Nat) (b : Bool) : (p.flag i b).levels = p.levels := by unfold Pod.flag; split <;> rfl
@[simp] theorem Pod.flag_bounds (p : Pod) (i : Nat) (b : Bool) : (p.flag i b).bounds = p.bounds := by unfold Pod.flag; split <;> rfl
@[simp] theorem Pod.flag_trapen (p : Pod) (i : Nat) (b : Bool) : (p.flag i b).trapen = p.trapen := by unfold Pod.flag; split <;> rfl
@[simp] theorem Pod.flag_epc (p : Pod) (i : Nat) (b : Bool) : (p.flag i b).epc = p.epc := by unfold Pod.flag; split <;> rfl
@[simp] theorem Pod.flag_ecause (p : Pod) (i : Nat) (b : Bool) : (p.flag i b).ecause = p.ecause := by unfold Pod.flag; split <;> rfl
@[simp] theorem Pod.flag_eaddr (p : Pod) (i : Nat) (b : Bool) : (p.flag i b).eaddr = p.eaddr := by unfold Pod.flag; split <;> rfl
@[simp] theorem Pod.flag_erep (p : Pod) (i : Nat) (b : Bool) : (p.flag i b).erep = p.erep := by unfold Pod.flag; split <;> rfl
@[simp] theorem Pod.flag_esprout (p : Pod) (i : Nat) (b : Bool) : (p.flag i b).esprout = p.esprout := by unfold Pod.flag; split <;> rfl
@[simp] theorem Pod.flag_agstat (p : Pod) (i : Nat) (b : Bool) : (p.flag i b).agstat = p.agstat := by unfold Pod.flag; split <;> rfl
@[simp] theorem Pod.flag_started (p : Pod) (i : Nat) (b : Bool) : (p.flag i b).started = p.started := by unfold Pod.flag; split <;> rfl
@[simp] theorem Pod.flag_cyc (p : Pod) (i : Nat) (b : Bool) : (p.flag i b).cyc = p.cyc := by unfold Pod.flag; split <;> rfl
@[simp] theorem Pod.flag_state (p : Pod) (i : Nat) (b : Bool) : (p.flag i b).state = p.state := by unfold Pod.flag; split <;> rfl
@[simp] theorem Pod.flag_run (p : Pod) (i : Nat) (b : Bool) : (p.flag i b).run = p.run := by unfold Pod.flag; split <;> rfl
@[simp] theorem Pod.flag_lastCause (p : Pod) (i : Nat) (b : Bool) : (p.flag i b).lastCause = p.lastCause := by unfold Pod.flag; split <;> rfl
@[simp] theorem Pod.flag_slots (p : Pod) (i : Nat) (b : Bool) : (p.flag i b).slots = p.slots := by unfold Pod.flag; split <;> rfl
@[simp] theorem Pod.flag_stamp (p : Pod) (i : Nat) (b : Bool) : (p.flag i b).stamp = p.stamp := by unfold Pod.flag; split <;> rfl
@[simp] theorem Pod.flag_accept (p : Pod) (i : Nat) (b : Bool) : (p.flag i b).accept = p.accept := by unfold Pod.flag; split <;> rfl
@[simp] theorem Pod.flag_getRd (p : Pod) (i : Nat) (b : Bool) : (p.flag i b).getRd = p.getRd := by unfold Pod.flag; split <;> rfl
@[simp] theorem Pod.flag_waking (p : Pod) (i : Nat) (b : Bool) : (p.flag i b).waking = p.waking := by unfold Pod.flag; split <;> rfl
@[simp] theorem Pod.flag_loads (p : Pod) (i : Nat) (b : Bool) : (p.flag i b).loads = p.loads := by unfold Pod.flag; split <;> rfl
@[simp] theorem Pod.flag_stores (p : Pod) (i : Nat) (b : Bool) : (p.flag i b).stores = p.stores := by unfold Pod.flag; split <;> rfl
@[simp] theorem Pod.flag_toSched (p : Pod) (i : Nat) (b : Bool) : (p.flag i b).toSched = p.toSched := by unfold Pod.flag; split <;> rfl
@[simp] theorem Pod.flag_pendOverrun (p : Pod) (i : Nat) (b : Bool) : (p.flag i b).pendOverrun = p.pendOverrun := by unfold Pod.flag; split <;> rfl
@[simp] theorem Pod.flag_pendFlag (p : Pod) (i : Nat) (b : Bool) : (p.flag i b).pendFlag = p.pendFlag := by unfold Pod.flag; split <;> rfl
@[simp] theorem Pod.flag_pendRestart (p : Pod) (i : Nat) (b : Bool) : (p.flag i b).pendRestart = p.pendRestart := by unfold Pod.flag; split <;> rfl
@[simp] theorem Pod.retire_sreg (p : Pod) : p.retire.sreg = p.sreg := rfl
@[simp] theorem Pod.jump_sreg (p : Pod) (t : BitVec 16) : (p.jump t).sreg = p.sreg := rfl
@[simp] theorem Pod.retire_vreg (p : Pod) : p.retire.vreg = p.vreg := rfl
@[simp] theorem Pod.jump_vreg (p : Pod) (t : BitVec 16) : (p.jump t).vreg = p.vreg := rfl
@[simp] theorem Pod.retire_acc (p : Pod) : p.retire.acc = p.acc := rfl
@[simp] theorem Pod.jump_acc (p : Pod) (t : BitVec 16) : (p.jump t).acc = p.acc := rfl
@[simp] theorem Pod.retire_ag (p : Pod) : p.retire.ag = p.ag := rfl
@[simp] theorem Pod.jump_ag (p : Pod) (t : BitVec 16) : (p.jump t).ag = p.ag := rfl
@[simp] theorem Pod.retire_bounds (p : Pod) : p.retire.bounds = p.bounds := rfl
@[simp] theorem Pod.jump_bounds (p : Pod) (t : BitVec 16) : (p.jump t).bounds = p.bounds := rfl
@[simp] theorem Pod.retire_pstat (p : Pod) : p.retire.pstat = p.pstat := rfl
@[simp] theorem Pod.jump_pstat (p : Pod) (t : BitVec 16) : (p.jump t).pstat = p.pstat := rfl
@[simp] theorem Pod.retire_trapen (p : Pod) : p.retire.trapen = p.trapen := rfl
@[simp] theorem Pod.jump_trapen (p : Pod) (t : BitVec 16) : (p.jump t).trapen = p.trapen := rfl
@[simp] theorem Pod.retire_epc (p : Pod) : p.retire.epc = p.epc := rfl
@[simp] theorem Pod.jump_epc (p : Pod) (t : BitVec 16) : (p.jump t).epc = p.epc := rfl
@[simp] theorem Pod.retire_ecause (p : Pod) : p.retire.ecause = p.ecause := rfl
@[simp] theorem Pod.jump_ecause (p : Pod) (t : BitVec 16) : (p.jump t).ecause = p.ecause := rfl
@[simp] theorem Pod.retire_eaddr (p : Pod) : p.retire.eaddr = p.eaddr := rfl
@[simp] theorem Pod.jump_eaddr (p : Pod) (t : BitVec 16) : (p.jump t).eaddr = p.eaddr := rfl
@[simp] theorem Pod.retire_erep (p : Pod) : p.retire.erep = p.erep := rfl
@[simp] theorem Pod.jump_erep (p : Pod) (t : BitVec 16) : (p.jump t).erep = p.erep := rfl
@[simp] theorem Pod.retire_esprout (p : Pod) : p.retire.esprout = p.esprout := rfl
@[simp] theorem Pod.jump_esprout (p : Pod) (t : BitVec 16) : (p.jump t).esprout = p.esprout := rfl
@[simp] theorem Pod.retire_agstat (p : Pod) : p.retire.agstat = p.agstat := rfl
@[simp] theorem Pod.jump_agstat (p : Pod) (t : BitVec 16) : (p.jump t).agstat = p.agstat := rfl
@[simp] theorem Pod.retire_started (p : Pod) : p.retire.started = p.started := rfl
@[simp] theorem Pod.jump_started (p : Pod) (t : BitVec 16) : (p.jump t).started = p.started := rfl
@[simp] theorem Pod.retire_cyc (p : Pod) : p.retire.cyc = p.cyc := rfl
@[simp] theorem Pod.jump_cyc (p : Pod) (t : BitVec 16) : (p.jump t).cyc = p.cyc := rfl
@[simp] theorem Pod.retire_state (p : Pod) : p.retire.state = p.state := rfl
@[simp] theorem Pod.jump_state (p : Pod) (t : BitVec 16) : (p.jump t).state = p.state := rfl
@[simp] theorem Pod.retire_run (p : Pod) : p.retire.run = p.run := rfl
@[simp] theorem Pod.jump_run (p : Pod) (t : BitVec 16) : (p.jump t).run = p.run := rfl
@[simp] theorem Pod.retire_lastCause (p : Pod) : p.retire.lastCause = p.lastCause := rfl
@[simp] theorem Pod.jump_lastCause (p : Pod) (t : BitVec 16) : (p.jump t).lastCause = p.lastCause := rfl
@[simp] theorem Pod.retire_slots (p : Pod) : p.retire.slots = p.slots := rfl
@[simp] theorem Pod.jump_slots (p : Pod) (t : BitVec 16) : (p.jump t).slots = p.slots := rfl
@[simp] theorem Pod.retire_stamp (p : Pod) : p.retire.stamp = p.stamp := rfl
@[simp] theorem Pod.jump_stamp (p : Pod) (t : BitVec 16) : (p.jump t).stamp = p.stamp := rfl
@[simp] theorem Pod.retire_accept (p : Pod) : p.retire.accept = p.accept := rfl
@[simp] theorem Pod.jump_accept (p : Pod) (t : BitVec 16) : (p.jump t).accept = p.accept := rfl
@[simp] theorem Pod.retire_getRd (p : Pod) : p.retire.getRd = p.getRd := rfl
@[simp] theorem Pod.jump_getRd (p : Pod) (t : BitVec 16) : (p.jump t).getRd = p.getRd := rfl
@[simp] theorem Pod.retire_waking (p : Pod) : p.retire.waking = p.waking := rfl
@[simp] theorem Pod.jump_waking (p : Pod) (t : BitVec 16) : (p.jump t).waking = p.waking := rfl
@[simp] theorem Pod.retire_loads (p : Pod) : p.retire.loads = p.loads := rfl
@[simp] theorem Pod.jump_loads (p : Pod) (t : BitVec 16) : (p.jump t).loads = p.loads := rfl
@[simp] theorem Pod.retire_stores (p : Pod) : p.retire.stores = p.stores := rfl
@[simp] theorem Pod.jump_stores (p : Pod) (t : BitVec 16) : (p.jump t).stores = p.stores := rfl
@[simp] theorem Pod.retire_toSched (p : Pod) : p.retire.toSched = p.toSched := rfl
@[simp] theorem Pod.jump_toSched (p : Pod) (t : BitVec 16) : (p.jump t).toSched = p.toSched := rfl
@[simp] theorem Pod.retire_pendOverrun (p : Pod) : p.retire.pendOverrun = p.pendOverrun := rfl
@[simp] theorem Pod.jump_pendOverrun (p : Pod) (t : BitVec 16) : (p.jump t).pendOverrun = p.pendOverrun := rfl
@[simp] theorem Pod.retire_pendFlag (p : Pod) : p.retire.pendFlag = p.pendFlag := rfl
@[simp] theorem Pod.jump_pendFlag (p : Pod) (t : BitVec 16) : (p.jump t).pendFlag = p.pendFlag := rfl
@[simp] theorem Pod.retire_pendRestart (p : Pod) : p.retire.pendRestart = p.pendRestart := rfl
@[simp] theorem Pod.jump_pendRestart (p : Pod) (t : BitVec 16) : (p.jump t).pendRestart = p.pendRestart := rfl

/-! ## The state and its parts -/

@[simp] theorem State.withChip_chip (s : State) (c : Chip) : (s.withChip c).chip = c := rfl
@[simp] theorem State.withChip_husk (s : State) (c : Chip) : (s.withChip c).husk = s.husk := rfl
@[simp] theorem State.withChip_core (s : State) (c : Chip) : (s.withChip c).core = s.core := rfl
@[simp] theorem State.withChip_pending (s : State) (c : Chip) : (s.withChip c).pending = s.pending := rfl
@[simp] theorem State.withHusk_chip (s : State) (h : Husk) : (s.withHusk h).chip = s.chip := rfl
@[simp] theorem State.withHusk_husk (s : State) (h : Husk) : (s.withHusk h).husk = h := rfl
@[simp] theorem State.withHusk_core (s : State) (h : Husk) : (s.withHusk h).core = s.core := rfl
@[simp] theorem State.withHusk_pending (s : State) (h : Husk) : (s.withHusk h).pending = s.pending := rfl
@[simp] theorem State.withCore_chip (s : State) (k : SafetyCore) : (s.withCore k).chip = s.chip := rfl
@[simp] theorem State.withCore_husk (s : State) (k : SafetyCore) : (s.withCore k).husk = s.husk := rfl
@[simp] theorem State.withCore_core (s : State) (k : SafetyCore) : (s.withCore k).core = k := rfl
@[simp] theorem State.withCore_pending (s : State) (k : SafetyCore) : (s.withCore k).pending = s.pending := rfl

end Sys2Proof.Machine
end

