-- ==== Sys2Proof/Laws/Table.lean ====
section
/-!
SUPPORT. What the sparse tables do: a read after a write, and the canonical form that every write keeps.
-/
namespace Sys2Proof.Machine

/-- What stands after a key in a canonical table is canonical. -/
theorem tabAfter_wfAbove {α : Type} [DecidableEq α] (d : Nat → α) (k : Nat) :
    ∀ (t : Tab α) (lo : Nat), tabWfAbove d lo t = true → tabWfAbove d lo (tabAfter t k) = true := by
  intro t
  induction t with
  | nil => intro lo _; rfl
  | cons e t ih =>
    obtain ⟨k', v'⟩ := e
    intro lo hw
    by_cases c : k' ≤ k
    · simp only [tabAfter, c, if_true]
      simp only [tabWfAbove, Bool.and_eq_true, decide_eq_true_eq] at hw
      refine ih lo ?_
      cases t with
      | nil => rfl
      | cons e t =>
        simp only [tabWfAbove, Bool.and_eq_true, decide_eq_true_eq] at hw ⊢
        exact ⟨⟨by omega, hw.2.1.2⟩, hw.2.2⟩
    · simpa only [tabAfter, c, if_false] using hw

/-- A canonical table stays canonical above a lower bound that a write respects. -/
theorem tabPut_wfAbove {α : Type} [DecidableEq α] (d : Nat → α) (k : Nat) (v : α) :
    ∀ (t : Tab α) (lo : Nat), lo ≤ k → tabWfAbove d lo t = true → tabWfAbove d lo (tabPut d t k v) = true := by
  intro t
  induction t with
  | nil =>
    intro lo hk _
    by_cases h : v = d k <;> simp [tabPut, tabWfAbove, h, hk]
  | cons e t ih =>
    obtain ⟨k', v'⟩ := e
    intro lo hk hw
    have hw' := hw
    simp only [tabWfAbove, Bool.and_eq_true, decide_eq_true_eq] at hw
    obtain ⟨⟨h1, h2⟩, h3⟩ := hw
    by_cases c1 : k < k'
    · by_cases c2 : v = d k
      · simpa [tabPut, c1, c2] using hw'
      · have h4 : k + 1 ≤ k' := c1
        simp [tabPut, c1, c2, tabWfAbove, hk, h2, h3, h4]
    · by_cases c2 : k = k'
      · subst c2
        by_cases c3 : v = d k
        · simp only [tabPut, Nat.lt_irrefl, if_false, if_true, c3]
          refine tabAfter_wfAbove d k t lo ?_
          clear ih hw'
          cases t with
          | nil => rfl
          | cons e t =>
            simp only [tabWfAbove, Bool.and_eq_true, decide_eq_true_eq] at h3 ⊢
            exact ⟨⟨by omega, h3.1.2⟩, h3.2⟩
        · simp [tabPut, c3, tabWfAbove, hk, h3]
      · have h4 := ih (k' + 1) (by omega) h3
        simp [tabPut, c1, c2, tabWfAbove, h1, h2, h4]

/-- Every write keeps the canonical form. -/
theorem tabPut_wf {α : Type} [DecidableEq α] (d : Nat → α) (t : Tab α) (k : Nat) (v : α) (h : tabWf d t = true) :
    tabWf d (tabPut d t k v) = true := tabPut_wfAbove d k v t 0 (Nat.zero_le k) h

/-- Up to a key, a table without its first entries to that key reads as its default; beyond it, as the whole table. -/
theorem tabGet_after {α : Type} (d : Nat → α) (k j : Nat) :
    ∀ t : Tab α, tabGet d (tabAfter t k) j = if j ≤ k then d j else tabGet d t j := by
  intro t
  induction t with
  | nil => simp [tabAfter, tabGet]
  | cons e t ih =>
    obtain ⟨k', v'⟩ := e
    by_cases c : k' ≤ k
    · by_cases h : j ≤ k
      · simp only [tabAfter, c, if_true, ih, h]
      · have h1 : k' < j := by omega
        simp only [tabAfter, c, if_true, ih, h, if_false, tabGet, h1]
    · by_cases h : j ≤ k
      · have h1 : ¬ k' < j := by omega
        have h2 : ¬ k' = j := by omega
        simp only [tabAfter, c, if_false, tabGet, h1, h2, h, if_true]
      · simp only [tabAfter, c, if_false, h]

/-- A read of another key is not changed by a write, whatever the table. -/
theorem tabGet_put_ne {α : Type} [DecidableEq α] (d : Nat → α) (k j : Nat) (v : α) (hj : j ≠ k) :
    ∀ t : Tab α, tabGet d (tabPut d t k v) j = tabGet d t j := by
  intro t
  induction t with
  | nil => by_cases h : v = d k <;> simp [tabPut, tabGet, h, Ne.symm hj]
  | cons e t ih =>
    obtain ⟨k', v'⟩ := e
    by_cases c1 : k < k'
    · by_cases c2 : v = d k
      · simp [tabPut, c1, c2]
      · by_cases c3 : k < j
        · simp [tabPut, tabGet, c1, c2, c3]
        · have h1 : ¬ k' < j := by omega
          have h2 : ¬ k' = j := by omega
          simp [tabPut, tabGet, c1, c2, c3, Ne.symm hj, h1, h2]
    · by_cases c2 : k = k'
      · subst c2
        by_cases c3 : v = d k
        · by_cases c4 : j ≤ k
          · have h1 : ¬ k < j := by omega
            simp [tabPut, tabGet, c3, tabGet_after, c4, h1, Ne.symm hj]
          · have h1 : k < j := by omega
            simp [tabPut, tabGet, c3, tabGet_after, c4, h1]
        · simp [tabPut, tabGet, c3, Ne.symm hj]
      · simp [tabPut, tabGet, c1, c2, ih]

/-- A read of the written key gives what was written, whatever the table. -/
theorem tabGet_put_self {α : Type} [DecidableEq α] (d : Nat → α) (t : Tab α) (k : Nat) (v : α) : tabGet d (tabPut d t k v) k = v := by
  induction t with
  | nil => by_cases h : v = d k <;> simp [tabPut, tabGet, h]
  | cons e t ih =>
    obtain ⟨k', v'⟩ := e
    by_cases c1 : k < k'
    · by_cases c2 : v = d k
      · have h1 : ¬ k' < k := by omega
        have h2 : ¬ k' = k := by omega
        simp [tabPut, tabGet, c1, c2, h1, h2]
      · simp [tabPut, tabGet, c1, c2]
    · by_cases c2 : k = k'
      · subst c2
        by_cases c3 : v = d k
        · simp [tabPut, c3, tabGet_after]
        · simp [tabPut, tabGet, c3]
      · have h1 : k' < k := by omega
        simp [tabPut, tabGet, c1, c2, h1, ih]

end Sys2Proof.Machine
end

