-- ==== Sys2Proof/Laws/Husk.lean ====
section
/-!
SUPPORT. The Husk: a pair and an output read as they were written, and everything one output does when it follows its
permission (R276, R277).
-/
namespace Sys2Proof.Machine

/-- A written pair reads back. -/
theorem Husk.pair_setPair (h : Husk) (n : Nat) (p : HPair) : (h.setPair n p).pair n = p :=
  tabGet_put_self _ _ _ _

/-- Another pair stays. -/
theorem Husk.pair_setPair_ne (h : Husk) (n k : Nat) (p : HPair) (hk : k ≠ n) : (h.setPair n p).pair k = h.pair k :=
  tabGet_put_ne _ _ _ _ hk _

/-- A written output reads back. -/
theorem Husk.out_setOut (h : Husk) (m : Nat) (o : HOut) : (h.setOut m o).out m = o :=
  tabGet_put_self _ _ _ _

/-- Another output stays. -/
theorem Husk.out_setOut_ne (h : Husk) (m k : Nat) (o : HOut) (hk : k ≠ m) : (h.setOut m o).out k = h.out k :=
  tabGet_put_ne _ _ _ _ hk _

/-- A write of a pair keeps the tables canonical. -/
theorem Husk.setPair_tables (h : Husk) (n : Nat) (p : HPair) (hw : h.Tables) : (h.setPair n p).Tables :=
  ⟨tabPut_wf _ _ _ _ hw.1, hw.2⟩

/-- A write of an output keeps the tables canonical. -/
theorem Husk.setOut_tables (h : Husk) (m : Nat) (o : HOut) (hw : h.Tables) : (h.setOut m o).Tables :=
  ⟨hw.1, tabPut_wf _ _ _ _ hw.2⟩

/-- What a write of an output leaves alone. -/
theorem Husk.setOut_frame (h : Husk) (m : Nat) (o : HOut) : h.setOut m o = { h with outs := (h.setOut m o).outs } := rfl

/-- Everything an output does when it follows its permission: it opens without the core's share of the permission, stays as it
is in a running category 1 delay, closes with full permission, starts its delay when only the pairs fail it, and else opens. -/
theorem Husk.settleOut_cases (h : Husk) (m : Nat) :
    (h.corePermit m = false ∧ h.settleOut m = h.setOut m { h.out m with on := false, test := none }) ∨
    (h.corePermit m = true ∧ (h.out m).delay = true ∧ h.settleOut m = h) ∨
    (h.corePermit m = true ∧ (h.out m).delay = false ∧ h.pairsPermit m = true ∧
      h.settleOut m = h.setOut m { h.out m with on := true }) ∨
    (h.corePermit m = true ∧ (h.out m).delay = false ∧ h.pairsPermit m = false ∧ (h.out m).on = true ∧
      outField h.set m 1 1 = 1 ∧ h.settleOut m = h.setOut m { h.out m with delay := true, test := none }) ∨
    (h.corePermit m = true ∧ (h.out m).delay = false ∧ h.pairsPermit m = false ∧
      ((h.out m).on = false ∨ outField h.set m 1 1 ≠ 1) ∧
      h.settleOut m = h.setOut m { h.out m with on := false, test := none }) := by
  unfold Husk.settleOut
  cases h1 : h.corePermit m <;> cases h2 : (h.out m).delay <;> cases h3 : h.pairsPermit m <;>
    by_cases h4 : (h.out m).on = true <;> by_cases h5 : outField h.set m 1 1 = 1 <;> simp [h2, h4, h5]

/-- Another output stays. -/
theorem Husk.settleOut_other (h : Husk) (m k : Nat) (hk : k ≠ m) : (h.settleOut m).out k = h.out k := by
  rcases h.settleOut_cases m with ⟨_, e⟩ | ⟨_, _, e⟩ | ⟨_, _, _, e⟩ | ⟨_, _, _, _, _, e⟩ | ⟨_, _, _, _, e⟩ <;> rw [e]
  all_goals exact h.out_setOut_ne _ _ _ hk

end Sys2Proof.Machine
end

