-- ==== Sys2Proof/Laws/Memory.lean ====
section
/-!
SUPPORT. What the memory operations do: every one keeps the canonical form of the memory list, a byte reads as it was
written, and a store leaves every other byte as it was.
-/
namespace Sys2Proof.Machine

/-- A loop keeps what each of its passes keeps. -/
theorem forL_keeps {α β : Type} (P : α → Prop) (l : List β) (f : β → α → α) (h : ∀ b a, P a → P (f b a)) :
    ∀ a, P a → P (forL l f a) := by
  induction l with
  | nil => intro a ha; exact ha
  | cons b l ih => intro a ha; exact ih _ (h b a ha)

/-- The memory of the machine right after reset is canonical. -/
theorem Memory.reset_wf : Memory.wf State.reset.chip.cells = true := rfl

/-- A written byte keeps the canonical form. -/
theorem Chip.setByte_wf (c : Chip) (a : Nat) (b : Byte) (h : Memory.wf c.cells = true) :
    Memory.wf (c.setByte a b).cells = true := tabPut_wf _ _ _ _ h

/-- A written byte reads back. -/
theorem Chip.byteAt_setByte (c : Chip) (a : Nat) (b : Byte) : (c.setByte a b).byteAt a = b := tabGet_put_self _ _ _ _

/-- Another byte stays. -/
theorem Chip.byteAt_setByte_ne (c : Chip) (a x : Nat) (b : Byte) (hx : x ≠ a) : (c.setByte a b).byteAt x = c.byteAt x :=
  tabGet_put_ne _ _ _ _ hx _

/-- Written bytes keep the canonical form. -/
theorem Chip.setBytes_wf (bs : List Byte) : ∀ (c : Chip) (a : Nat), Memory.wf c.cells = true →
    Memory.wf (c.setBytes a bs).cells = true := by
  induction bs with
  | nil => intro c a h; exact h
  | cons b bs ih => intro c a h; exact ih _ _ (c.setByte_wf a b h)

/-- Written bytes change nothing but memory. -/
theorem Chip.setBytes_frame (bs : List Byte) : ∀ (c : Chip) (a : Nat),
    c.setBytes a bs = { c with cells := (c.setBytes a bs).cells } := by
  induction bs with
  | nil => intro c a; rfl
  | cons b bs ih => intro c a; exact ih (c.setByte a b) (a + 1)

/-- Every byte after a write of bytes: the written ones in their order, every other one as before. -/
theorem Chip.byteAt_setBytes (bs : List Byte) : ∀ (c : Chip) (a x : Nat),
    (c.setBytes a bs).byteAt x = if a ≤ x ∧ x < a + bs.length then bs.getD (x - a) 0 else c.byteAt x := by
  induction bs with
  | nil =>
    intro c a x
    have h : ¬(a ≤ x ∧ x < a + ([] : List Byte).length) := by simp only [List.length_nil]; omega
    rw [if_neg h]
    rfl
  | cons b bs ih =>
    intro c a x
    rw [Chip.setBytes, ih]
    by_cases h1 : x = a
    · subst h1
      have h2 : ¬ (x + 1 ≤ x) := by omega
      simp [h2, c.byteAt_setByte x b]
    · rw [c.byteAt_setByte_ne a x b h1]
      by_cases h2 : a + 1 ≤ x ∧ x < a + 1 + bs.length
      · have h3 : a ≤ x ∧ x < a + (b :: bs).length := by simp; omega
        have h4 : x - a = (x - (a + 1)) + 1 := by omega
        rw [if_pos h2, if_pos h3, h4, List.getD_cons_succ]
      · have h3 : ¬ (a ≤ x ∧ x < a + (b :: bs).length) := by simp at h2 ⊢; omega
        rw [if_neg h2, if_neg h3]

/-- A written number keeps the canonical form. -/
theorem Chip.setNum_wf (c : Chip) (a n v : Nat) (h : Memory.wf c.cells = true) : Memory.wf (c.setNum a n v).cells = true :=
  Chip.setBytes_wf _ _ _ h

/-- A line's status is no memory. -/
theorem Chip.rewriteLine_cells (c : Chip) (l : Nat) : (c.rewriteLine l).cells = c.cells := by
  unfold Chip.rewriteLine
  split
  · rfl
  · unfold Chip.logDrop; rfl

/-- The bytes into mapped memory are the bytes written; the lines' bookkeeping is no memory. -/
theorem Chip.putBytes_cells (c : Chip) (a : Nat) (bs : List Byte) : (c.putBytes a bs).cells = (c.setBytes a bs).cells := by
  have key : ∀ (bs : List Byte) (c d : Chip) (a : Nat), c.cells = d.cells → (c.setBytes a bs).cells = (d.setBytes a bs).cells := by
    intro bs
    induction bs with
    | nil => intro c d a h; exact h
    | cons b bs ih => intro c d a h; exact ih _ _ _ (by simp only [Chip.setByte, h])
  unfold Chip.putBytes
  apply key
  exact forL_keeps (fun d : Chip => d.cells = c.cells) _ _ (fun l d h => (d.rewriteLine_cells l).trans h) _ rfl

/-- Bytes into mapped memory keep the canonical form. -/
theorem Chip.putBytes_wf (c : Chip) (a : Nat) (bs : List Byte) (h : Memory.wf c.cells = true) :
    Memory.wf (c.putBytes a bs).cells = true := by
  rw [c.putBytes_cells]; exact Chip.setBytes_wf _ _ _ h

/-- Every byte after bytes went into mapped memory. -/
theorem Chip.byteAt_putBytes (c : Chip) (a x : Nat) (bs : List Byte) :
    (c.putBytes a bs).byteAt x = if a ≤ x ∧ x < a + bs.length then bs.getD (x - a) 0 else c.byteAt x := by
  rw [← Chip.byteAt_setBytes bs c a x]
  simp only [Chip.byteAt, c.putBytes_cells]

/-- A master's bytes into mapped memory are the bytes written; which of its lines it fills whole is no memory. -/
theorem Chip.masterBytes_cells (c : Chip) (m a : Nat) (bs : List Byte) :
    (c.masterBytes m a bs).cells = (c.setBytes a bs).cells := by
  have key : ∀ (bs : List Byte) (c d : Chip) (a : Nat), c.cells = d.cells → (c.setBytes a bs).cells = (d.setBytes a bs).cells := by
    intro bs
    induction bs with
    | nil => intro c d a h; exact h
    | cons b bs ih => intro c d a h; exact ih _ _ _ (by simp only [Chip.setByte, h])
  unfold Chip.masterBytes
  rw [Chip.putBytes_cells]
  refine key _ _ _ _ ?_
  refine forL_keeps (fun d : Chip => d.cells = c.cells) _ _ ?_ _ rfl
  intro _ _ h
  exact h

/-- A master's bytes into mapped memory keep the canonical form. -/
theorem Chip.masterBytes_wf (c : Chip) (m a : Nat) (bs : List Byte) (h : Memory.wf c.cells = true) :
    Memory.wf (c.masterBytes m a bs).cells = true := by
  rw [c.masterBytes_cells]; exact Chip.setBytes_wf _ _ _ h

/-- Marks of lines are no memory. -/
theorem Chip.markLines_wf (ls : List Nat) (f : Chip → Nat → Line) (c : Chip) (h : Memory.wf c.cells = true) :
    Memory.wf (forL ls (fun l c => c.setLine l (f c l)) c).cells = true := by
  refine forL_keeps (fun d : Chip => Memory.wf d.cells = true) _ _ ?_ _ h
  intro _ _ h
  exact h

/-- The bytes of a window write keep the canonical form. -/
theorem Chip.windowBytes_wf (c : Chip) (m a : Nat) (bs : List Byte) (h : Memory.wf c.cells = true) :
    Memory.wf (c.windowBytes m a bs).cells = true :=
  Chip.putBytes_wf _ _ _ (Chip.markLines_wf _ (fun c l => { c.line l with poisoned := false }) c h)

/-- A write to a pod's instruction memory and to its image copy keeps the canonical form. -/
theorem Chip.imemWrite_wf (c : Chip) (m n o : Nat) (bs : List Byte) (h : Memory.wf c.cells = true) :
    Memory.wf (c.imemWrite m n o bs).cells = true := by
  have key : ∀ (d : Chip) (k : Nat), Memory.wf d.cells = true → Memory.wf (if d.imsrc n = 0 then d else
      forL (linesOf k bs.length) (fun l c => c.setLine l { c.line l with noSource := true }) (d.windowBytes m k bs)).cells = true := by
    intro d k h1
    split
    · exact h1
    · exact Chip.markLines_wf _ (fun c l => { c.line l with noSource := true }) _ (d.windowBytes_wf _ _ _ h1)
  exact key _ _ (c.windowBytes_wf _ _ _ h)

/-- An event changes no memory. -/
theorem Chip.hostLatch_cells (c : Chip) (n : Nat) : (c.hostLatch n).cells = c.cells := by
  unfold Chip.hostLatch
  dsimp only
  split
  · rfl
  · rfl

/-- An event changes no memory. -/
theorem Chip.fireNow_cells (c : Chip) (n : Nat) : (c.fireNow n).cells = c.cells := Chip.hostLatch_cells _ n

/-- An event changes no memory. -/
theorem Chip.fire_cells (c : Chip) (n : Nat) : (c.fire n).cells = c.cells := by
  unfold Chip.fire
  split
  · exact c.fireNow_cells n
  · dsimp only
    split <;> split <;> first | exact Chip.fireNow_cells _ n | rfl

/-- A refused store is no memory. -/
theorem Chip.badStore_cells (c : Chip) (m kind a : Nat) : (c.badStore m kind a).cells = c.cells := by
  unfold Chip.badStore
  rw [Chip.fire_cells]
  rfl

/-- A store within one line keeps the canonical form; one that waits changes no memory. -/
theorem Chip.storePart_wf (c : Chip) (m a : Nat) (bs : List Byte) (h : Memory.wf c.cells = true) :
    Memory.wf (c.storePart m a bs).cells = true := by
  unfold Chip.storePart
  split
  · exact h
  · split
    · exact c.imemWrite_wf _ _ _ _ h
    · exact c.masterBytes_wf _ _ _ h

/-- A store of a master outside the register space keeps the canonical form. -/
theorem Chip.memStore_wf (c : Chip) (m kind a : Nat) (bs : List Byte) (h : Memory.wf c.cells = true) :
    Memory.wf (c.memStore m kind a bs).1.cells = true := by
  have key : ∀ ps : List (Nat × List Byte), Memory.wf
      (forL ps (fun p d => if c.storable m p.1 then d.storePart m p.1 p.2 else d) c).cells = true := by
    intro ps
    refine forL_keeps (fun d : Chip => Memory.wf d.cells = true) _ _ ?_ _ h
    intro p d hd
    split
    · exact d.storePart_wf _ _ _ hd
    · exact hd
  unfold Chip.memStore
  dsimp only
  split
  · exact key _
  · rw [Chip.badStore_cells]; exact key _

/-- The line a store within one line touches. -/
theorem linesOf_within (a n : Nat) (h0 : 0 < n) (h : a % 64 + n ≤ 64) : linesOf a n = [a / 64] := by
  have h1 : (a % 64 + n + 63) / 64 = 1 := by omega
  simp [linesOf, h1]

/-- A store within one line that the master may make is made, or waits for the end of a handling. -/
theorem Chip.memStore_within (c : Chip) (m kind a : Nat) (bs : List Byte) (h0 : 0 < bs.length) (h : a % 64 + bs.length ≤ 64)
    (hs : c.storable m a = true) : c.memStore m kind a bs = (c.storePart m a bs, true) := by
  have h1 : bs.take (64 - a % 64) = bs := List.take_of_length_le (by omega)
  have h2 : bs ≠ [] := List.ne_nil_of_length_pos h0
  simp [Chip.memStore, linesOf_within a _ h0 h, lineParts, h1, hs, forL]

/-- A store within one line that the master may not make is reported and changes no memory. -/
theorem Chip.memStore_refused (c : Chip) (m kind a : Nat) (bs : List Byte) (h0 : 0 < bs.length) (h : a % 64 + bs.length ≤ 64)
    (hs : c.storable m a = false) : c.memStore m kind a bs = (c.badStore m kind a, false) := by
  have h1 : bs.take (64 - a % 64) = bs := List.take_of_length_le (by omega)
  have h2 : bs ≠ [] := List.ne_nil_of_length_pos h0
  simp [Chip.memStore, linesOf_within a _ h0 h, lineParts, h1, hs, forL]

/-- The joiner's images of memory keep the canonical form. -/
theorem Chip.loadMemories_wf (ms : List (Nat × Nat)) : ∀ (c : Chip) (bs : List Byte), Memory.wf c.cells = true →
    Memory.wf (c.loadMemories bs ms).cells = true := by
  induction ms with
  | nil => intro c bs h; exact h
  | cons m ms ih => intro c bs h; exact ih _ _ (Chip.setBytes_wf _ _ _ h)

/-- What a reset keeps of memory (R466) is canonical. -/
theorem Memory.filter_wf (p : Nat → Bool) (m : List Host.Cell) (h : Memory.wf m = true) :
    Memory.wf (m.filter fun e => p e.1) = true := by
  have key : ∀ (m : List Host.Cell) (lo lo' : Nat), lo' ≤ lo → tabWfAbove (fun _ => (0 : Byte)) lo m = true →
      tabWfAbove (fun _ => (0 : Byte)) lo' (m.filter fun e => p e.1) = true := by
    intro m
    induction m with
    | nil => intro lo lo' _ _; rfl
    | cons e m ih =>
      intro lo lo' hle hw
      simp only [tabWfAbove, Bool.and_eq_true, decide_eq_true_eq] at hw
      rw [List.filter_cons]
      split
      · simp only [tabWfAbove, Bool.and_eq_true, decide_eq_true_eq]
        exact ⟨⟨by omega, hw.1.2⟩, ih _ _ (Nat.le_refl _) hw.2⟩
      · exact ih (e.1 + 1) lo' (by omega) hw.2
  exact key m 0 0 (Nat.le_refl 0) h

end Sys2Proof.Machine
end

