-- ==== Sys2Proof/Laws/PerInstr.lean ====
section
/-!
SUPPORT. Footprint: every command but the five whose operands are checked is well formed whatever its operands are, so that no
other form of it is ever refused.
-/
namespace Sys2Proof.Laws.Footprint

/-- The commands whose operands Instr.wellFormed checks. -/
def hasCheck : Instr → Bool
  | .nop _ _ _ => true
  | .imemWindowWrite _ _ _ _ => true
  | .bar2Access _ _ _ _ => true
  | .dmaPiece _ _ _ => true
  | .ethFrameReceive _ _ _ => true
  | _ => false

/-- A command without a check is well formed with every operand. -/
def Statement (i : Instr) : Prop := hasCheck i = false → i.wellFormed = true

theorem tick : Statement .tick := fun _ => rfl
theorem uplinkWindowClose : Statement .uplinkWindowClose := fun _ => rfl
theorem feedbackPhase : Statement .feedbackPhase := fun _ => rfl
theorem profilePhase : Statement .profilePhase := fun _ => rfl
theorem loopPhase : Statement .loopPhase := fun _ => rfl
theorem publishDeadline : Statement .publishDeadline := fun _ => rfl
theorem downlinkFrameSend (n : Fin 32) : Statement (.downlinkFrameSend n) := fun _ => rfl
theorem uplinkFrame (n : Fin 32) (ts : Nat) (bytes : List Byte) (codeOk : Bool) : Statement (.uplinkFrame n ts bytes codeOk) := fun _ => rfl
theorem starLinkLoss (n : Fin 32) : Statement (.starLinkLoss n) := fun _ => rfl
theorem starLinkRegain (n : Fin 32) : Statement (.starLinkRegain n) := fun _ => rfl
theorem strAdmit (m : Master) (v : W32) : Statement (.strAdmit m v) := fun _ => rfl
theorem strPortWrite (m : Master) (n : Fin 32) (word : Fin 16) (v : W32) : Statement (.strPortWrite m n word v) := fun _ => rfl
theorem strGuardWrite (m : Master) (v : W32) : Statement (.strGuardWrite m v) := fun _ => rfl
theorem safetyCycle (onTime : Bool) : Statement (.safetyCycle onTime) := fun _ => rfl
theorem groupStopT1Expiry (g : Fin 16) : Statement (.groupStopT1Expiry g) := fun _ => rfl
theorem safetyCoreFault : Statement .safetyCoreFault := fun _ => rfl
theorem statusTelegram (i0 i1 i2 i3 : BitVec 16) : Statement (.statusTelegram i0 i1 i2 i3) := fun _ => rfl
theorem lsdrvFrame : Statement .lsdrvFrame := fun _ => rfl
theorem cstopFrame : Statement .cstopFrame := fun _ => rfl
theorem coreLinkTimeout (cstop : Bool) : Statement (.coreLinkTimeout cstop) := fun _ => rfl
theorem huskLinkTimeout : Statement .huskLinkTimeout := fun _ => rfl
theorem safetyInputQualified (n : Fin 8) (b level : Bool) : Statement (.safetyInputQualified n b level) := fun _ => rfl
theorem discrepancyTimeout (n : Fin 8) : Statement (.discrepancyTimeout n) := fun _ => rfl
theorem twoHandTimeout (e : Fin 8) : Statement (.twoHandTimeout e) := fun _ => rfl
theorem testPulse (k : Fin 4) (low around : BitVec 16) : Statement (.testPulse k low around) := fun _ => rfl
theorem tpOvercurrent (k : Fin 4) : Statement (.tpOvercurrent k) := fun _ => rfl
theorem cat1DelayExpiry (m : Fin 4) : Statement (.cat1DelayExpiry m) := fun _ => rfl
theorem outputSwitchTest (m : Fin 4) (low : Bool) : Statement (.outputSwitchTest m low) := fun _ => rfl
theorem outputTestTimeout (m : Fin 4) (low : Bool) : Statement (.outputTestTimeout m low) := fun _ => rfl
theorem safeOutputOvercurrent (m : Fin 4) : Statement (.safeOutputOvercurrent m) := fun _ => rfl
theorem safeOutputBackfeed (m : Fin 4) : Statement (.safeOutputBackfeed m) := fun _ => rfl
theorem huskLaneDisagree : Statement .huskLaneDisagree := fun _ => rfl
theorem safetySupplyFault : Statement .safetySupplyFault := fun _ => rfl
theorem safetySupplyReturn : Statement .safetySupplyReturn := fun _ => rfl
theorem srstPress : Statement .srstPress := fun _ => rfl
theorem srstRelease (edge : SrstEdge) : Statement (.srstRelease edge) := fun _ => rfl
theorem resetHeld : Statement .resetHeld := fun _ => rfl
theorem paramSetCommit (m : Master) : Statement (.paramSetCommit m) := fun _ => rfl
theorem paramSetAwaitConfirm : Statement .paramSetAwaitConfirm := fun _ => rfl
theorem paramSetDiscard (m : Master) : Statement (.paramSetDiscard m) := fun _ => rfl
theorem paramConfirmTimeout : Statement .paramConfirmTimeout := fun _ => rfl
theorem schedulerCycle : Statement .schedulerCycle := fun _ => rfl
theorem schTaskWrite (m : Master) (t : BitVec 12) (word : Fin 8) (v : W32) : Statement (.schTaskWrite m t word v) := fun _ => rfl
theorem schOflowWrite (m : Master) (f : Fin 16) (word : Fin 4) (v : W32) : Statement (.schOflowWrite m f word v) := fun _ => rfl
theorem schHpost (m : Master) (v : W32) : Statement (.schHpost m v) := fun _ => rfl
theorem schHcancel (m : Master) (v : W32) : Statement (.schHcancel m v) := fun _ => rfl
theorem planLoad (m : Master) (v : W32) : Statement (.planLoad m v) := fun _ => rfl
theorem shedLevelApply : Statement .shedLevelApply := fun _ => rfl
theorem shedCommitApply : Statement .shedCommitApply := fun _ => rfl
theorem dwrTransferApply (p : Fin 32) : Statement (.dwrTransferApply p) := fun _ => rfl
theorem getWake (p : Fin 32) : Statement (.getWake p) := fun _ => rfl
theorem fabricLoadData (p : Fin 32) (idx : Fin 4) (chk : LineCheck) : Statement (.fabricLoadData p idx chk) := fun _ => rfl
theorem fabricStoreAck (p : Fin 32) (idx : Fin 8) (chk : LineCheck) : Statement (.fabricStoreAck p idx chk) := fun _ => rfl
theorem outsideAccessStall (p : Fin 32) : Statement (.outsideAccessStall p) := fun _ => rfl
theorem add (p : Fin 32) (sat : Bool) (rd ra rb : BitVec 5) (mask : BitVec 4) : Statement (.add p sat rd ra rb mask) := fun _ => rfl
theorem addu (p : Fin 32) (sat : Bool) (rd ra rb : BitVec 5) (mask : BitVec 4) : Statement (.addu p sat rd ra rb mask) := fun _ => rfl
theorem sub (p : Fin 32) (sat : Bool) (rd ra rb : BitVec 5) (mask : BitVec 4) : Statement (.sub p sat rd ra rb mask) := fun _ => rfl
theorem subu (p : Fin 32) (sat : Bool) (rd ra rb : BitVec 5) (mask : BitVec 4) : Statement (.subu p sat rd ra rb mask) := fun _ => rfl
theorem mul (p : Fin 32) (sat : Bool) (rd ra rb : BitVec 5) (mask : BitVec 4) : Statement (.mul p sat rd ra rb mask) := fun _ => rfl
theorem mulh (p : Fin 32) (sat : Bool) (rd ra rb : BitVec 5) (mask : BitVec 4) : Statement (.mulh p sat rd ra rb mask) := fun _ => rfl
theorem mulhu (p : Fin 32) (sat : Bool) (rd ra rb : BitVec 5) (mask : BitVec 4) : Statement (.mulhu p sat rd ra rb mask) := fun _ => rfl
theorem and (p : Fin 32) (sat : Bool) (rd ra rb : BitVec 5) (mask : BitVec 4) : Statement (.and p sat rd ra rb mask) := fun _ => rfl
theorem or (p : Fin 32) (sat : Bool) (rd ra rb : BitVec 5) (mask : BitVec 4) : Statement (.or p sat rd ra rb mask) := fun _ => rfl
theorem xor (p : Fin 32) (sat : Bool) (rd ra rb : BitVec 5) (mask : BitVec 4) : Statement (.xor p sat rd ra rb mask) := fun _ => rfl
theorem andn (p : Fin 32) (sat : Bool) (rd ra rb : BitVec 5) (mask : BitVec 4) : Statement (.andn p sat rd ra rb mask) := fun _ => rfl
theorem sll (p : Fin 32) (sat : Bool) (rd ra rb : BitVec 5) (mask : BitVec 4) : Statement (.sll p sat rd ra rb mask) := fun _ => rfl
theorem srl (p : Fin 32) (sat : Bool) (rd ra rb : BitVec 5) (mask : BitVec 4) : Statement (.srl p sat rd ra rb mask) := fun _ => rfl
theorem sra (p : Fin 32) (sat : Bool) (rd ra rb : BitVec 5) (mask : BitVec 4) : Statement (.sra p sat rd ra rb mask) := fun _ => rfl
theorem slt (p : Fin 32) (sat : Bool) (rd ra rb : BitVec 5) (mask : BitVec 4) : Statement (.slt p sat rd ra rb mask) := fun _ => rfl
theorem sltu (p : Fin 32) (sat : Bool) (rd ra rb : BitVec 5) (mask : BitVec 4) : Statement (.sltu p sat rd ra rb mask) := fun _ => rfl
theorem min (p : Fin 32) (sat : Bool) (rd ra rb : BitVec 5) (mask : BitVec 4) : Statement (.min p sat rd ra rb mask) := fun _ => rfl
theorem max (p : Fin 32) (sat : Bool) (rd ra rb : BitVec 5) (mask : BitVec 4) : Statement (.max p sat rd ra rb mask) := fun _ => rfl
theorem minu (p : Fin 32) (sat : Bool) (rd ra rb : BitVec 5) (mask : BitVec 4) : Statement (.minu p sat rd ra rb mask) := fun _ => rfl
theorem maxu (p : Fin 32) (sat : Bool) (rd ra rb : BitVec 5) (mask : BitVec 4) : Statement (.maxu p sat rd ra rb mask) := fun _ => rfl
theorem clz (p : Fin 32) (sat : Bool) (rd ra rb : BitVec 5) (mask : BitVec 4) : Statement (.clz p sat rd ra rb mask) := fun _ => rfl
theorem sextb (p : Fin 32) (sat : Bool) (rd ra rb : BitVec 5) (mask : BitVec 4) : Statement (.sextb p sat rd ra rb mask) := fun _ => rfl
theorem sexth (p : Fin 32) (sat : Bool) (rd ra rb : BitVec 5) (mask : BitVec 4) : Statement (.sexth p sat rd ra rb mask) := fun _ => rfl
theorem sextw (p : Fin 32) (sat : Bool) (rd ra rb : BitVec 5) (mask : BitVec 4) : Statement (.sextw p sat rd ra rb mask) := fun _ => rfl
theorem addi (p : Fin 32) (sat : Bool) (rd ra : BitVec 5) (imm : BitVec 14) : Statement (.addi p sat rd ra imm) := fun _ => rfl
theorem andi (p : Fin 32) (sat : Bool) (rd ra : BitVec 5) (imm : BitVec 14) : Statement (.andi p sat rd ra imm) := fun _ => rfl
theorem ori (p : Fin 32) (sat : Bool) (rd ra : BitVec 5) (imm : BitVec 14) : Statement (.ori p sat rd ra imm) := fun _ => rfl
theorem xori (p : Fin 32) (sat : Bool) (rd ra : BitVec 5) (imm : BitVec 14) : Statement (.xori p sat rd ra imm) := fun _ => rfl
theorem slli (p : Fin 32) (sat : Bool) (rd ra : BitVec 5) (imm : BitVec 14) : Statement (.slli p sat rd ra imm) := fun _ => rfl
theorem srli (p : Fin 32) (sat : Bool) (rd ra : BitVec 5) (imm : BitVec 14) : Statement (.srli p sat rd ra imm) := fun _ => rfl
theorem srai (p : Fin 32) (sat : Bool) (rd ra : BitVec 5) (imm : BitVec 14) : Statement (.srai p sat rd ra imm) := fun _ => rfl
theorem slti (p : Fin 32) (sat : Bool) (rd ra : BitVec 5) (imm : BitVec 14) : Statement (.slti p sat rd ra imm) := fun _ => rfl
theorem movw (p : Fin 32) (hw : BitVec 2) (keep : Bool) (rd : BitVec 5) (rsv : BitVec 4) (imm : BitVec 16) : Statement (.movw p hw keep rd rsv imm) := fun _ => rfl
theorem vadd (p : Fin 32) (sat : Bool) (rd ra rb : BitVec 5) (w : BitVec 2) (mask : BitVec 4) : Statement (.vadd p sat rd ra rb w mask) := fun _ => rfl
theorem vaddu (p : Fin 32) (sat : Bool) (rd ra rb : BitVec 5) (w : BitVec 2) (mask : BitVec 4) : Statement (.vaddu p sat rd ra rb w mask) := fun _ => rfl
theorem vsub (p : Fin 32) (sat : Bool) (rd ra rb : BitVec 5) (w : BitVec 2) (mask : BitVec 4) : Statement (.vsub p sat rd ra rb w mask) := fun _ => rfl
theorem vsubu (p : Fin 32) (sat : Bool) (rd ra rb : BitVec 5) (w : BitVec 2) (mask : BitVec 4) : Statement (.vsubu p sat rd ra rb w mask) := fun _ => rfl
theorem vmul (p : Fin 32) (sat : Bool) (rd ra rb : BitVec 5) (w : BitVec 2) (mask : BitVec 4) : Statement (.vmul p sat rd ra rb w mask) := fun _ => rfl
theorem vmulq (p : Fin 32) (sat : Bool) (rd ra rb : BitVec 5) (w : BitVec 2) (mask : BitVec 4) : Statement (.vmulq p sat rd ra rb w mask) := fun _ => rfl
theorem vand (p : Fin 32) (sat : Bool) (rd ra rb : BitVec 5) (w : BitVec 2) (mask : BitVec 4) : Statement (.vand p sat rd ra rb w mask) := fun _ => rfl
theorem vor (p : Fin 32) (sat : Bool) (rd ra rb : BitVec 5) (w : BitVec 2) (mask : BitVec 4) : Statement (.vor p sat rd ra rb w mask) := fun _ => rfl
theorem vxor (p : Fin 32) (sat : Bool) (rd ra rb : BitVec 5) (w : BitVec 2) (mask : BitVec 4) : Statement (.vxor p sat rd ra rb w mask) := fun _ => rfl
theorem vsll (p : Fin 32) (sat : Bool) (rd ra rb : BitVec 5) (w : BitVec 2) (mask : BitVec 4) : Statement (.vsll p sat rd ra rb w mask) := fun _ => rfl
theorem vsrl (p : Fin 32) (sat : Bool) (rd ra rb : BitVec 5) (w : BitVec 2) (mask : BitVec 4) : Statement (.vsrl p sat rd ra rb w mask) := fun _ => rfl
theorem vsra (p : Fin 32) (sat : Bool) (rd ra rb : BitVec 5) (w : BitVec 2) (mask : BitVec 4) : Statement (.vsra p sat rd ra rb w mask) := fun _ => rfl
theorem vmin (p : Fin 32) (sat : Bool) (rd ra rb : BitVec 5) (w : BitVec 2) (mask : BitVec 4) : Statement (.vmin p sat rd ra rb w mask) := fun _ => rfl
theorem vmax (p : Fin 32) (sat : Bool) (rd ra rb : BitVec 5) (w : BitVec 2) (mask : BitVec 4) : Statement (.vmax p sat rd ra rb w mask) := fun _ => rfl
theorem vcmpeq (p : Fin 32) (sat : Bool) (rd ra rb : BitVec 5) (w : BitVec 2) (mask : BitVec 4) : Statement (.vcmpeq p sat rd ra rb w mask) := fun _ => rfl
theorem vcmplt (p : Fin 32) (sat : Bool) (rd ra rb : BitVec 5) (w : BitVec 2) (mask : BitVec 4) : Statement (.vcmplt p sat rd ra rb w mask) := fun _ => rfl
theorem vsplat (p : Fin 32) (sat : Bool) (rd ra rb : BitVec 5) (w : BitVec 2) (mask : BitVec 4) : Statement (.vsplat p sat rd ra rb w mask) := fun _ => rfl
theorem vext (p : Fin 32) (sat : Bool) (rd ra rb : BitVec 5) (w : BitVec 2) (mask : BitVec 4) : Statement (.vext p sat rd ra rb w mask) := fun _ => rfl
theorem vins (p : Fin 32) (sat : Bool) (rd ra rb : BitVec 5) (w : BitVec 2) (mask : BitVec 4) : Statement (.vins p sat rd ra rb w mask) := fun _ => rfl
theorem vsel (p : Fin 32) (sat : Bool) (rd ra rb : BitVec 5) (w : BitVec 2) (mask : BitVec 4) : Statement (.vsel p sat rd ra rb w mask) := fun _ => rfl
theorem fadd (p : Fin 32) (sat : Bool) (rd ra rb : BitVec 5) (mask : BitVec 4) : Statement (.fadd p sat rd ra rb mask) := fun _ => rfl
theorem fsub (p : Fin 32) (sat : Bool) (rd ra rb : BitVec 5) (mask : BitVec 4) : Statement (.fsub p sat rd ra rb mask) := fun _ => rfl
theorem fmul (p : Fin 32) (sat : Bool) (rd ra rb : BitVec 5) (mask : BitVec 4) : Statement (.fmul p sat rd ra rb mask) := fun _ => rfl
theorem fdiv (p : Fin 32) (sat : Bool) (rd ra rb : BitVec 5) (mask : BitVec 4) : Statement (.fdiv p sat rd ra rb mask) := fun _ => rfl
theorem fsqrt (p : Fin 32) (sat : Bool) (rd ra rb : BitVec 5) (mask : BitVec 4) : Statement (.fsqrt p sat rd ra rb mask) := fun _ => rfl
theorem fma (p : Fin 32) (sat : Bool) (rd ra rb : BitVec 5) (mask : BitVec 4) : Statement (.fma p sat rd ra rb mask) := fun _ => rfl
theorem fms (p : Fin 32) (sat : Bool) (rd ra rb : BitVec 5) (mask : BitVec 4) : Statement (.fms p sat rd ra rb mask) := fun _ => rfl
theorem fmin (p : Fin 32) (sat : Bool) (rd ra rb : BitVec 5) (mask : BitVec 4) : Statement (.fmin p sat rd ra rb mask) := fun _ => rfl
theorem fmax (p : Fin 32) (sat : Bool) (rd ra rb : BitVec 5) (mask : BitVec 4) : Statement (.fmax p sat rd ra rb mask) := fun _ => rfl
theorem fabs (p : Fin 32) (sat : Bool) (rd ra rb : BitVec 5) (mask : BitVec 4) : Statement (.fabs p sat rd ra rb mask) := fun _ => rfl
theorem fneg (p : Fin 32) (sat : Bool) (rd ra rb : BitVec 5) (mask : BitVec 4) : Statement (.fneg p sat rd ra rb mask) := fun _ => rfl
theorem fcmpeq (p : Fin 32) (sat : Bool) (rd ra rb : BitVec 5) (mask : BitVec 4) : Statement (.fcmpeq p sat rd ra rb mask) := fun _ => rfl
theorem fcmplt (p : Fin 32) (sat : Bool) (rd ra rb : BitVec 5) (mask : BitVec 4) : Statement (.fcmplt p sat rd ra rb mask) := fun _ => rfl
theorem fcmple (p : Fin 32) (sat : Bool) (rd ra rb : BitVec 5) (mask : BitVec 4) : Statement (.fcmple p sat rd ra rb mask) := fun _ => rfl
theorem fcvtws (p : Fin 32) (sat : Bool) (rd ra rb : BitVec 5) (mask : BitVec 4) : Statement (.fcvtws p sat rd ra rb mask) := fun _ => rfl
theorem fcvtsw (p : Fin 32) (sat : Bool) (rd ra rb : BitVec 5) (mask : BitVec 4) : Statement (.fcvtsw p sat rd ra rb mask) := fun _ => rfl
theorem fsum (p : Fin 32) (sat : Bool) (rd ra rb : BitVec 5) (mask : BitVec 4) : Statement (.fsum p sat rd ra rb mask) := fun _ => rfl
theorem fdot (p : Fin 32) (sat : Bool) (rd ra rb : BitVec 5) (mask : BitVec 4) : Statement (.fdot p sat rd ra rb mask) := fun _ => rfl
theorem fsplat (p : Fin 32) (sat : Bool) (rd ra rb : BitVec 5) (mask : BitVec 4) : Statement (.fsplat p sat rd ra rb mask) := fun _ => rfl
theorem mac2l (p : Fin 32) (sat : Bool) (rd ra rb : BitVec 5) (mask : BitVec 4) : Statement (.mac2l p sat rd ra rb mask) := fun _ => rfl
theorem mac2h (p : Fin 32) (sat : Bool) (rd ra rb : BitVec 5) (mask : BitVec 4) : Statement (.mac2h p sat rd ra rb mask) := fun _ => rfl
theorem msu2l (p : Fin 32) (sat : Bool) (rd ra rb : BitVec 5) (mask : BitVec 4) : Statement (.msu2l p sat rd ra rb mask) := fun _ => rfl
theorem msu2h (p : Fin 32) (sat : Bool) (rd ra rb : BitVec 5) (mask : BitVec 4) : Statement (.msu2h p sat rd ra rb mask) := fun _ => rfl
theorem macp (p : Fin 32) (sat : Bool) (rd ra rb : BitVec 5) (mask : BitVec 4) : Statement (.macp p sat rd ra rb mask) := fun _ => rfl
theorem aclr (p : Fin 32) (sat : Bool) (rd ra rb : BitVec 5) (mask : BitVec 4) : Statement (.aclr p sat rd ra rb mask) := fun _ => rfl
theorem aload (p : Fin 32) (sat : Bool) (rd ra rb : BitVec 5) (mask : BitVec 4) : Statement (.aload p sat rd ra rb mask) := fun _ => rfl
theorem aread (p : Fin 32) (sat : Bool) (rd ra rb : BitVec 5) (mask : BitVec 4) : Statement (.aread p sat rd ra rb mask) := fun _ => rfl
theorem aadd (p : Fin 32) (sat : Bool) (rd ra rb : BitVec 5) (mask : BitVec 4) : Statement (.aadd p sat rd ra rb mask) := fun _ => rfl
theorem agrd (p : Fin 32) (sat : Bool) (rd ra rb : BitVec 5) (mask : BitVec 4) : Statement (.agrd p sat rd ra rb mask) := fun _ => rfl
theorem aseth (p : Fin 32) (sat : Bool) (rd ra rb : BitVec 5) (mask : BitVec 4) : Statement (.aseth p sat rd ra rb mask) := fun _ => rfl
theorem lb (p : Fin 32) (rt : BitVec 5) (ag : BitVec 3) (mode : BitVec 2) (off : BitVec 15) (chk : LineCheck) : Statement (.lb p rt ag mode off chk) := fun _ => rfl
theorem lbu (p : Fin 32) (rt : BitVec 5) (ag : BitVec 3) (mode : BitVec 2) (off : BitVec 15) (chk : LineCheck) : Statement (.lbu p rt ag mode off chk) := fun _ => rfl
theorem lh (p : Fin 32) (rt : BitVec 5) (ag : BitVec 3) (mode : BitVec 2) (off : BitVec 15) (chk : LineCheck) : Statement (.lh p rt ag mode off chk) := fun _ => rfl
theorem lhu (p : Fin 32) (rt : BitVec 5) (ag : BitVec 3) (mode : BitVec 2) (off : BitVec 15) (chk : LineCheck) : Statement (.lhu p rt ag mode off chk) := fun _ => rfl
theorem lw (p : Fin 32) (rt : BitVec 5) (ag : BitVec 3) (mode : BitVec 2) (off : BitVec 15) (chk : LineCheck) : Statement (.lw p rt ag mode off chk) := fun _ => rfl
theorem lwu (p : Fin 32) (rt : BitVec 5) (ag : BitVec 3) (mode : BitVec 2) (off : BitVec 15) (chk : LineCheck) : Statement (.lwu p rt ag mode off chk) := fun _ => rfl
theorem ld (p : Fin 32) (rt : BitVec 5) (ag : BitVec 3) (mode : BitVec 2) (off : BitVec 15) (chk : LineCheck) : Statement (.ld p rt ag mode off chk) := fun _ => rfl
theorem lv (p : Fin 32) (rt : BitVec 5) (ag : BitVec 3) (mode : BitVec 2) (off : BitVec 15) (chk : LineCheck) : Statement (.lv p rt ag mode off chk) := fun _ => rfl
theorem sb (p : Fin 32) (rt : BitVec 5) (ag : BitVec 3) (mode : BitVec 2) (off : BitVec 15) (chk : LineCheck) : Statement (.sb p rt ag mode off chk) := fun _ => rfl
theorem sh (p : Fin 32) (rt : BitVec 5) (ag : BitVec 3) (mode : BitVec 2) (off : BitVec 15) (chk : LineCheck) : Statement (.sh p rt ag mode off chk) := fun _ => rfl
theorem sw (p : Fin 32) (rt : BitVec 5) (ag : BitVec 3) (mode : BitVec 2) (off : BitVec 15) (chk : LineCheck) : Statement (.sw p rt ag mode off chk) := fun _ => rfl
theorem sd (p : Fin 32) (rt : BitVec 5) (ag : BitVec 3) (mode : BitVec 2) (off : BitVec 15) (chk : LineCheck) : Statement (.sd p rt ag mode off chk) := fun _ => rfl
theorem sv (p : Fin 32) (rt : BitVec 5) (ag : BitVec 3) (mode : BitVec 2) (off : BitVec 15) (chk : LineCheck) : Statement (.sv p rt ag mode off chk) := fun _ => rfl
theorem ldvv (p : Fin 32) (v1 v2 : BitVec 5) (ag1 ag2 : BitVec 3) (rsv : BitVec 10) (chk chk2 : LineCheck) : Statement (.ldvv p v1 v2 ag1 ag2 rsv chk chk2) := fun _ => rfl
theorem ldstv (p : Fin 32) (v1 v2 : BitVec 5) (ag1 ag2 : BitVec 3) (rsv : BitVec 10) (chk chk2 : LineCheck) : Statement (.ldstv p v1 v2 ag1 ag2 rsv chk chk2) := fun _ => rfl
theorem beq (p : Fin 32) (ra rb : BitVec 5) (off : BitVec 15) : Statement (.beq p ra rb off) := fun _ => rfl
theorem bne (p : Fin 32) (ra rb : BitVec 5) (off : BitVec 15) : Statement (.bne p ra rb off) := fun _ => rfl
theorem blt (p : Fin 32) (ra rb : BitVec 5) (off : BitVec 15) : Statement (.blt p ra rb off) := fun _ => rfl
theorem bge (p : Fin 32) (ra rb : BitVec 5) (off : BitVec 15) : Statement (.bge p ra rb off) := fun _ => rfl
theorem bltu (p : Fin 32) (ra rb : BitVec 5) (off : BitVec 15) : Statement (.bltu p ra rb off) := fun _ => rfl
theorem bgeu (p : Fin 32) (ra rb : BitVec 5) (off : BitVec 15) : Statement (.bgeu p ra rb off) := fun _ => rfl
theorem br (p : Fin 32) (ra rb : BitVec 5) (off : BitVec 15) : Statement (.br p ra rb off) := fun _ => rfl
theorem bl (p : Fin 32) (ra rb : BitVec 5) (off : BitVec 15) : Statement (.bl p ra rb off) := fun _ => rfl
theorem rep (p : Fin 32) (lvl : BitVec 2) (len : BitVec 12) (count : BitVec 16) : Statement (.rep p lvl len count) := fun _ => rfl
theorem nop (p : Fin 32) (word : W32) (chk : LineCheck) : Statement (.nop p word chk) := fun h => nomatch h
theorem get (p : Fin 32) (rd ra : BitVec 5) (imm : BitVec 12) : Statement (.get p rd ra imm) := fun _ => rfl
theorem done (p : Fin 32) (rd ra : BitVec 5) (imm : BitVec 12) : Statement (.done p rd ra imm) := fun _ => rfl
theorem post (p : Fin 32) (rd ra : BitVec 5) (imm : BitVec 12) : Statement (.post p rd ra imm) := fun _ => rfl
theorem cancel (p : Fin 32) (rd ra : BitVec 5) (imm : BitVec 12) : Statement (.cancel p rd ra imm) := fun _ => rfl
theorem evt (p : Fin 32) (rd ra : BitVec 5) (imm : BitVec 12) : Statement (.evt p rd ra imm) := fun _ => rfl
theorem fence (p : Fin 32) (rd ra : BitVec 5) (imm : BitVec 12) : Statement (.fence p rd ra imm) := fun _ => rfl
theorem eret (p : Fin 32) (rd ra : BitVec 5) (imm : BitVec 12) : Statement (.eret p rd ra imm) := fun _ => rfl
theorem mfsr (p : Fin 32) (rd ra : BitVec 5) (imm : BitVec 12) : Statement (.mfsr p rd ra imm) := fun _ => rfl
theorem mtsr (p : Fin 32) (rd ra : BitVec 5) (imm : BitVec 12) : Statement (.mtsr p rd ra imm) := fun _ => rfl
theorem agw (p : Fin 32) (rd ra : BitVec 5) (imm : BitVec 12) : Statement (.agw p rd ra imm) := fun _ => rfl
theorem agr (p : Fin 32) (rd ra : BitVec 5) (imm : BitVec 12) : Statement (.agr p rd ra imm) := fun _ => rfl
theorem repr (p : Fin 32) (rd ra : BitVec 5) (imm : BitVec 12) : Statement (.repr p rd ra imm) := fun _ => rfl
theorem jr (p : Fin 32) (rd ra : BitVec 5) (imm : BitVec 12) : Statement (.jr p rd ra imm) := fun _ => rfl
theorem jalr (p : Fin 32) (rd ra : BitVec 5) (imm : BitVec 12) : Statement (.jalr p rd ra imm) := fun _ => rfl
theorem timrd (p : Fin 32) (rd ra : BitVec 5) (imm : BitVec 12) : Statement (.timrd p rd ra imm) := fun _ => rfl
theorem fbw (p : Fin 32) (rd ra : BitVec 5) (imm : BitVec 12) : Statement (.fbw p rd ra imm) := fun _ => rfl
theorem fbr (p : Fin 32) (rd ra : BitVec 5) (imm : BitVec 12) : Statement (.fbr p rd ra imm) := fun _ => rfl
theorem dwr (p : Fin 32) (rd ra : BitVec 5) (imm : BitVec 12) (chks : List LineCheck) : Statement (.dwr p rd ra imm chks) := fun _ => rfl
theorem imemWindowWrite (m : Master) (p : Fin 32) (off : BitVec 16) (data : Transfer) : Statement (.imemWindowWrite m p off data) := fun h => nomatch h
theorem podRun (m : Master) (p : Fin 32) : Statement (.podRun m p) := fun _ => rfl
theorem podHalt (m : Master) (p : Fin 32) : Statement (.podHalt m p) := fun _ => rfl
theorem podStep (m : Master) (p : Fin 32) (chk : StepCheck) : Statement (.podStep m p chk) := fun _ => rfl
theorem podRestart (m : Master) (p : Fin 32) : Statement (.podRestart m p) := fun _ => rfl
theorem fbkClr (m : Master) (k : BitVec 8) : Statement (.fbkClr m k) := fun _ => rfl
theorem fbkObsWrite (m : Master) (k : BitVec 8) (word : Fin 16) (v : W32) : Statement (.fbkObsWrite m k word v) := fun _ => rfl
theorem fbkLchWrite (m : Master) (n : Fin 16) (v : W32) : Statement (.fbkLchWrite m n v) := fun _ => rfl
theorem fbkDivWrite (m : Master) (d word : Fin 4) (v : W32) : Statement (.fbkDivWrite m d word v) := fun _ => rfl
theorem fbkMirrorWrite (m : Master) (v : W32) : Statement (.fbkMirrorWrite m v) := fun _ => rfl
theorem lchCountEdge (n : Fin 16) (a b : Bool) : Statement (.lchCountEdge n a b) := fun _ => rfl
theorem lchZEdge (n : Fin 16) : Statement (.lchZEdge n) := fun _ => rfl
theorem hallEdge (n : Fin 16) (hu hv hw : Bool) : Statement (.hallEdge n hu hv hw) := fun _ => rfl
theorem dividedOutputEmit (d : Fin 4) (due : Nat) (limited : Bool) : Statement (.dividedOutputEmit d due limited) := fun _ => rfl
theorem lpeSwapSlot (m : Master) (v : W32) : Statement (.lpeSwapSlot m v) := fun _ => rfl
theorem lpeSwapGroup (m : Master) (v : W32) : Statement (.lpeSwapGroup m v) := fun _ => rfl
theorem lpeMsw (m : Master) (v : W32) : Statement (.lpeMsw m v) := fun _ => rfl
theorem lpeSlotWrite (m : Master) (slot : Fin 1024) (st : Bool) (word : Fin 16) (v : W32) : Statement (.lpeSlotWrite m slot st word v) := fun _ => rfl
theorem lpeBankWrite (m : Master) (slot : Fin 1024) (bank : Fin 2) (word : Fin 64) (v : W32) : Statement (.lpeBankWrite m slot bank word v) := fun _ => rfl
theorem lpeXfWrite (m : Master) (j : Fin 128) (word : Fin 8) (v : W32) : Statement (.lpeXfWrite m j word v) := fun _ => rfl
theorem lpeMsetWrite (m : Master) (n : Fin 128) (word : Fin 8) (v : W32) : Statement (.lpeMsetWrite m n word v) := fun _ => rfl
theorem lpePeakRead (m : Master) : Statement (.lpePeakRead m) := fun _ => rfl
theorem lpeGrpCauseRead (m : Master) (g : Fin 64) : Statement (.lpeGrpCauseRead m g) := fun _ => rfl
theorem disarm (m : Master) (k : Fin 256) (v : W32) : Statement (.disarm m k v) := fun _ => rfl
theorem movePos (m : Master) (k : Fin 256) (v : W32) : Statement (.movePos m k v) := fun _ => rfl
theorem moveVel (m : Master) (k : Fin 256) (v : W32) : Statement (.moveVel m k v) := fun _ => rfl
theorem moveTab (m : Master) (k : Fin 256) (v : W32) : Statement (.moveTab m k v) := fun _ => rfl
theorem pause (m : Master) (k : Fin 256) (v : W32) : Statement (.pause m k v) := fun _ => rfl
theorem resume (m : Master) (k : Fin 256) (v : W32) : Statement (.resume m k v) := fun _ => rfl
theorem stop (m : Master) (k : Fin 256) (v : W32) : Statement (.stop m k v) := fun _ => rfl
theorem home (m : Master) (k : Fin 256) (v : W32) : Statement (.home m k v) := fun _ => rfl
theorem clrLim (m : Master) (k : Fin 256) (v : W32) : Statement (.clrLim m k v) := fun _ => rfl
theorem prfChEnWrite (m : Master) (k : Fin 256) (v : W32) : Statement (.prfChEnWrite m k v) := fun _ => rfl
theorem limitWrite (m : Master) (k : Fin 256) (word : Fin 8) (v : W32) : Statement (.limitWrite m k word v) := fun _ => rfl
theorem kappaTgtWrite (m : Master) (k : Fin 256) (v : W32) : Statement (.kappaTgtWrite m k v) := fun _ => rfl
theorem prfGfireNow (m : Master) (v : W32) : Statement (.prfGfireNow m v) := fun _ => rfl
theorem prfGfireAtTick (m : Master) (v : W32) : Statement (.prfGfireAtTick m v) := fun _ => rfl
theorem groupFireTickReached (g : Fin 32) : Statement (.groupFireTickReached g) := fun _ => rfl
theorem tableCommit (m : Master) (t : Fin 64) (v : W32) : Statement (.tableCommit m t v) := fun _ => rfl
theorem tableWithdraw (m : Master) (t : Fin 64) (v : W32) : Statement (.tableWithdraw m t v) := fun _ => rfl
theorem bankVerifyDone (t : Fin 64) : Statement (.bankVerifyDone t) := fun _ => rfl
theorem prfTblWrite (m : Master) (t : Fin 64) (word : Fin 8) (v : W32) : Statement (.prfTblWrite m t word v) := fun _ => rfl
theorem prfCmpWrite (m : Master) (u : Fin 64) (word : Fin 16) (v : W32) : Statement (.prfCmpWrite m u word v) := fun _ => rfl
theorem underrunAllowanceExpiry (k : Fin 256) : Statement (.underrunAllowanceExpiry k) := fun _ => rfl
theorem switchQualified (k : Fin 256) (j : Fin 3) : Statement (.switchQualified k j) := fun _ => rfl
theorem homeStallDetected (k : Fin 256) : Statement (.homeStallDetected k) := fun _ => rfl
theorem hystWindowClose (k : Fin 256) : Statement (.hystWindowClose k) := fun _ => rfl
theorem homeTimeout (k : Fin 256) : Statement (.homeTimeout k) := fun _ => rfl
theorem stepPulse (st : Fin 32) (rise : Bool) : Statement (.stepPulse st rise) := fun _ => rfl
theorem stepperHoldCurrent (st : Fin 32) : Statement (.stepperHoldCurrent st) := fun _ => rfl
theorem prfStpWrite (m : Master) (st : Fin 32) (word : Fin 16) (v : W32) : Statement (.prfStpWrite m st word v) := fun _ => rfl
theorem prfHomeWrite (m : Master) (k : Fin 256) (word : Fin 32) (v : W32) : Statement (.prfHomeWrite m k word v) := fun _ => rfl
theorem prfMstabWrite (m : Master) (t : Fin 5) (index : Fin 128) (v : W32) : Statement (.prfMstabWrite m t index v) := fun _ => rfl
theorem prfGrpCauseRead (m : Master) (g : Fin 32) : Statement (.prfGrpCauseRead m g) := fun _ => rfl
theorem workspaceSeal : Statement .workspaceSeal := fun _ => rfl
theorem separationCheck : Statement .separationCheck := fun _ => rfl
theorem chkDone : Statement .chkDone := fun _ => rfl
theorem workspaceResultApply : Statement .workspaceResultApply := fun _ => rfl
theorem sepPsrel (m : Master) (v : W32) : Statement (.sepPsrel m v) := fun _ => rfl
theorem autoRelease : Statement .autoRelease := fun _ => rfl
theorem sepArmWrite (m : Master) (a word : Fin 16) (v : W32) : Statement (.sepArmWrite m a word v) := fun _ => rfl
theorem sepPeakRead (m : Master) : Statement (.sepPeakRead m) := fun _ => rfl
theorem ringSlotSend (kind : Fin 3) : Statement (.ringSlotSend kind) := fun _ => rfl
theorem statusFrame (east : Bool) (t : Nat) (bytes : List Byte) (codeOk : Bool) : Statement (.statusFrame east t bytes codeOk) := fun _ => rfl
theorem dataFrame (east : Bool) (t : Nat) (bytes : List Byte) (codeOk : Bool) : Statement (.dataFrame east t bytes codeOk) := fun _ => rfl
theorem coldStartFrame (east : Bool) (bytes : List Byte) (codeOk : Bool) : Statement (.coldStartFrame east bytes codeOk) := fun _ => rfl
theorem joinFrame (east : Bool) (t : Nat) (bytes : List Byte) (codeOk : Bool) : Statement (.joinFrame east t bytes codeOk) := fun _ => rfl
theorem twinInputFlash (bytes : List Byte) (codeOk : Bool) : Statement (.twinInputFlash bytes codeOk) := fun _ => rfl
theorem maskFlash (bytes : List Byte) (codeOk : Bool) : Statement (.maskFlash bytes codeOk) := fun _ => rfl
theorem twinFlashSend : Statement .twinFlashSend := fun _ => rfl
theorem maskFlashSend : Statement .maskFlashSend := fun _ => rfl
theorem lirMiss (mask : Bool) : Statement (.lirMiss mask) := fun _ => rfl
theorem peerDelayExchange (east : Bool) (d : Nat) : Statement (.peerDelayExchange east d) := fun _ => rfl
theorem ringCycleEnd : Statement .ringCycleEnd := fun _ => rfl
theorem exclusionEnd : Statement .exclusionEnd := fun _ => rfl
theorem listenTimeout : Statement .listenTimeout := fun _ => rfl
theorem coldStartSend : Statement .coldStartSend := fun _ => rfl
theorem coldStartWatchEnd : Statement .coldStartWatchEnd := fun _ => rfl
theorem ringPortFault (east : Bool) : Statement (.ringPortFault east) := fun _ => rfl
theorem ringLinkOk (east : Bool) : Statement (.ringLinkOk east) := fun _ => rfl
theorem heartbeatTimeout : Statement .heartbeatTimeout := fun _ => rfl
theorem crnModereq (m : Master) (v : W32) : Statement (.crnModereq m v) := fun _ => rfl
theorem crnTwinJoin (m : Master) : Statement (.crnTwinJoin m) := fun _ => rfl
theorem crnTwinKeep (m : Master) : Statement (.crnTwinKeep m) := fun _ => rfl
theorem crnTwinSwap (m : Master) : Statement (.crnTwinSwap m) := fun _ => rfl
theorem replayTick : Statement .replayTick := fun _ => rfl
theorem crnStaCntRead (m : Master) (sta : Fin 16) : Statement (.crnStaCntRead m sta) := fun _ => rfl
theorem strPstCntRead (m : Master) (n : Fin 32) (bad : Bool) : Statement (.strPstCntRead m n bad) := fun _ => rfl
theorem timeCycle : Statement .timeCycle := fun _ => rfl
theorem triggerInstance (n : Fin 32) : Statement (.triggerInstance n) := fun _ => rfl
theorem triggerPulseEnd (n : Fin 32) : Statement (.triggerPulseEnd n) := fun _ => rfl
theorem comparePulseStart (n : Fin 32) : Statement (.comparePulseStart n) := fun _ => rfl
theorem captureEdge (n : Fin 16) (level : Bool) : Statement (.captureEdge n level) := fun _ => rfl
theorem offsetSample (m : Master) (b : Fin 6) (v : W32) : Statement (.offsetSample m b v) := fun _ => rfl
theorem timeSet (m : Master) (b : Fin 6) (v : W32) : Statement (.timeSet m b v) := fun _ => rfl
theorem slewComplete (b : Fin 6) : Statement (.slewComplete b) := fun _ => rfl
theorem holdoverEntry (b : Fin 6) : Statement (.holdoverEntry b) := fun _ => rfl
theorem timXtsGo (m : Master) (v : W32) : Statement (.timXtsGo m v) := fun _ => rfl
theorem triggerArm (m : Master) (n : Fin 32) (v : W32) : Statement (.triggerArm m n v) := fun _ => rfl
theorem triggerDisarm (m : Master) (n : Fin 32) (v : W32) : Statement (.triggerDisarm m n v) := fun _ => rfl
theorem timCpWrite (m : Master) (n : Fin 16) (v : W32) : Statement (.timCpWrite m n v) := fun _ => rfl
theorem timCpNsRead (m : Master) (n : Fin 16) : Statement (.timCpNsRead m n) := fun _ => rfl
theorem timTbCauseRead (m : Master) (b : Fin 6) : Statement (.timTbCauseRead m b) := fun _ => rfl
theorem ethFrameReceive (p : Fin 2) (bytes : List Byte) (fcsOk : Bool) : Statement (.ethFrameReceive p bytes fcsOk) := fun h => nomatch h
theorem kppCommand : Statement .kppCommand := fun _ => rfl
theorem kppRead : Statement .kppRead := fun _ => rfl
theorem kppWrite : Statement .kppWrite := fun _ => rfl
theorem kppDoorbell : Statement .kppDoorbell := fun _ => rfl
theorem ethTransmit (p : Fin 2) : Statement (.ethTransmit p) := fun _ => rfl
theorem ethTxComplete (p : Fin 2) : Statement (.ethTxComplete p) := fun _ => rfl
theorem ethLinkChange (p : Fin 2) (up : Bool) : Statement (.ethLinkChange p up) := fun _ => rfl
theorem ethKeyWrite (m : Master) (k : Fin 4) (word : Fin 16) (v : W32) : Statement (.ethKeyWrite m k word v) := fun _ => rfl
theorem ethPortWrite (m : Master) (p : Fin 2) (word : Fin 32) (v : W32) : Statement (.ethPortWrite m p word v) := fun _ => rfl
theorem ethCntRead (m : Master) (p : Fin 2) (word : Fin 15) : Statement (.ethCntRead m p word) := fun _ => rfl
theorem dioDebouncedEdge (n : Fin 32) (x : PinEdge) : Statement (.dioDebouncedEdge n x) := fun _ => rfl
theorem dioOutWrite (m : Master) (v : W32) : Statement (.dioOutWrite m v) := fun _ => rfl
theorem dioOsetWrite (m : Master) (v : W32) : Statement (.dioOsetWrite m v) := fun _ => rfl
theorem dioOrstWrite (m : Master) (v : W32) : Statement (.dioOrstWrite m v) := fun _ => rfl
theorem dioClr (m : Master) (v : W32) (cool : Bool) : Statement (.dioClr m v cool) := fun _ => rfl
theorem dioDebWrite (m : Master) (n : Fin 32) (v : W32) : Statement (.dioDebWrite m n v) := fun _ => rfl
theorem dioOvercurrent (n : Fin 32) : Statement (.dioOvercurrent n) := fun _ => rfl
theorem dioOvertemperature (n : Fin 32) : Statement (.dioOvertemperature n) := fun _ => rfl
theorem fieldUndervoltage : Statement .fieldUndervoltage := fun _ => rfl
theorem fieldGood : Statement .fieldGood := fun _ => rfl
theorem fieldWarnCrossing (x : FieldCross) : Statement (.fieldWarnCrossing x) := fun _ => rfl
theorem dioLinkTimeout : Statement .dioLinkTimeout := fun _ => rfl
theorem lineCorrectionDone (line : BitVec 34) : Statement (.lineCorrectionDone line) := fun _ => rfl
theorem scrubLine (chk : LineCheck) : Statement (.scrubLine chk) := fun _ => rfl
theorem memReload (m : Master) (v : W32) : Statement (.memReload m v) := fun _ => rfl
theorem memZeroFill (m : Master) (v : W32) : Statement (.memZeroFill m v) := fun _ => rfl
theorem reloadDone (x : ReloadEnd) : Statement (.reloadDone x) := fun _ => rfl
theorem memRebuilt (m : Master) (v : W32) (bad : List (BitVec 34)) : Statement (.memRebuilt m v bad) := fun _ => rfl
theorem correctionLogExpiry (line : BitVec 34) : Statement (.correctionLogExpiry line) := fun _ => rfl
theorem memCfgWrite (m : Master) (v : W32) : Statement (.memCfgWrite m v) := fun _ => rfl
theorem memCntRead (m : Master) : Statement (.memCntRead m) := fun _ => rfl
theorem healthEvaluation (w : BitVec 128) : Statement (.healthEvaluation w) := fun _ => rfl
theorem criticalReaction : Statement .criticalReaction := fun _ => rfl
theorem temperatureSample (w : BitVec 256) : Statement (.temperatureSample w) := fun _ => rfl
theorem ageingSample (w : BitVec 384) : Statement (.ageingSample w) := fun _ => rfl
theorem ttlUpdate : Statement .ttlUpdate := fun _ => rfl
theorem dramRetentionMeasure (ms : BitVec 16) : Statement (.dramRetentionMeasure ms) := fun _ => rfl
theorem dramRefreshChange : Statement .dramRefreshChange := fun _ => rfl
theorem eyeMeasure (port : Fin 37) (h w : BitVec 16) : Statement (.eyeMeasure port h w) := fun _ => rfl
theorem ronMeasure (k : Fin 40) (r : BitVec 16) : Statement (.ronMeasure k r) := fun _ => rfl
theorem supplyDipStart (x : RailFall) : Statement (.supplyDipStart x) := fun _ => rfl
theorem supplyDip (r : Fin 8) (dur : W32) (vmin : BitVec 16) : Statement (.supplyDip r dur vmin) := fun _ => rfl
theorem nvInhibitEnd : Statement .nvInhibitEnd := fun _ => rfl
theorem hltShedCmd (m : Master) (v : W32) : Statement (.hltShedCmd m v) := fun _ => rfl
theorem hltRailVminRead (m : Master) (r : Fin 8) : Statement (.hltRailVminRead m r) := fun _ => rfl
theorem powerOnReset : Statement .powerOnReset := fun _ => rfl
theorem pinReset : Statement .pinReset := fun _ => rfl
theorem railReset : Statement .railReset := fun _ => rfl
theorem railOrderViolation : Statement .railOrderViolation := fun _ => rfl
theorem xrefLoss : Statement .xrefLoss := fun _ => rfl
theorem fullReset (m : Master) (v : W32) : Statement (.fullReset m v) := fun _ => rfl
theorem warmReset (m : Master) (v : W32) : Statement (.warmReset m v) := fun _ => rfl
theorem boot (straps : BitVec 6) (trained fwOk : Bool) : Statement (.boot straps trained fwOk) := fun _ => rfl
theorem sysBootCtrlGo (m : Master) (v : W32) (fwOk : Bool) : Statement (.sysBootCtrlGo m v fwOk) := fun _ => rfl
theorem stateRequestConfig (m : Master) : Statement (.stateRequestConfig m) := fun _ => rfl
theorem stateRequestSync (m : Master) : Statement (.stateRequestSync m) := fun _ => rfl
theorem stateRequestRun (m : Master) : Statement (.stateRequestRun m) := fun _ => rfl
theorem runEntry : Statement .runEntry := fun _ => rfl
theorem configEntry : Statement .configEntry := fun _ => rfl
theorem standbyEntry : Statement .standbyEntry := fun _ => rfl
theorem autorunRunRequest : Statement .autorunRunRequest := fun _ => rfl
theorem hostWatchdogExpiry : Statement .hostWatchdogExpiry := fun _ => rfl
theorem sysHostwdKick (m : Master) (v : W32) : Statement (.sysHostwdKick m v) := fun _ => rfl
theorem snapshotRequest (m : Master) (v : W32) : Statement (.snapshotRequest m v) := fun _ => rfl
theorem snapshotDone : Statement .snapshotDone := fun _ => rfl
theorem tickRegPeriodWrite (m : Master) (v : W32) : Statement (.tickRegPeriodWrite m v) := fun _ => rfl
theorem tickRegUlWrite (m : Master) (v : W32) : Statement (.tickRegUlWrite m v) := fun _ => rfl
theorem tickRegDlWrite (m : Master) (v : W32) : Statement (.tickRegDlWrite m v) := fun _ => rfl
theorem tickRegTierWrite (m : Master) (v : W32) : Statement (.tickRegTierWrite m v) := fun _ => rfl
theorem sysAerrCntRead (m : Master) : Statement (.sysAerrCntRead m) := fun _ => rfl
theorem loWordReadLatch (m : Master) (off : BitVec 24) : Statement (.loWordReadLatch m off) := fun _ => rfl
theorem registerWrite (m : Master) (off : BitVec 24) (v : W32) (whole : Bool) : Statement (.registerWrite m off v whole) := fun _ => rfl
theorem bar2Access (write : Bool) (off : BitVec 24) (data : List Byte) (chks : List LineCheck) : Statement (.bar2Access write off data chks) := fun h => nomatch h
theorem hstDoorbell (m : Master) (v : W32) : Statement (.hstDoorbell m v) := fun _ => rfl
theorem commitSubmit (m : Master) (v : W32) : Statement (.commitSubmit m v) := fun _ => rfl
theorem commitCopyDone (chks : List LineCheck) : Statement (.commitCopyDone chks) := fun _ => rfl
theorem commitApply : Statement .commitApply := fun _ => rfl
theorem msixMessage (x : MsixSend) : Statement (.msixMessage x) := fun _ => rfl
theorem dmaGo (m : Master) (ch : Fin 8) (v : W32) : Statement (.dmaGo m ch v) := fun _ => rfl
theorem dmaPiece (data : List Byte) (pcieOk : Bool) (chks : List LineCheck) : Statement (.dmaPiece data pcieOk chks) := fun h => nomatch h
theorem dmaDone (ch : Fin 8) : Statement (.dmaDone ch) := fun _ => rfl
theorem pcieHotReset : Statement .pcieHotReset := fun _ => rfl
theorem switchTestResponse (m : Fin 4) (low : Bool) : Statement (.switchTestResponse m low) := fun _ => rfl
theorem fbkLchQerrRead (m : Master) (n : Fin 16) : Statement (.fbkLchQerrRead m n) := fun _ => rfl
theorem forwardedFrameEgress (p : Fin 2) : Statement (.forwardedFrameEgress p) := fun _ => rfl

end Sys2Proof.Laws.Footprint
end

