-- ==== Sys2Proof/Laws/Pod.lean ====
section
/-!
SUPPORT. What the issue of a pod's instruction does, case by case: the later proofs cite these and never unfold it.
-/
namespace Sys2Proof.Machine

/-- A good line reads at once. -/
theorem Chip.checkLine_good (c : Chip) (kind pod a : Nat) (h : c.lineGood a) : c.checkLine kind pod a .pass = (c, .ok) := by
  obtain ⟨h1, h2, h3⟩ := h
  simp only [Chip.checkLine, h1, h2, h3, Bool.false_eq_true, if_false]

/-- No register of the list is owed. -/
theorem Pod.free_any (p : Pod) (rs : List PReg) (h : p.free rs) : rs.any p.owes = false := by
  simpa [List.any_eq_false, Pod.free] using h

/-- Without a replay, work is done as it stands. -/
theorem Chip.inWork_live (c : Chip) (f : Chip → Chip) (h : c.twin.replay = none) : c.inWork f = f c := by
  simp only [Chip.inWork, h]

/-- Issue on a ready pod comes down to the word's legality, the registers owed, and the body. -/
theorem Chip.issue_ready (c : Chip) (n : Nat) (legal : Bool) (uses : List PReg) (body : Chip → Pod → Eff) (h : c.podReady n) :
    c.issue n legal uses body =
      if !legal then c.podTrap n 1 (c.pod n).ownPc
      else if uses.any (c.pod n).owes then c
      else match body c (c.pod n) with
        | .stall d => d
        | .trap d cause addr => d.podTrap n cause addr
        | .done d => d.modPod n fun q => q.retire.flagTrap (c.pod n).pstat
        | .jump d => d := by
  obtain ⟨h1, h2, h3⟩ := h
  simp only [Chip.issue, h1, if_true, Chip.inWork, h2, Chip.issueWith, Chip.checkLine_good c 1 n _ h3]
  try rfl

/-- A legal instruction whose registers are free and whose body completes. -/
theorem Chip.issue_done (c : Chip) (n : Nat) (legal : Bool) (uses : List PReg) (body : Chip → Pod → Eff) (d : Chip)
    (h : c.podReady n) (hl : legal = true) (hu : (c.pod n).free uses) (hb : body c (c.pod n) = .done d) :
    c.issue n legal uses body = d.modPod n fun q => q.retire.flagTrap (c.pod n).pstat := by
  rw [Chip.issue_ready c n legal uses body h, hl, Pod.free_any _ _ hu, hb]
  simp only [Bool.not_true, Bool.false_eq_true, if_false]

/-- A legal instruction whose registers are free and whose body jumps. -/
theorem Chip.issue_jump (c : Chip) (n : Nat) (legal : Bool) (uses : List PReg) (body : Chip → Pod → Eff) (d : Chip)
    (h : c.podReady n) (hl : legal = true) (hu : (c.pod n).free uses) (hb : body c (c.pod n) = .jump d) :
    c.issue n legal uses body = d := by
  rw [Chip.issue_ready c n legal uses body h, hl, Pod.free_any _ _ hu, hb]
  simp only [Bool.not_true, Bool.false_eq_true, if_false]

/-- A legal instruction whose registers are free and whose body traps. -/
theorem Chip.issue_trap (c : Chip) (n : Nat) (legal : Bool) (uses : List PReg) (body : Chip → Pod → Eff) (d : Chip) (k a : Nat)
    (h : c.podReady n) (hl : legal = true) (hu : (c.pod n).free uses) (hb : body c (c.pod n) = .trap d k a) :
    c.issue n legal uses body = d.podTrap n k a := by
  rw [Chip.issue_ready c n legal uses body h, hl, Pod.free_any _ _ hu, hb]
  simp only [Bool.not_true, Bool.false_eq_true, if_false]

/-- A word that is no legal instruction traps with cause 1. -/
theorem Chip.issue_illegal (c : Chip) (n : Nat) (legal : Bool) (uses : List PReg) (body : Chip → Pod → Eff)
    (h : c.podReady n) (hl : legal = false) : c.issue n legal uses body = c.podTrap n 1 (c.pod n).ownPc := by
  rw [Chip.issue_ready c n legal uses body h, hl]
  simp only [Bool.not_false, if_true]

/-- A command that finds the pod not issuing changes nothing. -/
theorem Chip.issue_idle (c : Chip) (n : Nat) (legal : Bool) (uses : List PReg) (body : Chip → Pod → Eff)
    (h : (c.pod n).issues = false) : c.issue n legal uses body = c := by
  simp only [Chip.issue, h, Bool.false_eq_true, if_false]

/-- A pod reads as it was written. -/
@[simp] theorem Chip.pod_setPod (c : Chip) (n : Nat) (p : Pod) : (c.setPod n p).pod n = p := tabGet_put_self _ _ _ _

/-- Another pod stays. -/
theorem Chip.pod_setPod_ne (c : Chip) (n k : Nat) (p : Pod) (h : k ≠ n) : (c.setPod n p).pod k = c.pod k :=
  tabGet_put_ne _ _ _ _ h _

/-- A write of a pod keeps the canonical form of the pods' table. -/
theorem Chip.setPod_wf (c : Chip) (n : Nat) (p : Pod) (h : tabWf (fun _ => Pod.reset) c.pods = true) :
    tabWf (fun _ => Pod.reset) (c.setPod n p).pods = true := tabPut_wf _ _ _ _ h

end Sys2Proof.Machine
end

