-- ==== Sys2Proof/Laws/Regs.lean ====
section
/-!
SUPPORT. The registers: a read after a write, the canonical form of the register file, what a register-write command comes
down to when it leaves no request, and when the live work of a tick is done.
-/
namespace Sys2Proof.Machine

/-- The register file of the machine right after reset is canonical. -/
theorem Regs.reset_wf : tabWf regReset State.reset.chip.regs = true := rfl

/-- A written register reads back. -/
@[simp] theorem Chip.reg_setReg (c : Chip) (off : Nat) (v : W32) : (c.setReg off v).reg off = v := tabGet_put_self _ _ _ _

/-- Another register stays. -/
theorem Chip.reg_setReg_ne (c : Chip) (off x : Nat) (v : W32) (hx : x ≠ off) : (c.setReg off v).reg x = c.reg x :=
  tabGet_put_ne _ _ _ _ hx _

/-- A write keeps the canonical form of the register file. -/
theorem Chip.setReg_wf (c : Chip) (off : Nat) (v : W32) (h : tabWf regReset c.regs = true) :
    tabWf regReset (c.setReg off v).regs = true := tabPut_wf _ _ _ _ h

/-- Without a request nothing is left to meet. -/
theorem State.settle_quiet (s : State) (chk : StepCheck) (h : s.chip.quiet = true) : s.settle chk = s := by
  simp only [State.settle, h, if_true]

/-- A change of the chip that leaves no request is the whole effect. -/
theorem State.onChipThen_quiet (s : State) (c : Chip) (h : c.quiet = true) : s.onChipThen c = .next (s.withChip c) := by
  simp only [State.onChipThen, State.withChip]
  rw [State.settle_quiet]
  exact h

/-- A write to a register of an open block that leaves no request is the block's own effect; SET of TB0 is the host's alone (R368). -/
theorem State.regw_open (s : State) (m : Master) (off : Nat) (v : W32) (h1 : off / 0x100000 ≠ 12)
    (h2 : ¬ (0x900400 ≤ off ∧ off < 0x900500 ∧ m.val ≠ 40)) (h3 : (regDesc off).isNone = false)
    (h5 : ¬ (0x80011C ≤ off ∧ off < 0x800128 ∧ ¬ (32 ≤ m.val ∧ m.val ≤ 42))) (h4 : (s.chip.blockWrite off v).quiet = true) : s.regw m off v = .next (s.withChip (s.chip.blockWrite off v)) := by
  simp only [State.regw, Chip.regWrite, h1, h2, h3, h5, if_false, Bool.false_eq_true]
  exact State.onChipThen_quiet _ _ h4

/-- The live work of a tick is done in a module whose ticks run and where no joiner replays. -/
theorem State.live_on (s : State) (f : Chip → Chip) (h : s.chip.alive) : s.live f = .next (s.withChip (f s.chip)) := by
  have h1 : s.chip.liveWork = true := by simp only [Chip.liveWork, h.1, h.2, Option.isNone_none, Bool.and_true]
  simp only [State.live, h1, if_true, State.onChip, State.withChip]

/-- Elsewhere it changes nothing. -/
theorem State.live_off (s : State) (f : Chip → Chip) (h : s.chip.liveWork = false) : s.live f = .next s := by
  simp only [State.live, h, Bool.false_eq_true, if_false, State.onChip]

end Sys2Proof.Machine
end

