-- ==== Sys2Proof/Laws/Startup.lean ====
section
/-!
SUPPORT. The checks on leaving CONFIG: one that passes hands its chip to the next, and the feedback unit's check, which computes the
observers' gains, changes registers of the feedback block alone.
-/
namespace Sys2Proof.Machine

/-- What every turn of a counted loop keeps, the loop keeps. -/
theorem forN_keeps {α : Type} (P : α → Prop) (f : Nat → α → α) (n : Nat) (h : ∀ k a, k < n → P a → P (f k a)) (a : α) (ha : P a) : P (forN n f a) := by
  have : ∀ m, m ≤ n → P (forN m f a) := by
    intro m
    induction m with
    | zero => exact fun _ => ha
    | succ m ih => intro hm; unfold forN at *; rw [List.range_succ, List.foldl_append]; exact h _ _ (by omega) (ih (by omega))
  exact this n (Nat.le_refl n)

/-- Two chips that differ in registers of the feedback block alone. -/
def Chip.SameButFbk (c d : Chip) : Prop := d = { c with regs := d.regs } ∧ ∀ o, (o < 0x400000 ∨ 0x500000 ≤ o) → d.reg o = c.reg o

/-- R147, R455: the feedback unit's check passes with every gain computed. -/
theorem Chip.fbkLeave_pass (c : Chip) (h : c.fbkOk = true) : ∃ d, c.fbkLeave = (d, true) ∧ Chip.SameButFbk c d := by
  unfold Chip.fbkLeave
  rw [if_pos h]
  refine ⟨_, rfl, forN_keeps (Chip.SameButFbk c) _ 256 ?_ c ⟨rfl, fun _ _ => rfl⟩⟩
  rintro k d hk ⟨h1, h2⟩
  split
  · refine ⟨by rw [h1]; rfl, ?_⟩
    intro o ho
    unfold Chip.setGains
    rw [Chip.reg_setReg_ne _ _ _ _ (by unfold obsReg; omega), Chip.reg_setReg_ne _ _ _ _ (by unfold obsReg; omega), Chip.reg_setReg_ne _ _ _ _ (by unfold obsReg; omega)]
    exact h2 o ho
  · exact ⟨h1, h2⟩

/-- A check that passes hands over to the next. -/
theorem firstFail_pass {n : Nat} {f : Chip → Chip × Bool} {l : List (Nat × (Chip → Chip × Bool))} {c d : Chip} (h : f c = (d, true)) :
    firstFail ((n, f) :: l) c = firstFail l d := by
  simp only [firstFail, h]

/-- The first four checks on leaving CONFIG, where they pass. -/
theorem leave_first {c d : Chip} (h0 : c.sysLeave = (c, true)) (h1 : c.planLeave = (c, true)) (h2 : c.lpeLeave = (c, true))
    (h3 : c.fbkLeave = (d, true)) : firstFail leaveChecks c = firstFail (leaveChecks.drop 4) d := by
  unfold leaveChecks
  rw [firstFail_pass h0, firstFail_pass h1, firstFail_pass h2, firstFail_pass h3]
  rfl

end Sys2Proof.Machine
end

