-- ==== Sys2Proof/Tests/Slice0.lean ====
section
/-!
SUPPORT. Tests: what the well-formedness checks refuse, single steps with the values of the spec's own examples, and for every
statement with hypotheses a state and operands that meet them, clause by clause.
-/
-- One theorem at a time: evaluating them side by side would ask for more memory than the check allows.
set_option Elab.async false

namespace Sys2Proof.Tests
open Sys2Proof Sys2Proof.Machine

/-! ## Small states -/

/-- The reset state with another chip. -/
def onChip (f : Chip → Chip) : State := { State.reset with chip := f State.reset.chip }
/-- With pod 0 running. -/
def onPod (f : Pod → Pod) : State := onChip fun c => c.modPod 0 fun p => f { p with state := .running }
/-- With ticks running. -/
def live (f : Chip → Chip) : State := onChip fun c => f { c with ticking := true }
/-- In CONFIG. -/
def config (f : Chip → Chip) : State := onChip fun c => f { c with modState := .config }
/-- With another Husk, and with another core. -/
def onHusk (f : Husk → Husk) : State := { State.reset with husk := f State.reset.husk }
def onCore (f : SafetyCore → SafetyCore) : State := { State.reset with core := f State.reset.core }
/-- What an outcome leaves in the state, where it is a next state. -/
def after {α : Type} (o : Host.Outcome State Fault Refusal) (f : State → α) : Option α := match o with
  | .next t => some (f t)
  | _ => none

/-! ## Well-formedness and decoding -/

set_option maxRecDepth 8000 in
/-- The five checks each refuse a command: a NOP whose word is an ADD, bytes beyond a window, none at all, a DMA piece of more than
512 bytes, a frame shorter than its header. -/
theorem test_ill_formed :
    (Instr.nop 0 0x00C22010#32 .pass).wellFormed = false ∧ (Instr.imemWindowWrite 0 0 0xFFFF ⟨[1, 2], .pass⟩).wellFormed = false ∧
    (Instr.bar2Access true 0 [] []).wellFormed = false ∧
    (Instr.dmaPiece (List.replicate 513 0) true []).wellFormed = false ∧
    (Instr.ethFrameReceive 0 [] true).wellFormed = false := by decide

set_option maxRecDepth 8000 in
/-- The same checks pass at their boundaries. -/
theorem test_well_formed :
    (Instr.nop 0 0xA0000000#32 .pass).wellFormed = true ∧ (Instr.imemWindowWrite 0 0 0xFFFE ⟨[1, 2], .pass⟩).wellFormed = true ∧
    (Instr.bar2Access true 0xFFFFFF [1] []).wellFormed = true ∧ (Instr.dmaPiece (List.replicate 512 0) true []).wellFormed = true ∧
    (Instr.ethFrameReceive 0 (List.replicate 14 0) true).wellFormed = true := by decide

/-- The table gives its rows no bits. -/
theorem test_no_table_word : decodeTableWord 32 0xA0000000 = none := rfl

/-- A NOP command whose word spells another instruction is refused by name. -/
theorem test_refusal : after (exec (.nop 0 0x00C22010#32 .pass) (onPod id)) (fun _ => ()) = none := by decide

/-! ## Words of the pod and the spec's worked values -/

/-- What a word does on pod 0. -/
def runWord (w : W32) (s : State) : Option Pod := (decodeWord w).map fun r => (r s.chip 0).pod 0

/-- R83, format R: ADD s3, s1, s2 is 0x0 | S 0 | RD 3 | RA 1 | RB 2 | MINOR 0x01 | MASK 0. -/
theorem test_word_add : (runWord 0x00C22010#32 (onPod fun p => (p.sset 1 5).sset 2 7)).map (fun p => (p.sget 3, p.pc)) =
    some (12, 4) := by decide
/-- R83, R48: the same with S 1 clamps the sum at the top of the signed range and sets ISAT. -/
theorem test_word_add_sat : (runWord 0x08C22010#32 (onPod fun p => (p.sset 1 0x7FFFFFFFFFFFFFFF#64).sset 2 1)).map
    (fun p => (p.sget 3, p.pstat)) = some (0x7FFFFFFFFFFFFFFF#64, 0x10#64) := by decide
/-- R84, format I: ADDI s3, s1, −2 has IMM 0x3FFE. -/
theorem test_word_addi : (runWord 0x40C23FFE#32 (onPod fun p => p.sset 1 1)).map (fun p => p.sget 3) =
    some 0xFFFFFFFFFFFFFFFF#64 := by decide
/-- R85: the constant 1.0 is MOVW s3 with HW 1, KEEP 0, IMM 0x3F80. -/
theorem test_word_movw : (runWord 0x54303F80#32 (onPod id)).map (fun p => p.sget 3) = some 0x3F800000#64 := by decide
/-- The kinematics listing: vor.w v1, v11, v11, mask 0b1000 is 0x1056_B478 and writes the top lane alone. -/
theorem test_word_vor : (runWord 0x1056B478#32 (onPod fun p => (p.vset 11 0x3F8000003F8000003F8000003F800000#128).vset 1 7)).map
    (fun p => p.vget 1) = some 0x3F800000000000000000000000000007#128 := by decide
/-- The kinematics listing: fdot.s v1, v8, v0, mask 0b0001 is 0x2850_0111; the row (0, −1, 0, 0.5) with the point
(0.3125, 0.125, 0.0625, 1.0) gives 0.375, 0x3EC0_0000. -/
theorem test_word_fdot_x : (runWord 0x28500111#32 (onPod fun p => (p.vset 8 0x3F00000000000000BF80000000000000#128).vset 0
    0x3F8000003D8000003E0000003EA00000#128)).map (fun p => p.vget 1) = some 0x3EC00000#128 := by decide
/-- The same listing: fdot.s v1, v10, v0, mask 0b0100 is 0x2854_0114; the row (0, 0, 1, 1.125) gives 1.1875, 0x3F98_0000. -/
theorem test_word_fdot_z : (runWord 0x28540114#32 (onPod fun p => (p.vset 10 0x3F9000003F8000000000000000000000#128).vset 0
    0x3F8000003D8000003E0000003EA00000#128)).map (fun p => p.vget 1) = some 0x000000003F9800000000000000000000#128 := by decide
set_option maxRecDepth 8000 in
/-- The kinematics listing: sv v1, [ag1] is 0x7E12_0000; ldvv v0, v2, ag0, ag0 is 0x8002_0000 and advances ag0 by two steps. -/
theorem test_word_sv : ((decodeWord 0x7E120000#32).map fun r =>
    (r (onPod fun p => (p.vset 1 0x0123#128).agSet 1 { base := 0x600, len := 0, ptr := 0, step := 16 }).chip 0).bytesAt (podWin 0 + 0x600) 2) =
    some [0x23, 0x01] := by decide
theorem test_word_ldvv : (runWord 0x80020000#32 (onPod fun p => p.agSet 0 { base := 0x400, len := 0, ptr := 0, step := 16 })).map
    (fun p => (p.agGet 0).ptr) = some 32 := by decide
/-- The same listing: rep l0, 11, 8 is 0xC00B_0008. -/
theorem test_word_rep : (runWord 0xC00B0008#32 (onPod id)).map (fun p => p.levels) = some [{ cnt := 8, first := 4, last := 44 }] := by decide
/-- The long-sum listing: beq s6, s0, 3 is 0x9060_0003. -/
theorem test_word_beq : (runWord 0x90600003#32 (onPod id)).map (fun p => p.pc) = some 12 := by decide
/-- R92, major 3: mac2l acc1, v0, v1 with lanes 0 and 1 of 3 × 5 and 2 × (−1). -/
theorem test_word_mac2l : (runWord 0x30401010#32 (onPod fun p => (p.vset 0 0x0000000200000003#128).vset 1 0xFFFFFFFF00000005#128)).map
    (fun p => p.accGet 1) = some 13 := by decide
/-- R100, major A: MFSR s3, PSTAT has FUNC 0x08. -/
theorem test_word_mfsr : (runWord 0xA2060000#32 (onPod fun p => { p with pstat := 0x18 })).map (fun p => p.sget 3) = some 0x18 := by decide
/-- R108: the words 0 and 0xB000_0000 are illegal, the second by its major. -/
theorem test_illegal_words : after (exec (.nop 0 0x00000000#32 .pass) (onPod id)) (fun t => (t.chip.pod 0).lastCause) = some 1 ∧
    after (exec (.nop 0 0xB0000000#32 .pass) (onPod id)) (fun t => (t.chip.pod 0).lastCause) = some 1 := by decide
/-- The text after R91: FMUL of 0.1 by 3.0 is 0x3E99_9999. -/
theorem test_fmul : after (exec (.fmul 0 false 2 0 1 1) (onPod fun p => (p.vset 0 0x3DCCCCCD#128).vset 1 0x40400000#128))
    (fun t => (t.chip.pod 0).vget 2) = some 0x3E999999#128 := by decide
/-- The text after R63: LEN = 0x400 with PTR 0x5A0 leaves PTR 0x1A0 and sets AGSTAT bit 3. -/
theorem test_circ_trim : after (exec (.agw 0 0 1 0x13) (onPod fun p => (p.sset 1 0x400).agSet 3
    { base := 0, len := 0x600, ptr := 0x5A0, step := 16 })) (fun t => (((t.chip.pod 0).agGet 3).ptr, (t.chip.pod 0).agstat)) =
    some (0x1A0, 8) := by decide
/-- R369: 500 ppm is 8,796,093,022 and 1 ppm is 17,592,186. -/
theorem test_ppm : ppmRate 500 = 8796093022 ∧ ppmRate 1 = 17592186 := by decide
/-- R234: three pulses at the default tick of 15,625 ns rise at 2,604, 7,812 and 13,020 ns. -/
theorem test_pulses : pulseTimes 3 15625 0 = [2604, 7812, 13020] := by decide
/-- CRC-32C of the nine digits, the check value of the polynomial that the spec names. -/
theorem test_crc : crc32c [0x31, 0x32, 0x33, 0x34, 0x35, 0x36, 0x37, 0x38, 0x39] = 0xE3069283 := by decide +kernel
/-- On an empty queue the block idles; a command in front is taken. -/
theorem test_queue : after (step State.reset) (fun t => t.pending) = some [] ∧
    after (step { State.reset with pending := [.tick, .tick] }) (fun t => t.pending) = some [.tick] := by decide

/-! ## What meets the hypotheses: pods

Every theorem named after a statement shows states and operands that meet its hypotheses, each clause at a boundary of its range. -/

/-- A pod that issues, with no register owed, for every statement about the instructions. -/
theorem wit_ready : (onPod id).chip.podReady 0 ∧ ((onPod id).chip.pod 0).free [.s 31, .s 0, .s 1, .v 0, .v 31] := by
  unfold Chip.podReady Chip.lineGood Pod.free; decide

theorem wit_EmptyQueueIdles : State.reset.pending = [] := rfl

theorem wit_ScalarRegisterResults : (onPod id).chip.podReady 0 ∧ ((onPod id).chip.pod 0).free [.s 31, .s 31, .s 0] := by
  unfold Chip.podReady Chip.lineGood Pod.free; decide

/-- The three cases of a clamp: just inside, just below and just above the signed and the unsigned range. -/
theorem wit_ScalarSaturation :
    let p := ((onPod fun p => ((((p.sset 1 0x7FFFFFFFFFFFFFFF#64).sset 2 1).sset 3 0x8000000000000000#64).sset 4 0xFFFFFFFFFFFFFFFF#64)).chip.pod 0)
    (p.sget 1).toInt + (p.sget 0).toInt = 2 ^ 63 - 1 ∧ 2 ^ 63 - 1 < (p.sget 1).toInt + (p.sget 2).toInt ∧
    (p.sget 3).toInt + (p.sget 4).toInt < -(2 ^ 63) ∧ (2 : Int) ^ 64 - 1 < ((p.sget 4).toNat : Int) + (p.sget 2).toNat ∧
    ((p.sget 2).toNat : Int) - (p.sget 4).toNat < 0 ∧ p.free [.s 1, .s 2, .s 3, .s 4] := by
  unfold Pod.free; decide

theorem wit_ScalarImmediateResults : (onPod id).chip.podReady 0 ∧ ((onPod id).chip.pod 0).free [.s 31, .s 0] := by
  unfold Chip.podReady Chip.lineGood Pod.free; decide

/-- 64-bit lanes need their mask bits in pairs; 16-bit lanes take lane 7. -/
theorem wit_VectorResults : (onPod id).chip.podReady 0 ∧ ((onPod id).chip.pod 0).free [.v 31, .v 0, .v 1, .s 31] ∧
    (2#2 ≠ 3) ∧ maskOk 12 (laneWidth 2) = true ∧ maskOk 5 (laneWidth 0) = true ∧ (7 < 128 / laneWidth 0) ∧ (1 < 128 / laneWidth 2) := by
  unfold Chip.podReady Chip.lineGood Pod.free; decide
theorem wit_VectorResults_row : ∃ row, row ∈ vectorRows 0 true 1 2 3 2 12 64 := ⟨_, .head _⟩
theorem wit_FloatLaneResults : ∃ row, row ∈ floatRows 0 false 1 2 3 15 0 0 0 0 ∧ row.2.1 = true := ⟨_, .head _, rfl⟩

/-- The largest finite, the smallest normal and what lies past them; a NaN, two infinities of either sign, zeros, a root of −1. -/
theorem wit_FloatRoundingAndInvalids : (16777215 : Int) ≠ 0 ∧ 128 ≤ (Nat.log2 16777216 : Int) + 104 ∧ (Nat.log2 16777215 : Int) + 104 < 128 ∧
    (Nat.log2 1 : Int) + -127 < -126 ∧ -126 ≤ (Nat.log2 1 : Int) + -126 ∧ isNaN32 0x7F800001#32 = true ∧ isZero32 0x80000000#32 = true ∧
    f32Sign 0xBF800000#32 = true ∧ isZero32 0xBF800000#32 = false ∧ isInf32 0xFF800000#32 = true ∧ isInf32 0x7F800000#32 = true ∧
    f32Sign 0xFF800000#32 ≠ f32Sign 0x7F800000#32 := by decide

/-- The exact sum at both ends of the 80-bit range and one past them. -/
theorem wit_AccumulatorStep : let p := Pod.reset.accSet 0 (BitVec.ofInt 80 (2 ^ 79 - 1))
    let q := Pod.reset.accSet 0 (BitVec.ofInt 80 (-(2 ^ 79)))
    (p.accGet 0).toInt + 0 < 2 ^ 79 ∧ 2 ^ 79 ≤ (p.accGet 0).toInt + 1 ∧ -(2 ^ 79) ≤ (q.accGet 0).toInt + 0 ∧
    (q.accGet 0).toInt + -1 < -(2 ^ 79) := by decide

theorem wit_AccumulatorTransfers : (onPod id).chip.podReady 0 ∧ ((onPod id).chip.pod 0).free [.v 0, .v 31, .s 31] ∧ (6 : Fin 8).val % 2 = 0 ∧
    (let a := (Pod.reset.accSet 7 (BitVec.ofInt 80 (2 ^ 63))).accGet 7
     2 ^ 63 ≤ a.toInt / 2 ^ 0 ∧ a.toInt / 2 ^ 1 < 2 ^ 63 ∧ -(2 ^ 63) ≤ a.toInt / 2 ^ 1) ∧
    ((Pod.reset.accSet 7 (BitVec.ofInt 80 (-(2 ^ 63) - 1))).accGet 7).toInt / 2 ^ 0 < -(2 ^ 63) := by
  unfold Chip.podReady Chip.lineGood Pod.free; decide

/-- A linear generator; a circular one with its pointer at the last byte, with a step of the whole buffer, and one past it. -/
theorem wit_GeneratorAddresses : (Pod.reset.agGet 0).len = 0 ∧
    (let g := (Pod.reset.agSet 7 { base := 0, len := 64, ptr := 63, step := 64 }).agGet 7
     g.len ≠ 0 ∧ g.ptr.toNat < g.len.toNat ∧ g.step.toInt.natAbs ≤ g.len.toNat) ∧
    (let g := (Pod.reset.agSet 7 { base := 0, len := 64, ptr := 64, step := 0 }).agGet 7
     g.len ≠ 0 ∧ g.len.toNat ≤ g.ptr.toNat) := by decide

/-- The last byte of the own memories, and all three modes. -/
theorem wit_OwnLoads : ∃ row, row ∈ loadRows 0 31 7 0 0 ∧ ((onPod id).chip.pod 0).memReady (row.2.1.reg 31) 0 0 ∧
    ((onPod fun p => p.agSet 7 { base := 0x4FFFF, len := 0, ptr := 0, step := 1 }).chip.pod 0).memAddr 7 0 0 row.2.1.bytes =
      some (0x4FFFF, { base := 0x4FFFF, len := 0, ptr := 1, step := 1 }) ∧ 0x4FFFF % row.2.1.bytes = 0 ∧
    (onPod id).chip.lineGood (podWin 0 + 0x4FFFF) := by
  refine ⟨_, .head _, ?_⟩; unfold Pod.memReady Chip.lineGood; decide
theorem wit_memReady : ((onPod id).chip.pod 0).memReady (.s 31) 1 31 ∧ ((onPod id).chip.pod 0).memReady (.v 31) 2 0x7FFF := by
  unfold Pod.memReady; decide

/-- The last byte of the own data memory, where no region is backed. -/
theorem wit_OwnStores : Memory.wf (onPod id).chip.cells = true ∧ ∃ row, row ∈ storeRows 0 31 7 2 0 ((onPod id).chip.pod 0) ∧
    ((onPod id).chip.pod 0).memReady row.2.2.1 2 0 ∧
    ((onPod fun p => p.agSet 7 { base := 0x3FFFF, len := 0, ptr := 0, step := 0 }).chip.pod 0).memAddr 7 2 0 row.2.1 =
      some (0x3FFFF, { base := 0x3FFFF, len := 0, ptr := 0, step := 0 }) ∧ 0x3FFFF % row.2.1 = 0 ∧
    (onPod id).chip.mem.handling.contains ((podWin 0 + 0x3FFFF) / 64) = false ∧
    (onPod id).chip.isBacked (podWin 0 + 0x3FFFF) = false := by
  refine ⟨rfl, _, .head _, ?_⟩; unfold Pod.memReady; decide

/-- The first cell address, with a fourth load and an eighth store still free. -/
theorem wit_FabricAccessesIssue : spaceOf 0x0010000000 ≠ .unmapped ∧ (spaceOf 0x0010000000 = .regs → 4 ≤ 1) ∧ 0x50000 ≤ 0x0010000000 ∧
    ((onPod id).chip.pod 0).loads.length < 4 ∧ ((onPod id).chip.pod 0).stores.length < 8 ∧
    (Pod.reset.agSet 0 { base := 0x0010000000, len := 0, ptr := 0, step := 0 }).memAddr 0 0 0 1 =
      some (0x0010000000, { base := 0x0010000000, len := 0, ptr := 0, step := 0 }) := by decide

/-- A misaligned word, the first address past the own memories, and a byte of a register. -/
theorem wit_AccessTraps : 1 % (LoadKind.sext 2).bytes ≠ 0 ∧ 0x50000 % (LoadKind.sext 1).bytes = 0 ∧ spaceOf 0x50000 = .unmapped ∧
    spaceOf 0x0020000000 = .regs ∧ (LoadKind.sext 1).bytes < 4 := by decide

/-- Both accesses at the last vector of the own data memory, both on the fabric, and one of each. -/
theorem wit_PairedAccesses : ((onPod id).chip.pod 0).free [.v 0, .v 0] ∧
    ((Pod.reset.agSet 0 { base := 0x3FFF0, len := 0, ptr := 0, step := 0 }).pairAddrs 0 0).map (fun x => (x.1, x.2.1)) = some (0x3FFF0, 0x3FFF0) ∧
    (onPod id).chip.lineGood (podWin 0 + 0x3FFF0) ∧ (onPod id).chip.mem.handling.contains ((podWin 0 + 0x3FFF0) / 64) = false ∧
    (onPod id).chip.isBacked (podWin 0 + 0x3FFF0) = false ∧ ((onPod id).chip.pod 0).awaits 0x3FFF0 16 = false ∧
    (let q := (Pod.reset.agSet 0 { base := 0x0010000000, len := 0, ptr := 0, step := 0 }).agSet 1 { base := 0x3FFF0, len := 0, ptr := 0, step := 0 }
     (q.pairAddrs 0 0).map (fun x => (x.1, x.2.1)) = some (0x0010000000, 0x0010000000) ∧
     (q.pairAddrs 0 1).map (fun x => (x.1, x.2.1)) = some (0x0010000000, 0x3FFF0) ∧
     (q.pairAddrs 1 0).map (fun x => (x.1, x.2.1)) = some (0x3FFF0, 0x0010000000)) ∧
    spaceOf 0x0010000000 ≠ .unmapped ∧ 0x50000 ≤ 0x0010000000 ∧ (onPod id).chip.ownStoreWaits 0 0x3FFF0 16 = false ∧
    ((onPod id).chip.pod 0).loads.length ≤ 2 ∧ ((onPod id).chip.pod 0).stores.length < 8 := by
  unfold Pod.free Chip.lineGood; decide

theorem wit_BranchesAndCalls : let p := (onPod fun p => (p.sset 1 1).sset 2 0x8000000000000000#64).chip.pod 0
    p.free [.s 1, .s 2] ∧ p.sget 1 ≠ p.sget 2 ∧ p.sget 1 = p.sget 1 ∧ (p.sget 2).toInt < (p.sget 1).toInt ∧
    (p.sget 1).toNat < (p.sget 2).toNat := by
  unfold Pod.free; decide

/-- One instruction to the last word of the memory, inside three levels; counts 0, 1 and 65,535; a body in its last iteration. -/
theorem wit_HardwareLoops :
    (let p := { Pod.reset with state := .running, pc := 0xFFF8 }
     let l : RepLevel := { cnt := 1, first := 0, last := 0xFFFC }
     let q := { p with levels := [l, l, l] }
     0 < 1 ∧ q.pc.toNat + 4 * 1 ≤ 0xFFFC ∧ (∀ l, l ∈ q.levels → q.pc.toNat + 4 ≤ l.last.toNat) ∧ q.levels.length < 4 ∧ (1#16 ≠ 0) ∧
     ((q.sset 1 65535).sget 1).toNat ≤ 65535 ∧ (q.sget 1).toNat = 0 ∧ q.free [.s 1] ∧
     (let r := { q with pc := 0xFFFC }; q.levels = [l, l] ++ [l] ∧ l.last = r.pc ∧ l.last ≠ q.pc ∧ l.cnt ≤ 1) ∧ 1 < 2) := by
  unfold Pod.free; decide

/-! ## What meets the hypotheses: sprouts, system, traps -/

/-- A sprout of a tick-bound task, taken or not. -/
def sprout1 (taken : Bool) : Slot :=
  { sprout := { id := 0, task := 9, tb := true, flags := 1, item := none, aflow := none, queue := 0 }, order := 0, taken := taken
    takenAt := 0, doneIssued := false }

/-- An untaken sprout in slot 7; none held; eight taken. -/
theorem wit_GetTakesOldest : (Pod.reset.setSlot 7 (some (sprout1 false))).oldestUntaken = some (7, sprout1 false) ∧
    Pod.reset.oldestUntaken = none ∧ Pod.reset.held.length < 8 ∧
    (let p := forN 8 (fun k p => p.setSlot k (some (sprout1 true))) Pod.reset
     p.oldestUntaken = none ∧ 8 ≤ p.held.length) ∧ ((onPod fun p => p.sset 1 1).chip.pod 0).sget 1 ≠ 0 ∧
    ((onPod id).chip.pod 0).free [.s 31, .s 1] := by
  unfold Pod.free; decide

theorem wit_SchedulerOperations : let p := (onPod fun p => (p.sset 1 0x70000#64).setSlot 7 (some (sprout1 true))).chip.pod 0
    p.toSched.length < 4 ∧ p.free [.s 0, .s 1, .s 31] ∧ (p.sget 1).toNat / 2 ^ 16 % 8 = 7 ∧ p.slot 7 = some (sprout1 true) ∧
    (sprout1 true).taken = true ∧ (sprout1 true).doneIssued = false ∧ (31#5 ≠ 0) := by
  unfold Pod.free; decide

theorem wit_NopFenceAndReturn : ((onPod id).chip.pod 0).stores = [] ∧
    ((onPod fun p => { p with stores := [{ addr := 0x0010000000, bytes := [1], dwr := false }] }).chip.pod 0).stores ≠ [] ∧
    (let p := (onPod fun p => { p with state := .handler, pstat := 4 }).chip.pod 0
     p.issues = true ∧ p.inHandler = true ∧ (∀ l, l ∈ p.levels → l.last ≠ p.pc) ∧ p.pendOverrun = none ∧ p.pendFlag = none) := by decide

theorem wit_SpecialRegistersAndGenerators : ((onPod id).chip.pod 0).free [.s 31] ∧ (Pod.reset.agGet 7).len = 0 ∧
    (let h : AddrGen := { base := 0, len := 64, ptr := 64, step := 0 }; h.len ≠ 0 ∧ ¬ h.ptr < h.len) ∧
    (let h : AddrGen := { base := 0, len := 64, ptr := 63, step := 0 }; h.ptr < h.len) := by
  unfold Pod.free; decide

theorem wit_TimeReads : ((onPod id).chip.pod 0).free [.s 31] ∧ 5 < 6 := by unfold Pod.free; decide

/-- A plan with one buffer, and with none; its owner and another task's sprout. -/
def buffers : State :=
  let b (k o : Nat) (p : Bool) : PubBuf := { buf := k, owner := o, size := 64, half0 := 0, half1 := 64, published := p }
  onChip fun c => (c.modPod 0 fun p => { p with state := .running }.setSlot 0 (some (sprout1 true))).modSched fun x =>
    { x with plan := some { crc := 0, tick := [], tasks := [], levels := [], bufs := [b 5 9 false, b 6 8 true] } }
theorem wit_PublishBuffers : (buffers.chip.pubBuf 5).isSome = true ∧ (buffers.chip.pubBuf 6).isSome = true ∧ buffers.chip.pubBuf 7 = none ∧
    (0, sprout1 true) ∈ (buffers.chip.pod 0).held ∧ (sprout1 true).sprout.task = 9 ∧
    (∀ e, e ∈ (buffers.chip.pod 0).held → e.2.sprout.task ≠ 8) := by decide

/-- The longest transfer, 64 vectors into a page of the register space, and one to cell memory. -/
theorem wit_DescriptorTransfers : 64 ≤ 64 ∧ (0x0020101C00 : Nat) % 4096 + 1024 ≤ 4096 ∧ 0x3FC00 + 1024 ≤ 0x40000 ∧
    spaceOf 0x0020101C00 = .regs ∧ spaceOf 0x0010000000 ≠ .regs ∧ ((onPod id).chip.pod 0).stores.length < 8 ∧
    ((onPod id).chip.pod 0).free [.s 31, .s 1] ∧ (∀ l, l ∈ linesOf (podWin 0 + 0x3FFF0) 16 → (onPod id).chip.mem.handling.contains l = false) := by
  unfold Pod.free; decide

theorem wit_TrapEntryAndDoubleTrap : Pod.reset.inHandler = false ∧ ({ Pod.reset with state := .running } : Pod).state ≠ .halted ∧
    ({ Pod.reset with pstat := 4 } : Pod).inHandler = true := by decide

theorem wit_IllegalWordsTrap : decodeWord 0xB0000000#32 = none ∧ isNop 0xB0000000#32 = false := by decide

/-- No flag turned; the flag of the last accumulator; FINV; in a handler. -/
theorem wit_FlagTraps : flagCause 7 0x18 0x18 = none ∧ flagCause 1 0 0x800000#64 = some (7 * 256 + 7) ∧
    ({ Pod.reset with pstat := 4 } : Pod).inHandler = true ∧ (0#64).getLsbD 3 = false ∧ (8#64).getLsbD 3 = true ∧
    (∀ m : Fin 8, m < 7 → (0x7F0000#64).getLsbD (16 + m.val) = true) ∧ (0x7F0000#64).getLsbD 23 = false ∧ (0xFF0000#64).getLsbD 23 = true := by
  decide

/-- A load of four from cell memory; a transfer and an ordinary store that are due; the one transfer acknowledged. -/
theorem wit_FabricAnswers : spaceOf 0x0010000000 ≠ .regs ∧ spaceOf 0x0010000000 ≠ .crcArea ∧
    (let l : FabLoad := { rt := 31, addr := 0x0010000000, kind := .vec, pc := 0, behind := 0, undo := [], levels := [] }
     ((onPod fun p => { p with loads := [l, l, l, l] }).chip.pod 0).loads[3]? = some l) ∧
    (let x : FabStore := { addr := 0x0020101000, bytes := [1, 2, 3, 4], dwr := true }
     let c := (onPod fun p => { p with stores := [x] }).chip
     (c.pod 0).stores[0]? = some x ∧ c.storeDue 0 0 x = true) ∧
    (let x : FabStore := { addr := 0x0010000000, bytes := [1], dwr := false }
     let c := (onPod fun p => { p with stores := [x] }).chip
     c.storeDue 0 0 x = true ∧ c.mem.handling.contains (x.addr / 64) = false) ∧
    (onChip fun c => { c with dwr := [(0, [(0x100000, 1)])] }).chip.quiet = true := by decide

theorem wit_PodControl : (onPod id).chip.quiet = true ∧ (Pod.reset.state = .halted ∧ Pod.reset.pendRestart = false ∧ Pod.reset.pendOverrun = none) ∧
    ((onPod id).chip.pod 0).state = .running ∧ ((onPod id).chip.pod 0).waking = none ∧
    (({ Pod.reset with waking := some 0 } : Pod).setSlot 0 (some (sprout1 true))).slot 0 = some (sprout1 true) := by decide

set_option maxRecDepth 8000 in
theorem wit_StepRunsOneInstruction : let s := onChip fun c => c.setNum (podWin 0 + 0x40000) 4 0xA0000000
    (s.chip.pod 0).fetchAddr 0 = podWin 0 + 0x40000 ∧
    s.chip.numAt (podWin 0 + 0x40000) 4 = 0xA0000000 ∧ (s.chip.pod 0).state = .halted ∧ (s.chip.pod 0).waking = none ∧
    (s.chip.pod 0).levels = [] ∧ (s.chip.pod 0).loads = [] := by decide

theorem wit_ImemWindowWrites : (Instr.imemWindowWrite 0 31 0xFFFC ⟨[1, 2, 3, 4], .pass⟩).wellFormed = true ∧ State.reset.chip.podHalted 31 = true ∧
    State.reset.chip.imsrc 31 = 0 ∧ (onPod id).chip.podHalted 0 = false := by decide

/-! ## What meets the hypotheses: the tick, the scheduler, feedback, loops and profiles -/

theorem wit_TickAndPhases : (live id).chip.alive ∧ (live id).chip.twin.joining = false ∧ (live id).chip.host.applied ≠ some (live id).chip.tick := by
  unfold Chip.alive; decide

/-- A plan that makes task 4,095 tick-bound. -/
def planned (f : Chip → Chip) : State := onChip fun c => f (c.modSched fun x => { x with plan := some { crc := 0, tick := [], bufs := [], levels := [], tasks := [{ task := 4095, release := 0, divisor := 1, phase := 0, shed := 0, pred := 0, scope := 0, wcet := [] }] } })

theorem wit_SchedulerCommands : (onChip id).chip.quiet = true ∧ (onChip id).chip.twin.replay = none ∧ (onChip id).chip.isTb 4095 = false ∧
    (config id).chip.inConfig = true ∧ (planned id).chip.isTb 4095 = true ∧ (planned id).chip.inConfig = false ∧
    (onChip id).chip.regB (oflowReg 15 0) 31 = false ∧ bit 0x80000000#32 31 = true ∧
    ringValid 0x80000000#32 ((onChip fun c => c.setReg (oflowReg 15 1) 4095).chip.reg (oflowReg 15 1)) = true ∧
    (planned id).chip.isTb (fld 0x00000FFF#32 11 0) = true := by decide
theorem wit_SchedulerCommands_shed : let s := live fun c => c.modHlt fun h => { h with shed := [(15, c.tick)], change := some (0, 15) }
    s.chip.ticking = true ∧ s.chip.hlt.shed = [(15, s.chip.tick)] ∧ (15 : Nat) ≠ s.chip.shedLevel ∧ s.chip.hlt.change = some (0, 15) ∧
    s.chip.tick % 16 = 0 ∧ 0 = s.chip.podStep ∧ (s.chip.modHlt fun h => { h with change := none }).fitsAt 15 0 = true := by decide

set_option maxRecDepth 20000 in
/-- The smallest plan, one task and one level, at the foot of cell memory: PLAN_LOAD takes it. -/
theorem wit_SchedulerCommands_plan : let c := (config fun c => { c.setReg 0x100020 0x10000000 with cells := [
      (0x10000000, 0x50), (0x10000001, 0x4C), (0x10000002, 0x41), (0x10000003, 0x4E), (0x10000004, 1), (0x10000006, 0x40),
      (0x10000008, 0xB4), (0x10000009, 1), (0x1000000C, 0x96), (0x1000000D, 0xD7), (0x1000000E, 0xCF), (0x1000000F, 0x33),
      (0x10000010, 0xE8), (0x10000011, 3), (0x10000012, 0x20), (0x10000014, 0xC0), (0x10000017, 3), (0x10000018, 0xA0), (0x10000019, 3),
      (0x1000001A, 4), (0x1000001C, 0x40), (0x10000020, 1), (0x10000024, 1), (0x10000028, 0x40), (0x1000002C, 0x40), (0x10000030, 0x70),
      (0x10000040, 9), (0x10000042, 1), (0x10000043, 1)] }).chip
    c.planCheck (c.pair 0x100020 % 2 ^ 40) true = 0 ∧ (c.planApply (c.pair 0x100020 % 2 ^ 40)).quiet = true := by decide +kernel

theorem wit_FeedbackCommands : fld 0x40000000#32 30 29 ≠ 3 ∧ bit 0x40000000#32 31 = false ∧ fld 0xA0000000#32 30 29 = 1 ∧
    (config id).chip.inConfig = true ∧ (onChip id).chip.regB (lchReg 15 0) 31 = false ∧ (onChip id).chip.regB (divReg 3 0) 31 = false ∧
    fld 0x00010001#32 31 16 ≠ 0 ∧ fld 0x00010001#32 15 0 ≠ 0 ∧ (onChip id).chip.hallOwner 15 = none ∧
    hallSector (true.toNat + 2 * false.toNat + 4 * true.toNat) = some 5 := by decide
theorem wit_FeedbackCommands_channel : let c := (onChip fun c => c.setReg (lchReg 15 0) 0xC0000000#32).chip
    c.regB (lchReg 15 0) 31 = true ∧ c.lchMode 15 ≠ 1 ∧ c.regB (lchReg 15 0) 28 = false ∧ (∀ d, d < 4 → c.regB (divReg d 0) 31 = false) ∧
    (∃ a b, (quadPhase a b + 4 - quadPhase (c.lch 15).a (c.lch 15).b) % 4 = 1) := by
  refine ⟨by decide, by decide, by decide, by decide, ⟨Config.aLeads, !Config.aLeads, ?_⟩⟩
  have h : (onChip fun c => c.setReg (lchReg 15 0) 0xC0000000#32).chip.lch 15 = Lch.zero := by decide
  rw [h]; unfold quadPhase; cases Config.aLeads <;> decide
/-- A channel in mode 1 that owns its Hall pins, in sector 5: the next sectors either way, the same, and a word that is none. -/
theorem wit_FeedbackCommands_hall : let c := (onChip fun c => (c.setReg (lchReg 7 0) 0xA0000000#32).setLch 7 { Lch.zero with sector := 5 }).chip
    c.hallOwner 7 = some 7 ∧ c.lchMode 7 = 1 ∧ c.lchLate 7 = false ∧ (∀ d, d < 4 → c.regB (divReg d 0) 31 = false) ∧
    (c.lch 7).sector = 5 ∧
    (∃ u v w : Bool, hallSector (u.toNat + 2 * v.toNat + 4 * w.toNat) = some 0 ∧ (0 + 6 - (c.lch 7).sector) % 6 = 1) ∧
    (∃ u v w : Bool, hallSector (u.toNat + 2 * v.toNat + 4 * w.toNat) = some 4 ∧ (4 + 6 - (c.lch 7).sector) % 6 = 5) ∧
    hallSector (false.toNat + 2 * false.toNat + 4 * false.toNat) = none := by
  refine ⟨by decide, by decide, by decide, by decide, by decide, ?_, ?_, by decide⟩ <;> decide
theorem wit_FeedbackCommands_modes : fld 0xC0000000#32 30 29 = 2 ∧ bit 0xC0000000#32 31 = true ∧ (live id).chip.ticking = true ∧
    (config id).chip.ticking = false := by decide
theorem wit_FeedbackCommands_divider : let c := (onChip fun c => (c.setReg (divReg 3 0) 0x80000000#32).setF (divReg 3 3) 31 8 0x7FFFFF).chip
    c.regB (divReg 3 0) 31 = true ∧ signed 24 (c.regF (divReg 3 3) 31 8) = (0x7FFFFF : Nat) := by decide

/-- A slot that no swap waits for, one that a swap waits for, a group with one member, an idle bank, and κ's factor at its ends. -/
theorem wit_LoopCommands : (onChip id).chip.slotSwp (fld 1023#32 9 0) = false ∧
    (onChip fun c => c.setReg (slotReg 1023 8) 0x40000000#32).chip.slotSwp (fld 1023#32 9 0) = true ∧
    (let c := (onChip fun c => (c.setReg (slotReg 1023 0) 0x80000000#32).setReg (slotReg 1023 7) 0x00BF0000#32).chip
     ((c.slotKeys.filter c.slotEn).filter fun k => c.regB (slotReg k 7) 23 && c.regF (slotReg k 7) 21 16 == fld 63#32 5 0) = [1023] ∧
     c.slotSwp 1023 = false ∧ c.slotEn 1023 = true ∧ c.slotEn 0 = false ∧ c.slotRuns 0 = false ∧ c.inConfig = false ∧
     (1 : Nat) ≠ c.slotBank 1023 ∧ (0 : Nat) = c.slotBank 1023) ∧
    finite32 0x40800000#32 = true ∧ f32Le 0 0x40800000#32 = true ∧ f32Le 0x40800000#32 0x40800000#32 = true ∧ f32Le 0 0x80000000#32 = true ∧
    f32Le 0x80000000#32 0x40800000#32 = true ∧ (onChip id).chip.regB (msetReg 127 0) 31 = false := by decide

theorem wit_ProfileWritesWait : (live id).chip.quiet = true ∧ (live id).chip.ticking = true ∧ (onChip id).chip.ticking = false ∧
    ∃ row, row ∈ profileWrites 44 255 63 31 0 := ⟨rfl, rfl, rfl, _, .head _⟩

/-- The condition of each kind of row at a last channel, group, table, stepper and homing record. -/
theorem wit_ProfileWritesTakeEffect : (onChip id).chip.quiet = true ∧ (onChip id).chip.prf.writes = [] ∧ (onChip id).chip.ticking = false ∧
    (live id).chip.ticking = true ∧ (live id).chip.prf.writes = [] ∧ (∃ row, row ∈ channelCommands 44 255 0) ∧
    (∃ row, row ∈ profileResults (onChip id).chip 44 255 63 31 0x80000000#32) ∧
    ((onChip id).chip.chState 255 = stOff ∧ bit 0x80000000#32 31 = true) ∧ (onChip id).chip.regB (prfCh 255 0) 31 = false ∧
    (nonneg32 f32One = true ∧ f32Le f32One f32One = true ∧ (onChip id).chip.sepHolds 255 = false) ∧
    (let c := (onChip fun c => c.setReg (prfGrp 31 2) 1).chip; c.tick < c.pair (prfGrp (fld 31#32 4 0) 2)) ∧
    ((onChip id).chip.tabCommit 63 = none ∧ (onChip id).chip.tabBound 63 = false) ∧
    (positive32 0x40000000#32 = true ∧ (onChip id).chip.reg (prfCh 255 2) ≠ 0x40000000#32) ∧ (onChip id).chip.homing 255 = false ∧
    (∀ j, j < 32 → (onChip id).chip.regB (stpReg j 0) 31 = false) := by
  refine ⟨rfl, rfl, rfl, rfl, rfl, ⟨_, .head _⟩, ⟨_, .head _⟩, ?_⟩
  decide

/-- Every state of a channel that a clause names, and the two words of a command with ARM 1 and of an unlisted one. -/
theorem wit_ProfileCommandTable : (∀ st : Fin 10, (onChip fun c => c.setF (chst 255 0) 31 28 st.val).chip.chState 255 = st.val) ∧
    bit 0x08000000#32 27 = true ∧ fld 0x08000000#32 31 28 = 0 ∧ bit 0xA0000000#32 27 = false ∧ 10 ≤ fld 0xA0000000#32 31 28 ∧
    fld 0x90000000#32 31 28 = 9 := by decide

/-! A table with one bank of one segment, good in cell memory. -/
set_option maxRecDepth 20000 in
theorem wit_ProfileEvents_bank : let c := (live fun c => { ((((c.modPrf fun p => { p with banks := [(126, 0x10000000)] }).setB (tblReg 63 6) 29 true).setTabCommit 63
      (some { bank := 0, at1 := false }))) with cells := [(0x10000000, 0x42), (0x10000001, 0x41), (0x10000002, 0x4E), (0x10000003, 0x4B),
      (0x10000004, 1), (0x10000008, 0xEA), (0x10000009, 0x9A), (0x1000000A, 0x70), (0x1000000B, 0x42)] }).chip
    c.regB (tblReg 63 6) 29 = true ∧ c.tabCommit 63 = some { bank := 0, at1 := false } ∧ c.bankGood 63 0 = true ∧ c.bankGood 63 1 = false ∧
    c.tabBound 63 = false := by decide +kernel
theorem wit_ProfileEvents : (live id).chip.alive ∧
    tabGet (fun _ => none) (live fun c => c.modPrf fun p => { p with fireAt := [(31, some c.tick)] }).chip.prf.fireAt 31 = some (live id).chip.tick ∧
    (let r : TabRun := { table := 0, seg := 0, sigma := 0, debt := 0, entryP := 0, entryV := 0, sm := 0, past := some (1, 0) }
     ((live fun c => c.modChan 255 fun x => { x with tab := some r }).chip.chan 255).tab = some r ∧ (1 ≤ 1) ∧ (live id).chip.tabReady 0 = false) ∧
    (let c := (live fun c => (c.setF (homeReg 255 0) 15 8 255).modChan 255 fun x => { x with home := { x.home with window := some 1, changes := 255 } }).chip
     (c.chan 255).home.window = some 1 ∧ (c.chan 255).home.changes ≤ c.regF (homeReg 255 0) 15 8) ∧
    ((live fun c => c.modPrf fun p => { p with steps := [(31, { Stepper.zero with now := [5] })] }).chip.stepper 31).now = [5] ∧
    (let c := (live fun c => ((c.setF (stpReg 31 0) 31 30 3).setF (stpReg 31 6) 31 16 1).modPrf fun p =>
       { p with steps := [(31, { Stepper.zero with rest := 1, prev := some 5 })] }).chip
     c.regB (stpReg 31 0) 31 = true ∧ c.regB (stpReg 31 0) 30 = true ∧ c.regB (stpReg 31 10) 1 = false ∧ c.regF (stpReg 31 6) 31 16 ≠ 0 ∧
     c.regF (stpReg 31 6) 31 16 ≤ (c.stepper 31).rest ∧ (c.stepper 31).prev = some 5) ∧
    (live fun c => c.setB (stpReg 31 0) 31 true).chip.regB (stpReg 31 0) 30 = false := by
  unfold Chip.alive; decide
/-- A limit switch of channel 255 on general input 31 in its last tick before it qualifies. -/
theorem wit_ProfileEvents_switch : let c := (live fun c => (((c.setF (chst 255 0) 31 28 stIdle).setReg (homeReg 255 3) 0xC000001F#32).setF
      (homeReg 255 0) 23 16 2).modChan 255 fun x => x.setSwitch 2 { level := true, count := 1, start := 0 }).chip
    c.hstate 255 = 0 ∧ c.chState 255 = stIdle ∧ ((c.chan 255).switch 2).count ≠ 0 ∧ ((c.chan 255).switch 2).level = true ∧
    c.swActive 255 2 = true ∧ c.swLevel 255 2 = false ∧ c.regF (homeReg 255 0) 23 16 ≤ satN 255 (((c.chan 255).switch 2).count + 1) := by decide
/-- A channel that homes against a stop, at standstill with the torque at its limit, in its last tick; the same with a time limit of one tick. -/
theorem wit_ProfileEvents_stall : let c := (live fun c => (((((c.setF (chst 255 0) 31 28 stHoming).setF (homeReg 255 16) 31 28 1).setF (homeReg 255 0) 31 29 4).setF
      (homeReg 255 0) 7 0 1).setReg (homeReg 255 11) 1)).chip
    c.chState 255 = stHoming ∧ c.hstate 255 = 1 ∧ c.hmode 255 = 4 ∧ f32Le (c.reg (homeReg 255 8)) (fabs (c.reg (xfReg 255 3))) = true ∧
    f32Le (fabs (c.obsVel 255)) (c.reg (homeReg 255 9)) = true ∧ c.regF (homeReg 255 0) 7 0 ≤ (c.chan 255).home.stall + 1 ∧
    c.reg (homeReg 255 11) ≠ 0 ∧ (c.reg (homeReg 255 11)).toNat ≤ (c.chan 255).home.elapsed + 1 := by decide
/-! ## What meets the hypotheses: the star, the Husk and the safety core -/

/-- An uplink frame of node 31 in RUN, of 20 bytes and no payload, for tick 0. -/
def uplink0 : List Byte := [0xA1, 1, 0, 0, 0, 0, 0, 0, 128, 0, 0, 0, 0, 0, 0, 0] ++ toBytes 4 (crc32c [0xA1, 1, 0, 0, 0, 0, 0, 0, 128, 0, 0, 0, 0, 0, 0, 0])
/-- A port in a state, with the longest uplink and its slot at the start of the window. -/
def star (st : Nat) (f : Port → Port) : Chip :=
  (onChip fun c => ((((c.setF (pstReg 31 0) 31 29 st).setF (portReg 31 0) 25 16 532).setF (portReg 31 1) 17 0 c.ulStart).modPort 31 f)).chip
theorem wit_StarCommands : (star psRun fun p => { p with payload := some (8, true, 255, [1]) }).portState 31 ≠ psOff ∧
    ((star psRun fun p => { p with payload := some (8, true, 255, [1]) }).port 31).payload = some (8, true, 255, [1]) ∧
    (star psFenced id).portState 31 = psFenced ∧ (star psDown id).portState 31 = psDown ∧ (star psOff id).portState 31 = psOff ∧
    ((star psRun fun p => { p with sof := true }).port 31).sof = true ∧
    ((star psDown id).setB (portReg 31 0) 30 true).regB (portReg 31 0) 30 = true ∧ (star psDown id).regB (portReg 31 0) 30 = false ∧
    fld 31#32 4 0 = 31 ∧ fld 0x00010008#32 23 16 ≠ 0 ∧ fld 0x00010190#32 8 0 = 400 ∧
    ((star psRun id).setB (portReg 31 0) 31 true).portEn 31 = true := by decide
set_option maxRecDepth 8000 in
/-- The frame at the first instant of the window and of its guard. -/
theorem wit_StarCommands_frame : let c := star psRun id
    ((c.port 31).sof = false ∧ 16 * c.ulStart ≤ 16 * c.ulStart ∧ 16 * c.ulStart ≤ 16 * c.ulEnd ∧
     -c.guard16 ≤ ((16 * c.ulStart : Nat) : Int) - c.slot16 31 ∧ ((16 * c.ulStart : Nat) : Int) - c.slot16 31 ≤ c.guard16) ∧
    uplink0.length + 2 ≤ c.regF (portReg 31 0) 25 16 ∧ c.uplinkValid uplink0 true true = true := by decide +kernel

/-- A Husk section: 4 test pulses, pair 7 an emergency stop (1) with sources TP3 and TP2, or the two-hand pair 6 and 7 (3, 4), output 3
enabled with category 1 and route from pair 7. -/
def section0 (f6 f7 : Byte) : List Byte :=
  [0, 0, 0, 0, 15] ++ List.replicate 107 0 ++ [f6] ++ List.replicate 15 0 ++ [f7, 0, 4, 3] ++ List.replicate 6 0 ++ [8, 1] ++
    List.replicate 4 0 ++ List.replicate 48 0 ++ [1, 1, 0]
/-- A Husk on its supply with that section, pair 7 in a state with levels, and output 3 as given. -/
def husk (f6 f7 : Byte) (p : HPair) (o : HOut) : Husk := ({ Husk.reset with set := section0 f6 f7, supply := true }.setPair 7 p).setOut 3 o

set_option maxRecDepth 8000 in
theorem wit_HuskInputs :
    (husk 0 1 HPair.zero HOut.zero).supply = true ∧ (husk 0 1 HPair.zero HOut.zero).func 7 = 1 ∧ (husk 0 1 HPair.zero HOut.zero).twoHand 7 = false ∧
    (husk 0 0 HPair.zero HOut.zero).func 7 = 0 ∧ (husk 3 4 HPair.zero HOut.zero).twoHand 7 = true ∧ (husk 3 4 HPair.zero HOut.zero).func 6 = 3 ∧
    demandLevel 1 false true = true ∧ demandLevel 1 true true = false ∧ releaseLevel 1 true true = true ∧ demandBoth 1 false false = true ∧
    discrepant 1 true false = true ∧ (leAt (section0 0 1) 4 1).testBit 3 = true ∧ (husk 0 1 HPair.zero HOut.zero).source 7 false = 4 ∧
    (husk 0 1 HPair.zero HOut.zero).source 7 true = 3 ∧ (3 : Nat) ≠ 0 ∧
    ((husk 0 1 { HPair.zero with lvlA := true } HOut.zero).pair 7).lvlA = true ∧ (0x4000#16).toNat.testBit 14 = true ∧
    ((husk 3 4 { HPair.zero with seq := 2 } HOut.zero).setPair 6 { HPair.zero with seq := 2 }).twoHand 6 = true ∧
    (((husk 3 4 HPair.zero HOut.zero).setPair 6 { HPair.zero with seq := 2 }).pair (evenPair 7)).seq = 2 ∧
    ((husk 3 4 HPair.zero HOut.zero).pair (evenPair 7)).state = .run ∧
    (∀ st : PairState, ((husk 0 1 { HPair.zero with state := st } HOut.zero).pair 7).state = st) := by
  refine ⟨?_, ?_, ?_, ?_, ?_, ?_, ?_, ?_, ?_, ?_, ?_, ?_, ?_, ?_, ?_, ?_, ?_, ?_, ?_, ?_, ?_⟩
  all_goals first | decide | (intro st; cases st <;> decide)

/-- The two-hand pairs 6 and 7: neither hand, one, both, and both released from FAULT; a qualified pair that demands, and one released. -/
theorem wit_HuskInputs_hands : let at' := fun (st : PairState) (seq : Nat) (a6 a7 : Bool) =>
      let p := fun (a : Bool) => ({ HPair.zero with state := st, lvlA := a, lvlB := !a, qualA := true, qualB := true, seq := seq } : HPair)
      (husk 3 4 (p a7) HOut.zero).setPair 6 (p a6)
    let act := fun (h : Husk) (k : Nat) => (h.pair k).qual && (h.pair k).lvlA && !(h.pair k).lvlB
    (∀ st : PairState, ((at' st 1 true true).pair 6).state = st ∧ ((at' st 1 true true).pair 6).seq ≠ 0) ∧
    (act (at' .demand 1 true true) 6 = true ∧ act (at' .demand 1 true true) 7 = true) ∧
    (act (at' .demand 1 true false) 6 != act (at' .demand 1 true false) 7) = true ∧
    (((at' .fault 0 false false).pair 6).released 3 && ((at' .fault 0 false false).pair 7).released 4) = true ∧
    (((at' .demand 1 true false).pair 6).released 3 && ((at' .demand 1 true false).pair 7).released 4) = false ∧
    (let p : HPair := { HPair.zero with qualA := true, qualB := true }
     p.qual = true ∧ p.demands 1 = true ∧ p.demandsBoth 1 = true ∧ ({ p with lvlA := true, lvlB := true } : HPair).released 1 = true ∧
     ({ p with lvlA := true, lvlB := true } : HPair).demands 1 = false ∧ ({ p with lvlA := true } : HPair).discrepant 1 = true ∧
     HPair.zero.state ≠ .fault) := by
  refine ⟨?_, ?_, ?_, ?_, ?_, ?_⟩
  all_goals first | decide | (intro st; cases st <;> decide)

set_option maxRecDepth 8000 in
theorem wit_HuskOutputsAndReset :
    (let h := husk 0 1 HPair.zero { HOut.zero with delay := true }; h.supply = true ∧ (h.out 3).delay = true) ∧
    (let h := { husk 0 1 HPair.zero { HOut.zero with on := true, core := true } with lockPower := false }
     h.outState 3 = 3 ∧ (∀ k, k < 4 → (h.out k).test = none) ∧ (h.out 3).on = true) ∧
    ((husk 0 1 HPair.zero { HOut.zero with on := true, test := some true }).out 3).test = some true ∧
    (let h := { husk 0 1 HPair.zero HOut.zero with lockPower := false }; h.outState 3 = 1 ∧ outField h.set 3 2 1 = 0) ∧
    (onCore fun k => { k with started := true }).core.started = true ∧ (onCore fun k => { k with started := true }).core.fault = false ∧
    Husk.reset.internal = false ∧ ({ Husk.reset with supply := false } : Husk).supply = false ∧
    ({ Husk.reset with rst := .pressed } : Husk).rst = .pressed ∧ Husk.reset.rst ≠ .pressed ∧ 50000 ≤ 3000000 ∧ 49999 < 50000 ∧ 3000000 < 3000001 := by
  decide

/-- A safe Husk: right after reset, and with output 3 closed under full permission and under test. -/
theorem wit_HuskStaysSafe : State.reset.husk.Safe ∧ step { State.reset with pending := [.srstPress] } ≠ .next State.reset := by
  constructor
  · unfold Husk.Safe Husk.Tables Husk.outSafe Husk.testSafe Husk.oneTest
    refine ⟨⟨rfl, rfl⟩, ?_, ?_⟩
    · intro m _
      exact ⟨fun h => (by cases h), fun h => (by cases h)⟩
    · intro m k _ _ h
      cases h
  · intro h
    injection h with h
    exact absurd (congrArg (fun t => t.husk.srst) h) (by decide)
theorem wit_WiredPathsAreKept : huskRow .powerOnReset = false ∧ after (exec .powerOnReset State.reset) (fun _ => ()) = some () := by decide

/-- A parameter set whose Husk section, at its start, carries its check value. -/
def confirmable : List Byte := List.replicate 208 0 ++ toBytes 4 (crcSafety (List.replicate 208 0))
theorem wit_SafetyCoreCommands_confirm : hcrcOk (setHusk confirmable) = true ∧ confirmable.length = 212 ∧
    (onHusk fun h => { h with supply := false }).husk.supply = false := by decide +kernel
theorem wit_SafetyCoreCommands : State.reset.chip.quiet = true ∧
    (let k := { SafetyCore.reset with started := true, missRun := 3 }; k.started = true ∧ k.fault = false ∧ 3 ≤ k.missRun) ∧
    ((SafetyCore.reset.setGroup 15 { SGroup.zero with t1 := true }).group 15).t1 = true ∧
    (live id).chip.modState ≠ .safe ∧ (live id).chip.ticking = true ∧ State.reset.husk.supply = true ∧
    ({ Husk.reset with sendReset := true } : Husk).sendReset = true ∧ Husk.reset.confirm = false ∧
    ({ Husk.reset with confirm := true } : Husk).confirm = true ∧
    ({ SafetyCore.reset with pend := [1], awaiting := true, awaitAt := 0 } : SafetyCore).pend ≠ [] ∧ State.reset.chip.inConfig = false ∧
    (let c := (onChip fun c => c.setBase 3 { val := 60000000000 * 2 ^ 44, integ := 0, rate := 0, slewLeft := 0, since := 0 }).chip
     0 + 60000000000 ≤ c.tb3) ∧ hcrcOk (setHusk [1]) = false := by decide
/-! ## What meets the hypotheses: separation, ring and twin pair -/

/-- A frame of 4 ticks, the seal at tick 3 and the check at tick 2 of the next frame, tick 6. -/
def sepAt (tick : Nat) (f : Machine.Sep → Machine.Sep) : State := live fun c =>
  ({ (c.setF 0x10C 28 16 4).setReg 0x500008 0x00020003#32 with tick := tick } : Chip).modSep f

theorem wit_SeparationCommands : (let s := sepAt 3 id
      s.chip.ticking = true ∧ s.chip.twin.replay = none ∧ s.chip.quiet = true ∧
      s.chip.tick % s.chip.planFrame = s.chip.poseTick ∧ s.chip.sep.sealedAt ≠ some s.chip.tick) ∧
    (sepAt 2 id).chip.tick % (sepAt 2 id).chip.planFrame ≠ (sepAt 2 id).chip.poseTick ∧
    (sepAt 3 fun x => { x with sealedAt := some 3 }).chip.sep.sealedAt = some 3 ∧
    (let s := sepAt 6 (fun x => { x with sealedAt := some 7 });
      s.chip.tick % s.chip.planFrame = s.chip.chkTick ∧ s.chip.sep.checkedAt ≠ some s.chip.tick ∧ s.chip.setUsable s.chip.position = true) ∧
    (sepAt 6 id).chip.setUsable (sepAt 6 id).chip.position = false ∧
    (sepAt 3 id).chip.tick % (sepAt 3 id).chip.planFrame ≠ (sepAt 3 id).chip.chkTick ∧
    (sepAt 3 fun x => { x with result := some ([], [], 7, 0) }).chip.sep.result = some ([], [], 7, 0) ∧
    (sepAt 4 id).chip.tick % (sepAt 4 id).chip.planFrame = 0 ∧
    (live fun c => c.setB (sepArm 15 0) 24 true).chip.sepPstop 15 = true ∧ (live id).chip.sepPstop 15 = false ∧
    (config id).chip.inConfig = true ∧ nonneg32 f32One = true ∧ f32Le f32One f32One = true ∧ f32Le 0x3F800001#32 f32One = false ∧
    nonneg32 0xBF800000#32 = false ∧ (live fun c => c.setB (sepArm 15 0) 31 true).chip.sepArmEn 15 = true ∧
    (live id).chip.sepArmEn 15 = false := by decide +kernel

/-- Station 0 of a ring in a state, with the named status slots at starts 100 and 200, a data slot of 20 blocks for itself and position 1. -/
def ringAt (st : Nat) (other : Nat) (f : Chip → Chip) : State := onChip fun c => f ((((((c.setF 0x700000 31 28 st).setReg 0x700004 0x80100040#32).setReg
  (modeReg 0 16) (BitVec.ofNat 32 (100 * 2 ^ 14 + 7))).setReg (modeReg 0 (16 + other)) (BitVec.ofNat 32 (200 * 2 ^ 14 + 7))).setReg
  (modeReg 0 0) (BitVec.ofNat 32 (300 * 2 ^ 14 + 20))).setReg (modeReg 0 1) (BitVec.ofNat 32 (400 * 2 ^ 14 + 20)))
/-- A status frame and a data frame of station 2, sent by the rules of this station's own frames, and its cold-start frame. -/
def peerFrame (type : Byte) (src : Byte) (n : Nat) : List Byte := ringFrame ([type, src] ++ List.replicate 30 0 ++ List.replicate n 0)

theorem wit_RingCommands : (let c := (ringAt 4 2 id).chip
      c.quiet = true ∧ c.rstate = rsActive ∧ c.ownsPosition = true ∧ (c.dataSlot c.crnMode c.position).2 ≠ 0 ∧
      c.windowsAt true 0 = [] ∧ c.position = 0 ∧ c.isTwinPort true = false ∧ c.loopOf c.station true = false ∧ c.ringEn = true ∧ c.isMaster = true) ∧
    ringFrameOk 0x5A (peerFrame 0x5A 2 0) true = true ∧ (peerFrame 0x5A 2 0).length = 40 ∧ ringFrameOk 0x5B (peerFrame 0x5B 2 104) true = true ∧
    ((ringAt 4 2 id).chip.ringGuard 0x5A true 3200 (peerFrame 0x5A 2 0)).2 = some (false, 0) ∧
    (let c := (ringAt 4 2 id).chip
     c.windowsAt false 6416 = [(.data 1, 2, true, 16, 20)] ∧ leAt (peerFrame 0x5B 2 104) 1 1 = 2 ∧ 2 ≠ c.station ∧
     (4096 * ((peerFrame 0x5B 2 104).length / 8 + 2 : Nat) : Int) ≤ 4096 * 20 + 1600 * c.rg - 100 * 16 ∧
     c.ring.dataSeen.contains (1, false, true) = false) ∧ leAt (peerFrame 0x5A 0 0) 1 1 = (ringAt 4 2 id).chip.station ∧
    (tabGet (fun _ => []) (ringAt 4 2 id).chip.ring.stream 1).contains (0, 104) = false := by decide +kernel
theorem wit_RingCommands_start : (ringAt 1 2 id).chip.rstate = rsListen ∧ (ringAt 1 2 id).chip.ring.firstHeard = none ∧
    (ringAt 3 2 id).chip.rstate = rsInteg ∧ (ringAt 3 2 id).chip.windowsAt true 0 = [] ∧
    ((ringAt 3 2 id).chip.ringGuard 0x5A true 3200 (peerFrame 0x5A 2 0)).2 = some (false, 0) ∧
    (let c := (ringAt 1 2 fun c => c.setReg 0x700008 0).chip
     c.ring.listenFrom + (c.regF 0x700008 31 16 + c.station * c.regF 0x700008 15 0) * 1000 ≤ c.tb3) ∧
    (let c := (ringAt 5 2 fun c => c.modRing fun r => { r with inState := 8 }).chip
     c.rstate = rsExcluded ∧ 8 ≤ c.ring.inState) ∧
    (ringAt 1 2 id).chip.ring.mm = false ∧ (ringAt 1 2 id).chip.position = 0 ∧
    (∀ k : Fin 4, let c := (ringAt 2 2 fun c => c.modRing fun r => { r with watching := true, returned := k != 3, countdown := some k.val }).chip
     c.rstate = rsSend ∧ c.ring.watching = true ∧ c.ring.collided = false ∧ c.ring.returned = (k != 3) ∧ c.ring.countdown = some k.val) ∧
    (ringAt 2 2 fun c => c.modRing fun r => { r with watching := true, collided := true }).chip.ring.collided = true ∧
    (let c := (ringAt 2 2 fun c => c.modRing fun r => { r with watching := false, countdown := none }).chip
     c.ring.watching = false ∧ c.ring.countdown = none ∧ c.paired = false ∧ c.twin.joining = false) ∧
    (ringAt 4 2 id).chip.ring.request = none ∧ (ringAt 4 2 fun c => c.modRing fun r => { r with request := some (7, 1) }).chip.ring.request ≠ none ∧
    ringFrameOk 0x5C (peerFrame 0x5C 0 0) true = true ∧ (peerFrame 0x5C 0 0).length = 40 ∧
    (ringAt 4 2 fun c => c.setReg (modeReg 7 32) 0x80000000#32).chip.modeLoaded 7 = true ∧ (ringAt 4 2 id).chip.modeLoaded 6 = false ∧
    (ringAt 3 2 id).chip.isMaster = false := by decide +kernel

/-- A paired station 0: its partner, station 1, has a status slot in the mode in use, which is loaded; a join slot at 500. -/
def twinAt (f : Chip → Chip) : State := ringAt 4 1 fun c => f { ((c.setReg (modeReg 0 32) 0x80000000#32).setReg (modeReg 0 8)
  (BitVec.ofNat 32 (500 * 2 ^ 14 + 20))) with ticking := true }
/-- A mask flash of station 1 for tick 0. -/
def maskFlash : List Byte := let b := [0x5F, 1, 0, 0, 0xFF, 0, 0, 0]; b ++ toBytes 4 (crc32c b) ++ [0, 0, 0, 0]
def joinOf (n : Nat) : Chip → Chip := fun c => c.modTwin fun t => { t with joining := true, image := List.replicate n 0 }

theorem wit_TwinCommands : (let c := (twinAt id).chip
      c.quiet = true ∧ c.flashing = true ∧ c.paired = true ∧ c.partner = 1 ∧ c.twin.joining = false ∧
      (c.joinSlot c.crnMode c.position).2 ≠ 0 ∧ c.regB 0x700020 31 = false ∧ c.rstate = rsActive) ∧
    (twinAt fun c => c.setB 0x700020 29 true).chip.owner = true ∧
    maskFlash.length = 16 ∧ leAt maskFlash 0 1 = 0x5F ∧ leAt maskFlash 1 1 = 1 ∧ leAt maskFlash 2 2 = 0 ∧ crc32c (maskFlash.take 8) = leAt maskFlash 8 4 ∧
    (twinAt fun c => c.modTwin fun t => { t with maskDue := true, recDue := true }).chip.twin.maskDue = true ∧
    (let c := (twinAt fun c => (c.setB 0x700020 30 true).modTwin fun t => { t with hbMiss := 63 }).chip
     c.owner = false ∧ c.eligible = true ∧ c.twin.hbNow = false ∧ c.ringCycle ≤ c.twin.hbMiss + 1) ∧
    (twinAt fun c => c.setB 0x700020 31 true).chip.regB 0x700020 31 = true ∧
    (let c := (twinAt fun c => c.setReg (modeReg 0 8) 0).chip; (c.joinSlot c.crnMode c.position).2 = 0) := by decide +kernel
/-- A partner flash whose OWN bit and OWN_TICK win over the owner's. -/
def ownFlash : List Byte := [0x5E, 1] ++ List.replicate 32 0 ++ [1, 0, 1, 0, 0, 0] ++ List.replicate 408 0
set_option maxRecDepth 20000 in
theorem wit_TwinCommands_own : ringFrameOk 0x5E (ringFrame ownFlash) true = true ∧ (ringFrame ownFlash).length = 456 ∧
    leAt (ringFrame ownFlash) 1 1 = 1 ∧ (leAt (ringFrame ownFlash) 0x22 2).testBit 0 = true ∧ (twinAt id).chip.twin.ownTick = 0 ∧
    leAt (ringFrame ownFlash) 0x24 4 = 1 := by
  have h : ∀ o n, o + n ≤ 448 → leAt (ringFrame ownFlash) o n = leAt ownFlash o n := by
    intro o n h
    unfold ringFrame
    rw [List.append_assoc, leAt_prefix _ _ _ _ h]
  rw [h 1 1 (by decide), h 0x22 2 (by decide), h 0x24 4 (by decide)]
  exact ⟨ringFrameOk_ringFrame _ _ (by decide +kernel) (by decide +kernel) (by decide +kernel) (by decide +kernel), by rw [ringFrame_length]; decide +kernel, by decide +kernel, by decide +kernel, by decide +kernel, by decide +kernel⟩
/-- The first join frame of 64 bytes at the twin port, in its window. -/
theorem wit_TwinCommands_join : let c := (twinAt (joinOf 0)).chip
    c.joinGuard true 8000 (peerFrame 0x5D 1 64) = (c, true) ∧ ringFrameOk 0x5D (peerFrame 0x5D 1 64) true = true ∧
    c.twin.joining = true ∧ c.twin.replay = none ∧ leAt (peerFrame 0x5D 1 64) 0x1C 4 = c.twin.image.length := by
  refine ⟨?_, by decide +kernel, by decide +kernel, by decide +kernel, by decide +kernel⟩
  unfold Chip.joinGuard
  rw [if_neg (by decide +kernel), if_neg (by decide +kernel)]
theorem wit_TwinCommands_replay : let e : JoinTick := { tick := 5, frames := [], flash := [], ring := [], commits := [] }
    let c := (twinAt fun c => c.modTwin fun t => { t with joining := true, replay := some 5, joinAt := some 5, log := [e] }).chip
    c.twin.replay = some 5 ∧ c.twin.opened = false ∧ c.twin.joinAt = some 5 ∧ (c.twin.log.find? fun x => x.tick == 5) = some e := by decide +kernel
/-! ## What meets the hypotheses: time, plant port, digital I/O -/

/-- Triggered output 31 armed in a mode, with its unit data. -/
def trigAt (w : W32) (t : Trig) : State := onChip fun c => (c.setReg (toReg 31 0) w).setTrig 31 t
theorem wit_TimeCommands : State.reset.chip.quiet = true ∧
    (let c := (trigAt 0xA5000000#32 Trig.zero).chip
     c.toArmed 31 = true ∧ c.toMode 31 = 1 ∧ c.toBase 31 = 5 ∧ c.reached (c.toBase 31) (c.trig 31).nextTime = true ∧
     fld (c.reg (toReg 31 0)) 30 29 = fld 0x25000000#32 30 29 ∧ fld (c.reg (toReg 31 0)) 26 24 = fld 0x25000000#32 26 24 ∧
     fld 0x25000000#32 26 24 ≤ 5) ∧
    (let c := (onChip fun c => c.setB (toReg 31 10) 0 true).chip; c.regB (toReg 31 10) 0 = true ∧ (c.trig 31).endAt ≤ c.tb3) ∧
    (let r : PulseReq := { tc := 0, width := 8 }; let c := (trigAt 0xE0000000#32 { Trig.zero with reqs := [r] }).chip
     ((c.trig 31).reqs.find? fun r => c.reached 0 r.tc) = some r ∧ c.toMode 31 = 3 ∧ c.toArmed 31 = true) ∧
    State.reset.chip.toArmed 31 = false ∧ fld 0xA5000000#32 30 29 = 1 ∧ State.reset.chip.reached 5 (secNs 0 0) = true ∧
    State.reset.chip.reached 5 (secNs 0 1) = false := by decide +kernel
theorem wit_TimeCommands_capture : (let c := (onChip fun c => (c.setReg (cpReg 15 0) 0xE5000000#32).setCapFifo 15 (List.replicate 8 { stamp := 0, level := true })).chip
      c.regB (cpReg 15 0) 31 = true ∧ c.regF (cpReg 15 0) 30 29 % 2 = 1 ∧ 2 ≤ c.regF (cpReg 15 0) 30 29 ∧ 8 ≤ (c.capFifo 15).length) ∧
    ((onChip fun c => c.setReg (cpReg 15 0) 0xE5000000#32).chip.capFifo 15).length < 8 ∧ fld 0x60000000#32 30 29 ≠ 0 ∧
    bit 0x60000000#32 31 = false ∧ bit 0xE0000000#32 31 = true ∧ fld 0x80000000#32 30 29 = 0 ∧
    fld 0x25000000#32 26 24 ≤ 5 ∧ 5 < fld 0x26000000#32 26 24 ∧
    (let c := (onChip fun c => (c.setReg (cpReg 15 0) 0xE5000000#32).setReg (tbReg 5 0) 0x2F000000#32).chip
     servoed 5 = true ∧ c.regB (tbReg 5 0) 29 = true ∧ c.regF (tbReg 5 0) 27 24 = 15) := by decide +kernel
/-- Base 5: an offset at the threshold's end, a step forward of an armed base, the end of a slew, and the end of HOLDOVER's wait. -/
theorem wit_TimeCommands_base : (let c := (onChip fun c => c.setReg (tbReg 5 4) 1).chip
      c.regB (tbReg 5 0) 29 = false ∧ c.regB (tbReg 5 12) 31 = false ∧
      -(((c.reg (tbReg 5 4)).toNat * 2 ^ 16 : Nat) : Int) ≤ signed 64 ((c.reg (tbReg 5 5)).toNat + 0 * 2 ^ 32) ∧
      signed 64 ((c.reg (tbReg 5 5)).toNat + 0 * 2 ^ 32) ≤ (((c.reg (tbReg 5 4)).toNat * 2 ^ 16 : Nat) : Int)) ∧
    State.reset.chip.regB (tbReg 5 0) 31 = false ∧ (State.reset.chip.base 5).val ≤ secNs 0 0 * 2 ^ 28 ∧
    (onChip fun c => c.setB (tbReg 5 12) 30 true).chip.regB (tbReg 5 12) 30 = true ∧ (State.reset.chip.base 5).slewLeft = 0 ∧
    (let c := (onChip fun c => c.setReg (tbReg 5 3) 0).chip
     (c.base 5).since + c.regF (tbReg 5 3) 31 16 * 1000000 ≤ c.tb3 ∧ c.regB (tbReg 5 12) 31 = false) := by decide +kernel

/-- A plant port 1 with EN and UNTAG_OK. -/
def port1 (f : Chip → Chip) : Chip := (onChip fun c => f (c.setReg (ethPort 1 0) 0x82000000#32)).chip
/-- The shortest frame to a destination with an EtherType. -/
def frameTo (dst : Nat) (ty : List Byte) (n : Nat) : List Byte := (toBytes 6 dst).reverse ++ List.replicate 6 0 ++ ty ++ List.replicate n 0
/-- An IPv4 UDP frame of port 0x1234 to 10.0.0.1. -/
def kppFrame : List Byte := frameTo 0 [8, 0, 0x45, 0, 0, 0, 0, 0, 0, 0, 0, 17, 0, 0, 0, 0, 0, 0, 10, 0, 0, 1, 0, 0, 0x12, 0x34, 0, 56] 48
theorem wit_PlantPortCommands : (port1 id).quiet = true ∧ (port1 id).ethBit 0 31 = false ∧ (port1 id).ethBit 1 31 = true ∧
    (frameTo linkLocal [0x88, 0xF7] 46).length = 60 ∧ (frameTo linkLocal [0x88, 0xF7] 1504).length = 1518 ∧
    (frameTo linkLocal [0x88, 0xF7] 45).length < 60 ∧ 1518 < (frameTo linkLocal [0x88, 0xF7] 1505).length ∧
    (∀ cls, cls < 6 → (port1 fun c => c.setReg (ethRl 1 (2 * cls)) 0).regF (ethRl 1 (2 * cls)) 31 12 = 0) ∧
    (let x := (port1 id).classify 1 (frameTo linkLocal [0x88, 0xF7] 46); x.forward = false ∧ x.act = .deliver) ∧
    (let x := (port1 id).classify 1 (frameTo 5 [0x12, 0x34] 46); x.forward = true ∧ (port1 id).ethBit 1 28 = false ∧ x.act = .drop) ∧
    (let x := (port1 fun c => (c.setReg (ethPort 1 3) 0x0A000001#32).setReg 0x900008 0x80001234#32).classify 1 kppFrame
     kppFrame.length = 88 ∧ x.forward = false ∧ x.act = .command) := by decide +kernel

/-- A command of operation 1 to 3 with key 3 and sequence 1, without and with its code over a key of zeros. -/
def kppOf (op : Byte) (pay : List Byte) : List Byte :=
  toBytes 4 0x3150504B ++ [1, 3, op, 0] ++ toBytes 8 1 ++ toBytes 4 pay.length ++ List.replicate 12 0 ++ pay
def kppCmd (op : Byte) (pay mac : List Byte) : KppFrame := { port := 1, frame := [], data := kppOf op pay ++ mac }
def kppGood : KppFrame := kppCmd 3 [1, 0, 0, 0] ((hmacSha256 (List.replicate 32 0) (kppOf 3 [1, 0, 0, 0])).take 16)
def kppChip (f : Chip → Chip) : Chip := (onChip fun c => f (c.setReg (ethKey 3 8) 0x80000000#32)).chip
theorem wit_PlantPortCommands_checks : (let c := kppChip fun c => c.modEth fun e => { e with cmds := [kppGood] }
      let b := kppGood.data
      c.eth.cmds = [kppGood] ∧ c.eth.ready = none ∧ leAt b 0 4 = 0x3150504B ∧ leAt b 4 1 = 1 ∧ (b.drop 0x14).take 12 = List.replicate 12 0 ∧
      leAt b 0x10 4 ≤ 1040 ∧ leAt b 0x10 4 % 4 = 0 ∧ b.length = 48 + leAt b 0x10 4 ∧ leAt b 5 1 ≤ 3 ∧ c.regB (ethKey (leAt b 5 1) 8) 31 = true ∧
      ((List.range 8).map fun w => toBytes 4 (c.reg (ethKey (leAt b 5 1) w)).toNat).flatten = List.replicate 32 0 ∧
      (hmacSha256 (List.replicate 32 0) (b.take (32 + leAt b 0x10 4))).take 16 = b.drop (32 + leAt b 0x10 4) ∧
      c.pair (ethKey (leAt b 5 1) 9) < leAt b 8 8 ∧ kppGood.op = 3) ∧
    (let b := (kppCmd 3 [1, 0, 0, 0] (List.replicate 16 0)).data
     b.length = 48 + leAt b 0x10 4 ∧ (hmacSha256 (List.replicate 32 0) (b.take 36)).take 16 ≠ b.drop 36) ∧
    (let c := kppChip fun c => c.setReg (ethKey 3 9) 1; leAt kppGood.data 8 8 ≤ c.pair (ethKey 3 9)) ∧
    leAt (List.replicate 48 0) 0 4 ≠ 0x3150504B := by decide +kernel

theorem wit_PlantPortCommands_read : (let f := kppCmd 1 (toBytes 8 0x107FFFFC ++ toBytes 4 4) []
      f.op = 1 ∧ kppRange f.addr f.count = true ∧ inCell f.addr f.count = true ∧
      (∀ l, l ∈ linesOf f.addr f.count → State.reset.chip.lineGood (64 * l))) ∧
    (let f := kppCmd 1 (toBytes 8 0x107FFFFC ++ toBytes 4 8) []; f.op = 1 ∧ kppRange f.addr f.count = false) := by
  unfold Chip.lineGood; decide +kernel
theorem wit_PlantPortCommands_operations :
    (let f := kppCmd 2 (toBytes 8 0x107FFFFC ++ toBytes 4 4 ++ [0, 0, 0, 0] ++ [1, 2, 3, 4]) []
     f.op = 2 ∧ kppRange f.addr f.count = true ∧ f.pay.length = 16 + f.count) ∧
    (let f := kppCmd 3 [15, 0, 0, 0] []; f.op = 3 ∧ leAt f.pay 0 4 < 16) ∧
    (let f := kppCmd 3 [16, 0, 0, 0] []; f.op = 3 ∧ 16 ≤ leAt f.pay 0 4) := by decide +kernel

/-- A local frame of n bytes at the head of port 1's transmit ring in cell memory. -/
def txRing (n : Nat) : Chip := port1 fun c => ((c.setReg (ethPort 1 14) 0x10000000).setReg (ethPort 1 16) 0x00010003#32).setNum 0x10000008 4
  (n + 0x8000 * 65536)
theorem wit_PlantPortCommands_transmit : (∀ n, n ∈ [59, 60, 1518, 1519] → (txRing n).ringOwned 1 14 = true ∧
      leAt ((txRing n).ringDesc 1 14) 8 2 = n) ∧ tabGet (fun _ => none) (txRing 60).eth.fly 1 = none ∧ (txRing 60).egrQueue 1 = [] ∧
    (let c := port1 fun c => c.modEth fun e => { e with fly := [(1, some [1])], egress := [(1, [{ prio := 0, bytes := [], fix := some (1, 0, 0) }])] }
     tabGet (fun _ => none) c.eth.fly 1 = some [1] ∧ c.egrQueue 1 = [{ prio := 0, bytes := [], fix := some (1, 0, 0) }]) ∧
    (port1 id).ringOwned 1 14 = false ∧ (port1 id).ethBit 1 22 ≠ true ∧ State.reset.chip.regB (ethKey 3 8) 31 = false ∧
    (kppChip id).regB (ethKey 3 8) 31 = true := by decide +kernel

theorem wit_DigitalIoCommands : (onChip fun c => c.modDio fun d => { d with power := true }).chip.dio.power = true ∧
    (onChip fun c => c.modDio fun d => { d with power := false }).chip.dio.power = false ∧ bit (onChip fun c => c.modDio fun d => { d with deb := 0x80000000#32 }).chip.dio.deb 31 = true ∧
    bit State.reset.chip.dio.deb 31 ≠ true ∧ bit 1#32 0 = true ∧ State.reset.chip.regB 0xD00000 2 = false ∧
    (onChip fun c => c.setB 0xD00000 2 true).chip.regB 0xD00000 2 = true ∧ State.reset.chip.dio.everGood = false ∧
    (onChip fun c => c.modDio fun d => { d with everGood := true }).chip.dio.everGood = true ∧ State.reset.chip.regB 0xD00000 4 = false := by decide
/-! ## What meets the hypotheses: memory, health, resets, module states, the host -/

/-- A region of memory 63 of a kind over the first two lines of cell memory, its golden image in DRAM at 0x20000000. -/
def region (kind : W32) (f : Chip → Chip) : Chip := (onChip fun c => f (((((c.setReg (memReg 63 0) kind).setReg (memReg 63 1) 0x10000000).setReg
  (memReg 63 3) 128).setReg (memReg 63 4) 0x20000000))).chip
theorem wit_MemoryIntegrityCommands : (let c := region 0xA0000000#32 fun c => { c with mem := { c.mem with handling := [0x400001] } }
      c.quiet = true ∧ c.mem.handling.contains 0x400001 = true ∧ ∃ g, c.backing (64 * 0x400001) = .backed g) ∧
    scrubLast 0 = false ∧ (region 0xA0000000#32 id).regB (memReg (fld 63#32 5 0) 0) 31 = true ∧
    (region 0xA0000000#32 id).regionKind (fld 63#32 5 0) = 1 ∧
    (region 0xA0000000#32 fun c => c.setB (memReg 63 6) 30 true).regB (memReg 63 6) 30 = true ∧
    (region 0xC0000000#32 id).linesIn 63 (fun x => x.pending) = [] ∧
    (region 0xC0000000#32 fun c => c.setLine 0x400001 { Line.good with pending := true }).linesIn 63 (fun x => x.pending) = [0x400001] ∧
    0x400001 ∈ [0x400001#34].map (fun b => b.toNat) ∧ 0x400001 ∉ ([] : List (BitVec 34)).map (fun b => b.toNat) ∧
    (let c := (onChip fun c => { c.setReg 0xA00004 0x000A0000#32 with mem := { c.mem with log := [{ line := 5, count := 1, first := 0 }] } }).chip
     ∃ e, (c.mem.log.find? fun e => e.line == (5#34).toNat) = some e ∧ e.first + c.regF 0xA00004 7 0 * 3600000000000 ≤ c.tb3) ∧
    (1 ≤ fld 0x0E100001#32 31 16 ∧ fld 0x0E100001#32 31 16 ≤ 3600 ∧ fld 0x0E100001#32 7 0 ≠ 0) ∧ 3600 < fld 0x0E110000#32 31 16 ∧
    fld 0x0E110000#32 7 0 = 0 ∧ fld 0x00000000#32 31 16 = 0 := by
  refine ⟨⟨by decide +kernel, by decide +kernel, _, rfl⟩, ?_, ?_, ?_, ?_, ?_, ?_, ?_, ?_, ⟨_, rfl, ?_⟩, ?_, ?_, ?_, ?_⟩ <;> decide +kernel
/-- A DRAM line under the boot image, whose source is flash, and a line of a region whose source in DRAM is being corrected too. -/
theorem wit_MemoryIntegrityCommands_sources :
    (let c := (onChip fun c => { c with golden := (64, some 0), mem := { c.mem with handling := [0x4000000] } }).chip
     c.mem.handling.contains 0x4000000 = true ∧ c.backing (64 * 0x4000000) = .backed (.flash 0)) ∧
    (let c := region 0xA0000000#32 fun c => { c with mem := { c.mem with handling := [0x400001, 0x800001] } }
     c.backing (64 * 0x400001) = .backed (.dram 0x20000040) ∧ c.mem.handling.contains (0x20000040 / 64) = true) ∧
    (let c := region 0xA0000000#32 fun c => { c with mem := { c.mem with handling := [0x400001] } }
     c.mem.handling.contains (0x20000040 / 64) = false) := by
  refine ⟨⟨by decide, ?_⟩, by decide +kernel, by decide +kernel⟩
  unfold Chip.backing spaceOf crcBase dramEnd
  generalize Config.sa8 = b
  cases b <;> decide +kernel
/-- A line of cell memory that waits to be fetched again, its source good, at the scrubber's place. -/
theorem wit_MemoryIntegrityCommands_refetch :
    let c := region 0xA0000000#32 fun c => ({ c with mem := { c.mem with scrubAt := 163841 } } : Chip).setLine 0x400001 { Line.good with refetch := true }
    scrubAddr c.mem.scrubAt / 64 = 0x400001 ∧ c.mem.handling.contains 0x400001 = false ∧ (c.line 0x400001).poisoned = false ∧
    (c.line 0x400001).pending = false ∧ (c.line 0x400001).refetch = true ∧ c.backing (scrubAddr c.mem.scrubAt) = .backed (.dram 0x20000040) ∧
    c.sourceOk (.dram 0x20000040) .good = true ∧ scrubLast c.mem.scrubAt = false := by decide +kernel
theorem wit_MemoryIntegrityCommands_scrub : State.reset.chip.lineGood (scrubAddr State.reset.chip.mem.scrubAt) := by
  unfold Chip.lineGood; decide

theorem wit_HealthCommands : State.reset.chip.quiet = true ∧ State.reset.chip.paired = false ∧
    (onChip fun c => c.modHlt fun h => { h with hourMin := some 7 }).chip.hlt.hourMin = some 7 ∧
    (let s := live fun c => c.modHlt fun h => { h with refx := some 2 }
     s.chip.hlt.refx = some 2 ∧ s.chip.ticking = true ∧ s.chip.tick % s.chip.ringCycle = 0) ∧
    (onChip fun c => c.modHlt fun h => { h with dipping := [7] }).chip.hlt.dipping.contains 7 = true ∧
    (onChip fun c => c.modHlt fun h => { h with inhibit := true }).chip.hlt.inhibit = true ∧ State.reset.chip.hlt.dipping = [] ∧
    (onChip fun c => c.setReg 0xB00024 16).chip.pair 0xB00024 % 16 = 0 ∧ (onChip fun c => c.setReg 0xB00024 16).chip.notStarted 16 = true ∧
    (live fun c => { c with tick := 16, ticked := true }).chip.notStarted 16 = false ∧ (onChip fun c => c.setReg 0xB00024 15).chip.pair 0xB00024 % 16 ≠ 0 ∧
    (let c := (onChip fun c => c.setReg 0xB00044 0x00100010#32).chip; c.regF 0xB00044 31 16 ≤ (16#16).toNat ∧ (15#16).toNat < c.regF 0xB00044 15 0) ∧
    signed 16 (reading 0xFF00 0) < State.reset.chip.slackCrit := by decide +kernel

theorem wit_ResetsAndBoot : fld 0x5A00#32 15 8 = 0x5A ∧ State.reset.chip.modState = .reset ∧ State.reset.chip.orderHeld = false ∧
    ((State.reset.chip.setReg 0x200 (0x2F#6 |>.zeroExtend 32)).setModState .boot).regF 0x200 5 4 ≥ 2 ∧
    ((State.reset.chip.setReg 0x200 (0x1F#6 |>.zeroExtend 32)).setModState .boot).regF 0x200 5 4 < 2 ∧
    (let c := (onChip fun c => (c.setReg 0x200 0x20).setModState .boot).chip; c.modState = .boot ∧ c.regF 0x200 5 4 = 2) ∧
    (let c := (State.reset.chip.setReg 0x200 (0x1F#6 |>.zeroExtend 32)).setModState .boot
     c.regF 0x200 5 4 = 1 ∧ c.directory = none) := by decide +kernel

/-- CONFIG as reset leaves it, ready for the checks on leaving CONFIG. -/
def leaveChip : Chip := (config id).chip.startStep
theorem leave_lpe : leaveChip.lpeLeave = (leaveChip, true) := by
  unfold Chip.lpeLeave
  exact if_pos (by decide +kernel)
/-- The later checks pass too, for whatever gains the feedback unit has computed. -/
theorem leave_rest (d : Chip) (h : Chip.SameButFbk leaveChip d) : (firstFail (leaveChecks.drop 4) d).2 = none ∧
    (((firstFail (leaveChecks.drop 4) d).1.setModState .sync).strStart).ringEn = false := by
  have r := h.2
  have lit : ∀ o, o ∈ [0x100, 0x10C, 0x500004, 0x500008, 0x50000C, 0x50001C, 0x500020] → d.reg o = regReset o := by
    intro o ho
    rw [r o (by simp at ho; omega)]
    revert o; decide +kernel
  have hsep : d.sepLeave.2 = true := by
    unfold Chip.sepLeave
    dsimp only
    have e : ∀ a, a < 16 → d.sepArmEn a = false := by
      intro a ha
      unfold Chip.sepArmEn Chip.regB
      rw [r _ (by unfold sepArm; omega)]
      revert a; decide +kernel
    rw [Bool.and_eq_true]
    refine ⟨?_, by rw [lit 0x50001C (by decide)]; decide +kernel⟩
    rw [Bool.and_eq_true]
    refine ⟨?_, ?_⟩
    rw [Bool.and_eq_true]
    refine ⟨?_, ?_⟩
    rw [Bool.and_eq_true]
    refine ⟨?_, ?_⟩
    · rw [List.all_eq_true]
      intro a ha
      rw [e a (List.mem_range.mp ha)]; rfl
    all_goals
      simp only [Chip.regF, Chip.poseTick, Chip.chkTick, Chip.planFrame, Chip.ringCycle, Chip.pairCap, Chip.tickNs, Chip.period, Chip.sepH, Chip.sepSpacing,
        lit 0x100 (by decide), lit 0x10C (by decide), lit 0x500004 (by decide), lit 0x500008 (by decide), lit 0x50000C (by decide),
        lit 0x500020 (by decide)]
      decide +kernel
  have hs : d.sepLeave = (d.sepLeave.1, true) := Prod.ext rfl hsep
  have rs : ∀ o, (o < 0x400000 ∨ 0x501000 ≤ o) → d.sepLeave.1.reg o = leaveChip.reg o := by
    intro o ho
    rw [← r o (by omega)]
    unfold Chip.sepLeave at hsep ⊢
    dsimp only at hsep ⊢
    rw [if_pos hsep]
    exact Chip.reg_setReg_ne _ _ _ _ (by omega)
  generalize d.sepLeave.1 = x at hs rs
  have off : ∀ o, o ∈ [0x700004, 0xD00008, 0xD00010] → x.reg o = regReset o := by
    intro o ho
    rw [rs o (by simp at ho; omega)]
    revert o; decide +kernel
  have ports : (List.range 32).filter x.portEn = [] := by
    rw [List.filter_eq_nil_iff]
    intro n hn
    have hn := List.mem_range.mp hn
    unfold Chip.portEn Chip.regB
    rw [rs _ (by unfold portReg; omega)]
    revert n; decide +kernel
  have regs : (List.range 64).filter (fun r => x.regB (memReg r 0) 31) = [] := by
    rw [List.filter_eq_nil_iff]
    intro n hn
    have hn := List.mem_range.mp hn
    unfold Chip.regB
    rw [rs _ (by unfold memReg; omega)]
    revert n; decide +kernel
  have ring : x.ringEn = false := by unfold Chip.ringEn Chip.regB; rw [off _ (by decide)]; decide
  have h6 : x.strLeave = (x, true) := by unfold Chip.strLeave; dsimp only; rw [ports]; rfl
  have h7 : x.crnLeave = (x, true) := by unfold Chip.crnLeave; dsimp only; rw [ring]; rfl
  have h10 : x.memLeave = (x, true) := by unfold Chip.memLeave; dsimp only; rw [regs]; rfl
  have h13 : x.dioLeave = (x, true) := by
    unfold Chip.dioLeave Chip.gang Chip.quad Chip.pairGang Chip.regB
    simp only [off 0xD00010 (by decide), off 0xD00008 (by decide)]
    exact if_pos (by decide)
  refine ⟨?_, ?_⟩
  · unfold leaveChecks
    simp only [List.drop, firstFail, hs, h6, h7, h10, h13]
  · unfold leaveChecks
    simp only [List.drop, firstFail, hs, h6, h7, h10, h13]
    have y : ∀ o, o ≠ 0x204 → (x.setModState .sync).reg o = x.reg o := fun o ho => Chip.reg_setReg_ne _ _ _ _ ho
    have : (x.setModState .sync).strStart = x.setModState .sync := forN_keeps (· = x.setModState .sync) _ 32 (by
      rintro k a hk rfl
      have hk : (x.setModState .sync).portEn k = false := by
        have : k ∉ (List.range 32).filter x.portEn := by rw [ports]; simp
        simp only [List.mem_filter, List.mem_range, hk, true_and, Bool.not_eq_true] at this
        rw [← this]
        unfold Chip.portEn Chip.regB
        rw [y _ (by unfold portReg; omega)]
      rw [hk]; rfl) _ rfl
    rw [this]
    unfold Chip.ringEn Chip.regB at ring ⊢
    rw [y _ (by decide), ring]
theorem leave_sys : leaveChip.sysLeave = (leaveChip, true) := by unfold Chip.sysLeave; rw [if_pos (by decide +kernel)]
theorem leave_plan : leaveChip.planLeave = (leaveChip, true) := by
  have : leaveChip.sched.plan = none := by decide +kernel
  unfold Chip.planLeave; rw [this]
theorem leave_fbkOk : leaveChip.fbkOk = true := by decide +kernel
theorem leave_all : (firstFail leaveChecks leaveChip).2 = none ∧
    (((firstFail leaveChecks leaveChip).1.setModState .sync).strStart).ringEn = false := by
  obtain ⟨d, h2, h3⟩ := Chip.fbkLeave_pass leaveChip leave_fbkOk
  rw [leave_first leave_sys leave_plan leave_lpe h2]
  exact leave_rest d h3
theorem wit_ModuleStateCommands : State.reset.chip.quiet = true ∧ (live fun c => c.setModState .run).chip.modState = .run ∧
    (live id).chip.cfgFrom = none ∧ State.reset.chip.modState ≠ .standby ∧ State.reset.chip.modState ≠ .config ∧ (config id).chip.modState = .config ∧
    (firstFail leaveChecks (config fun c => c.setReg 0x10C 0).chip.startStep).2 = some 0 ∧ (live id).chip.paired = false ∧
    (let s := live fun c => { c.setModState .standby with wantRun := some 0, standbyAt := some 0 }
     s.chip.modState = .standby ∧ s.chip.pair 0x20C % s.chip.ringCycle = 0 ∧ s.chip.notStarted (s.chip.pair 0x20C) = true ∧ s.chip.ticking = true ∧
     s.chip.wantRun = some s.chip.tick ∧ s.chip.standbyAt = some 0 ∧ s.chip.cfgFrom = none) ∧
    (let c := (live fun c => { c.setModState .degraded with wantRun := some 0 }).chip
     c.modState = .degraded ∧ c.faultHeld = false ∧ c.wantRun = some c.tick) ∧
    (live fun c => { (c.setModState .safe) with wdFrom := some 0 }).chip.modState = .safe ∧
    (live fun c => c.setReg 0x20C 3).chip.pair 0x20C % (live id).chip.ringCycle ≠ 0 ∧
    (live fun c => { c with ticked := true }).chip.notStarted 0 = false ∧
    (let c := (live fun c => ({ c with cfgFrom := some 0, tick := 64, ticked := true, autorun := 2 } : Chip).setBase 3 { val := 200000000 * 2 ^ 44, integ := 0, rate := 0, slewLeft := 0, since := 0 }).chip
     c.cfgFrom = some 0 ∧ 0 + 200000000 ≤ c.tb3 ∧ c.wantSafe = false ∧ c.wantDegraded = false ∧ 0 + 64 ≤ c.tick ∧ c.autorun = 2 ∧ 0 < c.ringCycle ∧ c.ticked = true) ∧
    (live fun c => c.setModState .sync).chip.modState = .sync ∧ (live id).chip.ringEn = false ∧
    (let c := (live fun c => { c.setReg 0x220 0x40000000 with wdFrom := some 0 }).chip
     c.wdFrom = some 0 ∧ 0 + c.regF 0x220 15 0 * 1000000 ≤ c.tb3 ∧ c.regB 0x220 30 = true ∧ c.modState ≠ .safe) ∧
    State.reset.chip.regB 0x220 30 = false ∧ (onChip fun c => c.setReg 0x220 1).chip.regF 0x220 15 0 ≠ 0 ∧ State.reset.chip.regB 0x244 0 = false ∧
    bit 2#32 1 = true ∧ (onChip fun c => { c with snapImg := [1] }).chip.snapImg ≠ [] ∧ State.reset.chip.inConfig = false ∧ (config id).chip.inConfig = true ∧
    (512 ≤ fld 0x200#32 13 0 ∧ fld 0x3E80#32 13 0 ≤ 16000 ∧ fld 0x1FF#32 13 0 < 512 ∧ 16000 < fld 0x3E81#32 13 0) ∧
    (fld 0x10000040#32 28 16 ≤ 4096 ∧ fld 0x10000040#32 6 0 ≤ 64 ∧ 1 ≤ fld 0x10000040#32 28 16 ∧ 1 ≤ fld 0x10000040#32 6 0) := by decide +kernel
/-- A snapshot area at 0x1_4000_0000 lies in usable DRAM of either size. -/
theorem wit_ModuleStateCommands_snap : State.reset.chip.snapPlaced 0x140000000 = true := by
  unfold Chip.snapPlaced inUsableDram spaceOf dramEnd
  generalize Config.sa8 = b
  cases b <;> decide +kernel
theorem wit_MemoryIntegrityCommands_last : scrubLast 0x80000000 = true := by
  unfold scrubLast crcBase
  generalize Config.sa8 = b
  cases b <;> decide +kernel

theorem wit_DoorbellFires : (kppChip fun c => c.modEth fun e => { e with ready := some (kppCmd 3 [15, 0, 0, 0] []) }).quiet = true ∧
    (kppChip fun c => c.modEth fun e => { e with ready := some (kppCmd 3 [15, 0, 0, 0] []) }).eth.ready = some (kppCmd 3 [15, 0, 0, 0] []) ∧
    (kppCmd 3 [15, 0, 0, 0] []).op = 3 ∧ leAt (kppCmd 3 [15, 0, 0, 0] []).pay 0 4 < 16 :=
  ⟨rfl, rfl, by decide +kernel, by decide +kernel⟩

/-- DMA channel 7 with a job of 64 bytes taken at GO. -/
def dmaAt (c : Chip) : Chip := { c with host := { c.host with dmaJob := tabPut (fun _ => (0, 0, false)) c.host.dmaJob 7 (0, 64, false) } }

theorem wit_HostCommands : State.reset.chip.quiet = true ∧ regDesc 0xFFFFFC = none ∧ regDesc 0x0FFFFC = none ∧ (regDesc 0x11C).isSome = true ∧
    0xC00000 / 0x100000 = 12 ∧ 0xCFFFFC / 0x100000 = 12 ∧ (regDesc 0x900400).isSome = true ∧
    State.reset.chip.bootGo = false ∧ State.reset.chip.host.copying = none ∧
    (onChip fun c => { c with host := { c.host with copying := some (0x10000000, 1, 0) } }).chip.host.copying ≠ none ∧
    (0x10000000 % 16 = 0 ∧ inCell 0x10000000 (16 * 64) = true) ∧
    ((onChip fun c => c.setNum 0x10000000 8 0x10000000).chip.commitEntries 0x10000000 1).all (fun e => commitAddrOk e.1) = true ∧
    (State.reset.chip.commitEntries 0x10000000 1).all (fun e => commitAddrOk e.1) = false ∧ (live fun c => c.setModState .sync).chip.modState = .sync ∧
    (live fun c => { c with ticked := true }).chip.notStarted 0 = false ∧ (live id).chip.notStarted 0 = true ∧
    4 ≤ (live fun c => { c with host := { c.host with commits := List.replicate 4 { tick := 9, entries := [] } } }).chip.host.commits.length ∧
    (live id).chip.host.commits = [] ∧ (live id).chip.twin.joining = false ∧
    (let c := (live fun c => { c with host := { c.host with commits := [{ tick := 0, entries := [(0x10000000, 7)] }] } }).chip
     c.ticking = true ∧ c.host.commits = [{ tick := c.tick, entries := [(0x10000000, 7)] }]) ∧
    (let c := (onChip fun c => c.setB (hst 0x100 + 16 * 63) 31 true |>.setReg (hst 0x8000C + 16 * 63) 0).chip
     c.regB (hst 0x100 + 16 * 63) 31 = true ∧ c.regB (hst 0x8000C + 16 * 63) 0 = false ∧ PciSpace.reset.fnMask = false ∧
     tabGet (fun _ => none) c.host.lastMsg 63 = none) ∧
    (let c := (onChip fun c => c.setReg (dmaReg 7 5) 64).chip
     c.dmaBusy 7 = false ∧ (c.mapWrite (dmaReg 7 0) (setBit 0 31 true)).dmaBusy 7 = false ∧
     (c.mapWrite (dmaReg 7 0) (setBit 0 31 true)).dmaAligned 7 = true) ∧
    (let c := (onChip fun c => dmaAt ((c.setReg (dmaReg 7 5) 64).setB (dmaReg 7 6) 31 true)).chip
     c.dmaBusy 7 = true ∧ (c.mapWrite (dmaReg 7 0) (setBit 0 31 true)).dmaBusy 7 = true ∧ c.dmaTurn = some 7) ∧
    (let c := (onChip fun c => dmaAt (((c.setReg (dmaReg 7 5) 64).setReg (dmaReg 7 9) 64).setB (dmaReg 7 6) 31 true)).chip
     c.dmaBusy 7 = true ∧ (c.reg (dmaReg 7 9)).toNat = (c.dmaMoves 7).2.1) ∧
    (0x80011C % 4 = 0 ∧ 0x800124 / 0x100000 ≠ 12 ∧ (regDesc 0x80011C).isSome = true ∧ 32 ≤ (42 : Master).val ∧ ¬32 ≤ (31 : Master).val) := by decide +kernel
theorem wit_HostCommands_lines : (∀ l, l ∈ linesOf 0x10000000 (16 * 64) → State.reset.chip.lineGood (64 * l)) ∧
    (∀ l, l ∈ linesOf (cellBase + 0x7FFFFF) 1 → State.reset.chip.lineGood (64 * l)) := by
  unfold Chip.lineGood; decide +kernel

theorem wit_ReadsClearAndLatch : (44 : Master).val - 1 ≠ 44 ∧
    (onChip fun c => c.setCapFifo 15 [{ stamp := 65536, level := true }]).chip.capFifo 15 = [{ stamp := 65536, level := true }] ∧
    (onChip fun c => c.setHi 41 0x11C (some 7)).chip.hiOf 41 0x11C = some 7 := by decide +kernel
/-! ## What meets the hypotheses of the widened clauses -/

/-- Finite operands with a sum, a difference, a fused sum and a fused difference that are not 0 and that are; quotients above, within and
below the range with either order of the significands; roots of 0 and of 2. -/
theorem wit_InvalidFloats_finite :
    (isNaN32 f32One = false ∧ isInf32 f32One = false ∧ isNaN32 0xBF800000#32 = false ∧ isInf32 0xBF800000#32 = false) ∧
    (let x := fun (a b : W32) => (sumExact (sigOf a) (expOf a) (sigOf b) (expOf b)).1
     x f32One f32One ≠ 0 ∧ x f32One 0xBF800000#32 = 0) ∧
    (let x := fun (a b : W32) => (sumExact (sigOf a) (expOf a) (-sigOf b) (expOf b)).1
     x f32One 0xBF800000#32 ≠ 0 ∧ x f32One f32One = 0) ∧
    (let x := fun (d a b : W32) => (sumExact (sigOf d) (expOf d) (sigOf a * sigOf b) (expOf a + expOf b)).1
     x f32One f32One f32One ≠ 0 ∧ x 0xBF800000#32 f32One f32One = 0) ∧
    (let x := fun (d a b : W32) => (sumExact (sigOf d) (expOf d) (-(sigOf a * sigOf b)) (expOf a + expOf b)).1
     x 0xBF800000#32 f32One f32One ≠ 0 ∧ x f32One f32One f32One = 0) ∧
    (isZero32 f32One = false ∧ isZero32 0 = true ∧ f32Sign f32One = false ∧
     (sigOf 0x3FC00000#32).natAbs < (sigOf 0x3FE00000#32).natAbs ∧ (128 : Int) ≤ expOf 0x7F7FFFFF#32 - expOf 0x00800000#32 ∧
     expOf 0x00800000#32 - expOf 0x7F7FFFFF#32 < -126 ∧ -126 ≤ expOf f32One - expOf 0x40000000#32 ∧ expOf f32One - expOf 0x40000000#32 < 128) ∧
    (f32Sign 0xBF800000#32 = true ∧ isInf32 0x7F800000#32 = true ∧ isInf32 0xFF800000#32 = true ∧ isNaN32 0x7FC00000#32 = true) := by
  decide +kernel

/-- A step of twice the buffer, either way: the pointer ends past the last byte and before the first. -/
theorem wit_GeneratorAddresses_far :
    (let g := (Pod.reset.agSet 7 { base := 0, len := 64, ptr := 0, step := 128 }).agGet 7
     g.len ≠ 0 ∧ g.ptr.toNat < g.len.toNat ∧ (g.len.toNat : Int) ≤ (g.ptr.toNat : Int) + g.step.toInt - g.len.toNat) ∧
    (let g := (Pod.reset.agSet 7 { base := 0, len := 64, ptr := 63, step := BitVec.ofInt 24 (-128) }).agGet 7
     g.len ≠ 0 ∧ g.ptr.toNat < g.len.toNat ∧ (g.ptr.toNat : Int) + g.step.toInt + g.len.toNat < 0) := by decide
/-- The first and the last byte of the own instruction memory, and a generator that gives no address. -/
theorem wit_OwnStores_imem :
    (∀ a : Fin 2, ((onPod fun p => p.agSet 7 { base := if a = 0 then 0x40000 else 0x4FFFF, len := 0, ptr := 0, step := 0 }).chip.pod 0).memAddr 7 2 0 1 =
      some (if a = 0 then 0x40000 else 0x4FFFF, { base := if a = 0 then 0x40000 else 0x4FFFF, len := 0, ptr := 0, step := 0 })) ∧
    ((onPod fun p => p.agSet 7 { base := 0, len := 64, ptr := 64, step := 0 }).chip.pod 0).memAddr 7 0 0 1 = none ∧
    ((onPod id).chip.pod 0).awaits 0x3FFFF 1 = false := by decide
/-- Four open levels that end at the last word, a count and a body for a fifth. -/
theorem wit_RepeatsOpenLevels_fifth : let l : RepLevel := { cnt := 1, first := 4, last := 0xFFFC }
    let q := (onPod fun p => ({ p with levels := [l, l, l, l] } : Pod).sset 1 65535).chip.pod 0
    q.levels.length = 4 ∧ q.pc.toNat + 4 * 4095 ≤ 0xFFFC ∧ (∀ l, l ∈ q.levels → q.pc.toNat + 4 * 4095 ≤ l.last.toNat) ∧
    0 < (q.sget 1).toNat ∧ (q.sget 1).toNat ≤ 65535 := by decide
/-- Of the illegal forms, an ADD with a mask, and a DWR of no vector; an accept mask of 0; repeats at the wrong level, past the last word
and past an outer body, and a count of 65,536. -/
theorem wit_IllegalWordsTrap_forms : (∃ row, row ∈ illegalForms 0 false 0 0 0 0 1 0 0 0 0 0 0 0 ∧ row.2 = true ∧ row.1 = .add 0 false 0 0 0 1) ∧
    ((onPod id).chip.pod 0).sget 0 = 0 ∧ ((onPod id).chip.pod 0).inHandler = false ∧
    (let q := ((onPod fun p => { p with levels := [{ cnt := 1, first := 4, last := 8 }], pc := 4 }.sset 1 65536).chip.pod 0)
     q.levels.length < 4 ∧ (0 : Nat) ≠ q.levels.length ∧ (∃ l, l ∈ q.levels ∧ l.last.toNat < q.pc.toNat + 4 * 2) ∧ 65535 < (q.sget 1).toNat) ∧
    0xFFFC < ((onPod fun p => { p with pc := 0xFFFC }).chip.pod 0).pc.toNat + 4 * 1 :=
  ⟨⟨_, .head _, by decide, rfl⟩, by decide, by decide, by decide, by decide⟩
/-- Accumulator 7's overflow flag and its saturation flag turned alone and beside FINV, with all traps enabled; FINV alone. -/
theorem wit_FlagTraps_turned : let q := fun (pstat : W64) => ({ Pod.reset with trapen := 7, pstat := pstat } : Pod)
    let turned := fun (p : Pod) (e k : Nat) => p.trapen.getLsbD e = true ∧ (0#64).getLsbD k = false ∧ p.pstat.getLsbD k = true
    turned (q 0x00800008) 0 23 ∧ turned (q 0x80000008) 1 31 ∧ turned (q 8) 2 3 ∧ (∀ m : Fin 8, ¬ turned (q 0x80000008) 0 (16 + m.val)) ∧
    (∀ m : Fin 7, ¬ turned (q 0x80000008) 1 (24 + m.val)) ∧ (∀ m : Fin 8, ¬ turned (q 8) 0 (16 + m.val) ∧ ¬ turned (q 8) 1 (24 + m.val)) := by
  decide
theorem wit_PodControl_overrun : let q := ({ Pod.reset with pendOverrun := some 5 } : Pod)
    q.state = .halted ∧ q.pendRestart = false ∧ q.pendOverrun = some 5 ∧ q.inHandler = false ∧ q.waking = none := by decide

/-- A port in RUN that violates its window for the first and the third time, one that is good, and one in ADMIT before its last good frame. -/
theorem wit_TickAndPhases_ports : ∀ v : Fin 3, let c := (onChip fun c => (((c.setF (pstReg 31 0) 31 29 psRun).setF (pstReg 31 0) 27 26 v.val)).modPort 31
      fun p => { p with viol := v.val == 2, acc := true }).chip
    c.portState 31 = psRun ∧ c.regF (pstReg 31 0) 27 26 = v.val ∧ (c.port 31).viol = (v.val == 2) ∧ (c.port 31).acc = true := by decide
theorem wit_TickAndPhases_admit : let c := (onChip fun c => (((c.setF (pstReg 31 0) 31 29 psAdmit).setF (pstReg 31 0) 20 16 15)).modPort 31
      fun p => { p with acc := true }).chip
    c.portState 31 = psAdmit ∧ c.regF (pstReg 31 0) 20 16 = 15 ∧ (c.port 31).acc = true ∧ (c.port 31).viol = false ∧
    2 * (c.port 31).lastO.natAbs ≤ c.guard16.natAbs := by decide +kernel
/-- One observer, on local channel 15 in mode 0: uninitialised, then with a good sample, a lost one and a frozen one. -/
def observer (f : Chip → Chip) : State := live fun c => f ((c.setReg (obsReg 255 0) 0xB00F0000#32).setReg (lchReg 15 0) 0x80000000#32)
theorem wit_TickAndPhases_observer :
    (let c := (observer id).chip
     c.ticking = true ∧ c.twin.replay = none ∧ c.twin.joining = false ∧ c.paired = false ∧ c.fbk.writes = [] ∧ c.fbk.clears = [] ∧ c.armFaults = [] ∧
     c.allFault = false ∧ c.prf.chans = [] ∧ c.obsKeys = [255] ∧ c.obsActive 255 = true ∧ c.obsSrc 255 = 3 ∧ c.obsLch 255 = 15 ∧
     c.lchMode 15 = 0 ∧ c.reg (obsReg 255 7) = 0 ∧ c.obsInit 255 = false ∧ (c.lch 15).errTick = false ∧
     (let m := c.pairI (obsReg 255 3) + shrI ((c.lch 15).countTick * (c.reg (obsReg 255 2)).toInt) (c.regF (obsReg 255 1) 15 8);
      -(2 ^ 63) ≤ m ∧ m < 2 ^ 63)) ∧
    (let c := (observer fun c => (c.setB (recReg 255 7) 17 true).setLch 15 { Lch.zero with errTick := true }).chip
     c.obsInit 255 = true ∧ (c.lch 15).errTick = true) ∧
    (let c := (observer fun c => ((c.setB (recReg 255 7) 17 true).setF (obsReg 255 1) 31 24 1).setObs 255
       { c.obs 255 with lastRaw := some 0, frozen := true }).chip
     c.obsInit 255 = true ∧ c.regF (obsReg 255 1) 31 24 ≠ 0 ∧ (c.obs 255).lastRaw = some (c.lch 15).countTick ∧ (c.obs 255).frozen = true) := by
  decide +kernel
/-- A period of 1,000 counts: a Z edge 5 counts late within a tolerance of 5, and one 6 counts early outside it. -/
theorem wit_TickAndPhases_index : let c := (observer fun c => ((c.setReg (obsReg 255 7) 1000).setF (obsReg 255 8) 15 0 5).setReg (obsReg 255 9) 100).chip
    (1105 - (c.reg (obsReg 255 9)).toInt = 1 * ((c.reg (obsReg 255 7)).toNat : Int) + 5 ∧ (5 : Int).natAbs ≤ c.regF (obsReg 255 8) 15 0) ∧
    (94 - (c.reg (obsReg 255 9)).toInt = 0 * ((c.reg (obsReg 255 7)).toNat : Int) + -6 ∧ c.regF (obsReg 255 8) 15 0 < (-6 : Int).natAbs) := by decide +kernel
/-- A channel in RUN_A with κ at 1 inside its last phase, which ends in this tick or goes on; a slot with no swap; a task due at its deadline. -/
theorem wit_TickAndPhases_plan : let ph : Piece := { num := 7, jerk := 0, left := some 1 }
    let c := (live fun c => ((c.setF (chst 255 0) 31 28 stRunA).setReg (chst 255 3) f32One).modChan 255 fun x =>
      { x with plan := some { pieces := [ph], vEnd := 0, target := some 9 } }).chip
    c.chState 255 = stRunA ∧ (c.chan 255).kplan = none ∧ (c.chan 255).plan = some { pieces := [ph], vEnd := 0, target := some 9 } ∧
    (let dt := toQ (em (em (ea (c.kappa 255) (c.kappa 255)) f32Half) c.tS); 0 < dt ∧ 1 ≤ dt ∧ dt < dt + 1) := by decide +kernel
theorem wit_TickAndPhases_slot : State.reset.chip.backCalc 1023 0 = none ∧ (State.reset.chip.lslot 1023).swapAt = none := by decide +kernel
theorem wit_TickAndPhases_deadline : ∀ st : TbStand, let c := (planned fun c => c.setTbRun 4095 { stand := st, prevOver := false }).chip
    c.sched.plan.isSome = true ∧ (c.tbRun 4095).stand = st ∧ c.takenBy 4095 = none := by intro st; cases st <;> decide +kernel

/-- A Hall edge that skips three sectors; the edges of a channel in mode 2, whose pins are those of channel 15; a late Z edge; DIR 1; a
channel that no observer uses; a divided output that is off; the mirror outside CONFIG at and past its last offset. -/
theorem wit_FeedbackCommands_skip : let c := (onChip fun c => (c.setReg (lchReg 7 0) 0xA0000000#32).setLch 7 { Lch.zero with sector := 5 }).chip
    ∃ u v w : Bool, hallSector (u.toNat + 2 * v.toNat + 4 * w.toNat) = some 2 ∧ c.hallOwner 7 = some 7 ∧ (2 + 6 - (c.lch 7).sector) % 6 = 3 := by decide
theorem wit_FeedbackCommands_combined : let c := (onChip fun c => (c.setReg (lchReg 7 0) 0xC0000000#32).setLch 7 { Lch.zero with sector := 5 }).chip
    c.hallOwner 15 = some 7 ∧ c.lchMode 7 ≠ 1 ∧ (∃ u v w : Bool, hallSector (u.toNat + 2 * v.toNat + 4 * w.toNat) = some 0) := by decide
theorem wit_FeedbackCommands_more : (live fun c => { c with fbk := { c.fbk with t0 := 1000000 } }).chip.lchLate 15 = true ∧
    (let c := (onChip fun c => c.setReg (lchReg 15 0) 0x90000000#32).chip; c.regB (lchReg 15 0) 28 = true ∧ c.regB (lchReg 15 0) 31 = true ∧ c.lchMode 15 ≠ 1) ∧
    State.reset.chip.lchUsed 15 = false ∧ State.reset.chip.regB (divReg 3 0) 31 = false ∧
    (let c := (onChip fun c => c.setReg (divReg 3 0) 0x80000000#32).chip; c.regB (divReg 3 0) 31 = true ∧ fld (c.reg (divReg 3 0)) 23 8 = fld 0xC0000000#32 23 8) ∧
    State.reset.chip.inConfig = false ∧ bit 0x807FE000#32 31 = true ∧ fld 0x807FE000#32 22 0 ≤ 0x7FE000 ∧ 0x7FE000 < fld 0x807FE001#32 22 0 := by decide +kernel
/-- A move that a channel takes and one that it refuses; a table followed by a master and one on its own clock; a channel whose table is kept. -/
theorem wit_ProfileCommandTable_moves :
    (let c := (onChip fun c => c.setF (chst 255 0) 31 28 stIdle).chip
     c.refuses 255 (c.capture 255 1 0) = false ∧ c.refuses 255 (c.capture 255 3 0) = true) ∧
    (let r : TabRun := { table := 63, seg := 0, sigma := 0, debt := 0, entryP := 0, entryV := 0, sm := 0, past := none }
     let c := (onChip fun c => (c.setF (chst 255 0) 31 28 stRunB).modChan 255 fun x => { x with tab := some r }).chip
     (c.chan 255).tab = some r ∧ c.regB (tblReg r.table 0) 30 = false ∧ (c.setB (tblReg 63 0) 30 true).regB (tblReg r.table 0) 30 = true ∧
     c.keptBlocked 255 = false) := by decide +kernel
theorem wit_ProfileEvents_hold : (let c := (live fun c => ((c.setF (stpReg 31 0) 31 30 3).setF (stpReg 31 6) 31 16 1).modPrf fun p =>
      { p with steps := [(31, { Stepper.zero with rest := 1, prev := none })] }).chip
    c.regF (stpReg 31 6) 31 16 ≤ (c.stepper 31).rest ∧ (c.stepper 31).prev = none) ∧
    (let c := (live id).chip; c.bankGood 63 0 = false ∧ (c.bankMeets 63 0).tabBound 63 = false) := by decide +kernel

/-- The twin port up and down with TLINK set and clear; a station whose ticks do not run yet. -/
theorem wit_RingCommands_links : (State.reset.chip.ticking = false) ∧ ((ringAt 4 2 fun c => { c with ticking := true }).chip.nextTick = none) ∧
    (ringAt 4 2 fun c => { c with ticking := true }).chip.ticking = true ∧
    (let c := (ringAt 4 2 fun c => c.setB 0x700020 27 true).chip; c.regB 0x700020 27 = true ∧ c.ringEn = true ∧ c.loopOf c.station true = false) ∧
    (∃ east : Bool, (east == ((ringAt 4 2 id).chip.twinT == 0)) = true) ∧ (∃ east : Bool, (east == ((ringAt 4 2 id).chip.twinT == 0)) = false) ∧
    (ringAt 4 2 id).chip.regB 0x700020 27 = false ∧ (ringAt 4 2 fun c => c.setB 0x700000 20 true).chip.loopOf 0 true = true := by
  refine ⟨?_, ?_, ?_, ?_, ⟨(ringAt 4 2 id).chip.twinT == 0, ?_⟩, ⟨!((ringAt 4 2 id).chip.twinT == 0), ?_⟩, ?_, ?_⟩ <;> decide +kernel
/-- A triggered output with and without a pending request, and one whose pulse ends in this cycle. -/
theorem wit_TimeCommands_cycle : (trigAt 0xE0000000#32 { Trig.zero with reqs := [{ tc := 0, width := 8 }] }).chip.toArmed 31 = true ∧
    ((trigAt 0xE0000000#32 { Trig.zero with reqs := [{ tc := 0, width := 8 }] }).chip.trig 31).reqs ≠ [] ∧ ((trigAt 0xE0000000#32 Trig.zero).chip.trig 31).reqs = [] ∧
    (let c := (onChip fun c => c.setB (toReg 31 10) 0 true).chip; c.toArmed 31 = false ∧ c.regB (toReg 31 10) 0 = true ∧ (c.trig 31).endAt ≤ c.tb3) ∧
    (0x200000 : Nat) < 0x900000 ∧ (∀ n w, n < 32 → w < 16 → (0x200000 : Nat) ≠ toReg n w) := by
  refine ⟨by decide, by decide, by decide, by decide +kernel, by decide, ?_⟩
  intro n w _ _; unfold toReg; omega
theorem wit_PlantPortCommands_lines : State.reset.chip.linesGood 0x10000000 32 = true ∧ State.reset.chip.linesGood 0x10000000 1518 = true := by decide +kernel

/-- Both clears of the trips; the digital die with and without supply; the lines that memory commands meet. -/
theorem wit_DigitalIoCommands_more : (State.reset.chip.modDio fun d => { d with clr := some (some true) }).dio.clr = some (some true) ∧
    (State.reset.chip.modDio fun d => { d with clr := some (some true) }).regB 0xD00000 4 = false ∧
    (State.reset.chip.modDio fun d => { d with clr := some (some false) }).dio.clr = some (some false) ∧ bit 0#32 0 = false ∧
    (State.reset.chip.modDio fun d => { d with power := false }).dio.power = false ∧ (State.reset.chip.modDio fun d => { d with power := true }).dio.power = true ∧
    bit (State.reset.chip.modDio fun d => { d with deb := 0 }).dio.deb 31 ≠ true ∧ (State.reset.chip.setB 0xD00000 4 true).regB 0xD00000 4 = true := by decide +kernel
theorem wit_MemoryIntegrityCommands_more : spaceOf 0x10000000 = .cell ∧ spaceOf 0x100000000 = .dram ∧
    (let c := (onChip fun c => { c with golden := (64, some 0) }).chip; c.backing (64 * 0x4000000) = .backed (.flash 0)) ∧
    (let c := State.reset.chip.setLine 0x400000 { Line.good with poisoned := true }
     (∀ g, c.backing (64 * 0x400000) ≠ .backed g) ∧ (c.line 0x400000).poisoned = true) := by
  refine ⟨by decide, ?_, ?_, ?_, by decide⟩
  · unfold spaceOf crcBase dramEnd
    generalize Config.sa8 = b
    cases b <;> decide +kernel
  · unfold Chip.backing spaceOf crcBase dramEnd
    generalize Config.sa8 = b
    cases b <;> decide +kernel
  · have h : (State.reset.chip.setLine 0x400000 { Line.good with poisoned := true }).backing (64 * 0x400000) = .plain := by decide +kernel
    intro g; rw [h]; exact fun e => by cases e
/-- A region whose two lines wait for a rebuild or were poisoned; a rail below its warning level, one above, and one below its off level. -/
theorem wit_HealthCommands_more : (State.reset.chip.setReg 0xB0000C 0x7FFF0000#32).critCause = false ∧
    (onChip fun c => c.modHlt (fun h => { h with hot := [(0, 0)] }) |>.setBase 3 { val := 1000000 * 2 ^ 44, integ := 0, rate := 0, slewLeft := 0, since := 0 }).chip.critCause = true ∧
    (∀ r, r < 8 → railOff r < railWarn r) ∧ 10 * 19199 < railWarn 7 ∧ railWarn 7 ≤ 10 * 19200 ∧ railOff 7 < 10 * 16001 ∧ 10 * 16000 ≤ railOff 7 ∧
    State.reset.chip.hlt.inhibit = false ∧ (State.reset.chip.modHlt fun h => { h with dipEnd := 5 }).tb3 < 5 + 1000000 ∧
    0 + 1000000 ≤ (State.reset.chip.setBase 3 { val := 1000000 * 2 ^ 44, integ := 0, rate := 0, slewLeft := 0, since := 0 }).tb3 := by decide +kernel
/-- BOOT with a faulty Husk and with a good one, a module held in RESET by its rails, XREF lost later than RESET. -/
theorem wit_ResetsAndBoot_more : (live id).chip.modState = .reset ∧ (live fun c => c.setModState .run).chip.modState ≠ .reset ∧
    (onHusk fun h => { h with internal := true, supply := true }).husk.internal = true ∧ State.reset.husk.internal = false ∧
    (onChip fun c => { c with orderHeld := true }).chip.orderHeld = true := by decide +kernel
theorem wit_HostCommands_dma : (onChip fun c => dmaAt ((c.setReg (dmaReg 7 5) 64).setB (dmaReg 7 6) 31 true)).chip.dmaBusy 7 = true ∧
    (let c := (onChip fun c => c.setHi 40 0x11C none).chip; c.regB (hst 0x100 + 16 * 63) 31 = false) ∧
    tabGet (fun _ => none) (State.reset.chip.modHlt fun h => { h with vmin := [(7, some 3)] }).hlt.vmin 7 = some 3 := by decide +kernel
end Sys2Proof.Tests
end

section
/-!
Stores of a pod to its own memories (R37, R54, R60; O13): the bytes of a number, the pod's data memory in the address map, the five
store instructions as one operation, and what it leaves.
-/
namespace Sys2Proof.Machine

/-! ## The bytes of a stored number -/

/-- Byte `i` of a number written in `n` bytes. -/
theorem toBytes_getD : ∀ n v i : Nat, i < n → (toBytes n v).getD i 0 = BitVec.ofNat 8 (v / 256 ^ i)
  | 0, _, _, h => absurd h (Nat.not_lt_zero _)
  | _ + 1, v, 0, _ => by simp [toBytes]
  | n + 1, v, i + 1, h => by
    rw [toBytes, List.getD_cons_succ, toBytes_getD n (v / 256) i (by omega), Nat.div_div_eq_div_mul, Nat.pow_succ, Nat.mul_comm]

/-! ## A store to the pod's own data memory -/

/-- The first 256 KiB of a pod's window are its data memory (R37). -/
theorem spaceOf_podWin_data {n a : Nat} (hn : n < 32) (ha : a < 0x40000) : spaceOf (podWin n + a) = .data n := by
  have h1 : ¬ podWin n + a < cellBase := by simp only [podWin, cellBase]; omega
  have h2 : ¬ podWin n + a < cellEnd := by simp only [podWin, cellEnd]; omega
  have h3 : ¬ podWin n + a < regBase := by simp only [podWin, regBase]; omega
  have h4 : ¬ podWin n + a < regBase + 0x1000000 := by simp only [podWin, regBase]; omega
  have h5 : ¬ podWin n + a < podWin 0 := by simp only [podWin]; omega
  have h6 : podWin n + a < podWin 32 := by simp only [podWin]; omega
  have h7 : (podWin n + a - podWin 0) / 0x800000 = n := by simp only [podWin]; omega
  have h8 : (podWin n + a - podWin 0) % 0x800000 = a := by simp only [podWin]; omega
  simp only [spaceOf, h1, h2, h3, h4, h5, h6, h7, h8, ha, if_true, if_false]

/-- Bytes into mapped memory change memory and the lines' bookkeeping, nothing else. -/
theorem Chip.putBytes_frame (c : Chip) (a : Nat) (bs : List Byte) :
    c.putBytes a bs = { c with cells := (c.putBytes a bs).cells, mem := (c.putBytes a bs).mem } := by
  have hlines : ∀ d : Chip, d = { c with mem := d.mem } → ∀ l, d.rewriteLine l = { c with mem := (d.rewriteLine l).mem } := by
    intro d hd l
    unfold Chip.rewriteLine
    split
    · exact hd
    · rw [hd]; rfl
  have hloop := forL_keeps (fun d : Chip => d = { c with mem := d.mem }) (linesOf a bs.length)
    (fun l c => c.rewriteLine l) (fun l d hd => hlines d hd l) c rfl
  unfold Chip.putBytes
  rw [Chip.setBytes_frame, hloop]

/-- A pod is no host master. -/
theorem isHost_pod {n : Nat} (hn : n < 32) : isHost n = false := by
  simp only [isHost, decide_eq_false_iff_not]; omega

/-- A store within one line of a data memory by a master other than the host, outside a backed region and a handling, puts its
bytes there. -/
theorem Chip.memStore_data (c : Chip) {m k n x : Nat} (bs : List Byte) (hs : spaceOf x = .data n) (hm : isHost m = false)
    (h0 : 0 < bs.length) (hw : x % 64 + bs.length ≤ 64) (hh : c.mem.handling.contains (x / 64) = false)
    (hb : c.isBacked x = false) : c.memStore m k x bs = (c.putBytes x bs, true) := by
  have hstore : c.storable m x = true := by simp only [Chip.storable, hs, hb, Bool.not_false, Bool.true_or]
  have hwait : c.storeWaits x = none := by simp only [Chip.storeWaits, hh, hs, Bool.false_eq_true, if_false]
  rw [c.memStore_within m k x bs h0 hw hstore]
  simp only [Chip.storePart, hwait, hs, Chip.masterBytes, hm, Bool.not_false, if_true]
  rfl

/-- A pod's window starts at a line. -/
theorem podWin_add_mod (n a : Nat) : (podWin n + a) % 64 = a % 64 := by simp only [podWin]; omega

/-! ## The store instructions -/

/-- The register that a store of `size` bytes takes its data from, and the number in it. -/
def storeReg (size rt : Nat) : PReg := if size = 16 then .v rt else .s rt
def Pod.storeNum (q : Pod) (size rt : Nat) : Nat := if size = 16 then (q.vget rt).toNat else (q.sget rt).toNat

/-- Each store instruction is the store of its size: 1, 2, 4, 8 or 16 bytes of its register. -/
theorem exec_storeRows (s : State) (p : Fin 32) (rt : BitVec 5) (ag : BitVec 3) (mode : BitVec 2) (off : BitVec 15) (q : Pod)
    (row : Instr × Nat × PReg × Nat) (h : row ∈ storeRows p rt ag mode off q) :
    row.2.1 ∈ [1, 2, 4, 8, 16] ∧ row.2.2.1 = storeReg row.2.1 rt.toNat ∧ row.2.2.2 = q.storeNum row.2.1 rt.toNat ∧
      exec row.1 s = s.onChip (s.chip.mStore p.val rt.toNat ag.toNat mode.toNat off.toNat row.2.1 .pass) := by
  simp only [storeRows, List.mem_cons, List.not_mem_nil, or_false] at h
  obtain rfl | rfl | rfl | rfl | rfl := h <;> exact ⟨by simp, rfl, rfl, rfl⟩

/-- A ready format M word has a legal mode. -/
theorem Pod.memReady_modeOk {q : Pod} {r : PReg} {mode : BitVec 2} {off : BitVec 15} (h : q.memReady r mode off) :
    memModeOk mode.toNat off.toNat = true := by
  obtain ⟨⟨rfl, rfl⟩ | ⟨rfl, ho⟩ | rfl, -, -⟩ := h
  · rfl
  · simpa [memModeOk] using ho
  · rfl

/-- No register that a ready format M word uses is owed. -/
theorem Pod.memReady_free {q : Pod} {r : PReg} {mode : BitVec 2} {off : BitVec 15} (h : q.memReady r mode off) :
    q.free (r :: memModeUses mode.toNat off.toNat) := by
  obtain ⟨hmode, hr, hx⟩ := h
  intro x hmem
  obtain rfl | hmem := List.mem_cons.mp hmem
  · exact hr
  obtain ⟨rfl, rfl⟩ | ⟨rfl, ho⟩ | rfl := hmode
  · simp [memModeUses] at hmem
  · have hx' : x = .s off.toNat := by simpa [memModeUses, Nat.mod_eq_of_lt ho] using hmem
    exact hx' ▸ hx rfl
  · simp [memModeUses] at hmem

/-- A ready, aligned store to the own memories that need not wait: what `Chip.ownStore` does, the generator, the next instruction. -/
theorem Chip.mStore_own (c : Chip) {n rt ag size a : Nat} {mode : BitVec 2} {off : BitVec 15} {g : AddrGen} (hp : c.podReady n)
    (hr : (c.pod n).memReady (storeReg size rt) mode off)
    (ha : (c.pod n).memAddr ag mode.toNat off.toNat size = some (a, g)) (hal : a % size = 0) (ho : a < 0x50000)
    (hw : c.ownStoreWaits n a size = false) :
    c.mStore n rt ag mode.toNat off.toNat size .pass =
      ((c.ownStore n a (toBytes size ((c.pod n).storeNum size rt)) .pass).modPod n fun q => q.agSet ag g).modPod n
        fun q => q.retire.flagTrap (c.pod n).pstat := by
  refine Chip.issue_done c n _ _ _ _ hp (Pod.memReady_modeOk hr) (Pod.memReady_free hr) ?_
  have hmem : ownMem a = true := decide_eq_true ho
  simp only [ha, hal, bne_self_eq_false, Bool.false_eq_true, if_false, Chip.podStore, hmem, if_true, toBytes_length, hw,
    Eff.andThen, Eff.pod, Pod.storeNum]

/-- A store to the own data memory over no line in handling, which no LDSTV still stores to, does not wait. -/
theorem Chip.ownStoreWaits_free (c : Chip) {n a len : Nat} (hh : c.mem.handling.contains ((podWin n + a) / 64) = false)
    (hw : (c.pod n).awaits a len = false) : c.ownStoreWaits n a len = false := by
  rw [Chip.ownStoreWaits, hh, hw, Bool.or_self, Bool.and_false]

/-- A store to the own data memory whose transfer did not fail is the pod's store to memory. -/
theorem Chip.ownStore_data (c : Chip) {n a : Nat} (bs : List Byte) (ha : a < 0x40000) :
    c.ownStore n a bs .pass = (c.memStore n 1 (podWin n + a) bs).1 := by
  have hown : ownData a = true := decide_eq_true ha
  rw [Chip.ownStore, if_pos hown]
  exact fun _ _ => nofun

/-- A store to the own instruction memory does not wait, and is reported (R38, R40). -/
theorem Chip.ownStore_imem (c : Chip) {n a : Nat} (bs : List Byte) (chk : LineCheck) (ha : 0x40000 ≤ a) :
    c.ownStoreWaits n a bs.length = false ∧ c.ownStore n a bs chk = c.badStore n 2 a := by
  have hown : ownData a = false := decide_eq_false (by omega)
  exact ⟨by rw [Chip.ownStoreWaits, hown, Bool.false_and], by simp only [Chip.ownStore, hown, Bool.false_eq_true, if_false]⟩

/-- What a completed instruction that put bytes into memory leaves: memory holds the bytes, the pod has moved on, and no register,
nor anything beside the chip, has changed. -/
theorem putBytes_podDone (s : State) (n x size v : Nat) (f : Pod → Pod) :
    let t := s.podDoneOn n ((s.chip.putBytes x (toBytes size v)).modPod n f)
    (∀ y, t.chip.byteAt y = if x ≤ y ∧ y < x + size then BitVec.ofNat 8 (v / 256 ^ (y - x)) else s.chip.byteAt y) ∧
    (Memory.wf s.chip.cells = true → Memory.wf t.chip.cells = true) ∧
    t.chip.pods = (s.podDone n f).chip.pods ∧ t.chip.regs = s.chip.regs ∧
    t.husk = s.husk ∧ t.core = s.core ∧ t.pending = s.pending := by
  have hframe := s.chip.putBytes_frame x (toBytes size v)
  refine ⟨fun y => ?_, s.chip.putBytes_wf _ _, ?_, ?_, rfl, rfl, rfl⟩
  · refine (s.chip.byteAt_putBytes x y _).trans ?_
    rw [toBytes_length]
    split
    · exact toBytes_getD _ _ _ (by omega)
    · rfl
  · rw [hframe]; rfl
  · rw [hframe]; rfl

/-- Settles O13: a store issues as the store of its size; in data memory its bytes go in place, in instruction memory it is
reported. -/
theorem ownStores : Obligations.OwnStores := by
  unfold Obligations.OwnStores
  intro s p rt ag mode off a g hp
  refine ⟨?_, ?_⟩
  · intro row hrow hr ha hal hlt hh hb haw
    obtain ⟨hsize, hreg, hnum, hexec⟩ := exec_storeRows s p rt ag mode off _ row hrow
    have hline : 0 < row.2.1 ∧ a % 64 + row.2.1 ≤ 64 := by
      simp only [List.mem_cons, List.not_mem_nil, or_false] at hsize
      obtain h | h | h | h | h := hsize <;> rw [h] at hal ⊢ <;> omega
    have hput := s.chip.memStore_data (k := 1) (toBytes row.2.1 row.2.2.2) (spaceOf_podWin_data p.isLt hlt) (isHost_pod p.isLt)
      (by rw [toBytes_length]; exact hline.1) (by rw [toBytes_length, podWin_add_mod]; exact hline.2) hh hb
    rw [s.chip.mStore_own hp (hreg ▸ hr) ha hal (by omega) (s.chip.ownStoreWaits_free hh haw), ← hnum,
      s.chip.ownStore_data _ hlt, hput] at hexec
    exact ⟨_, hexec, putBytes_podDone s p.val _ _ _ _⟩
  · intro row hrow hr ha hal hge hlt
    obtain ⟨-, hreg, -, hexec⟩ := exec_storeRows s p rt ag mode off _ row hrow
    obtain ⟨hwaits, hbad⟩ := s.chip.ownStore_imem (n := p.val)
      (toBytes row.2.1 ((s.chip.pod p.val).storeNum row.2.1 rt.toNat)) .pass hge
    rw [toBytes_length] at hwaits
    rw [hexec, s.chip.mStore_own hp (hreg ▸ hr) ha hal hlt hwaits, hbad]
    rfl

end Sys2Proof.Machine
end

section
/-!
The hot reset of the PCIe endpoint (R478, O58). The reset drops words of the register table, so it leaves the DMA channels idle where
that table is canonical, as it is from reset on, and not in every state the type has.
-/
namespace Sys2Proof.Machine

/-! ## Loops -/

/-- What the turn of one element brings about, and every turn keeps, holds after the loop. -/
theorem forL_reaches {α β : Type} (P Q : α → Prop) (f : β → α → α) (hP : ∀ b a, P a → P (f b a)) {b : β}
    (hb : ∀ a, P a → Q (f b a)) (hQ : ∀ b' a, P a → Q a → Q (f b' a)) (l : List β) (hl : b ∈ l) (a : α) (ha : P a) :
    Q (forL l f a) := by
  obtain ⟨l1, l2, rfl⟩ := List.append_of_mem hl
  have h1 := forL_keeps P l1 f hP a ha
  have h2 := forL_keeps (fun x => P x ∧ Q x) l2 f (fun b' a h => ⟨hP b' a h.1, hQ b' a h.1 h.2⟩) _ ⟨hP b _ h1, hb _ h1⟩
  simpa only [forL, List.foldl_append, List.foldl_cons] using h2.2

/-- A counted loop is the loop over its numbers. -/
theorem forN_eq_forL {α : Type} (n : Nat) (f : Nat → α → α) (a : α) : forN n f a = forL (List.range n) f a := rfl

/-! ## Canonical tables -/

/-- Below its keys, a canonical table reads as its default, whatever entries are dropped from it. -/
theorem tabGet_filter_below {α : Type} [DecidableEq α] (d : Nat → α) (p : Nat × α → Bool) (k : Nat) :
    ∀ (t : Tab α) (lo : Nat), tabWfAbove d lo t = true → k < lo → tabGet d (t.filter p) k = d k := by
  intro t
  induction t with
  | nil => exact fun _ _ _ => rfl
  | cons e t ih =>
    intro lo hw hk
    simp only [tabWfAbove, Bool.and_eq_true, decide_eq_true_eq] at hw
    obtain ⟨⟨hlo, -⟩, ht⟩ := hw
    rw [List.filter_cons]
    split
    · rw [tabGet, if_neg (by omega), if_neg (by omega)]
    · exact ih _ ht (by omega)

/-- A key that is kept reads as before where entries are dropped from a canonical table. -/
theorem tabGet_filter {α : Type} [DecidableEq α] (d : Nat → α) (p : Nat → Bool) (k : Nat) (hk : p k = true) (t : Tab α)
    (hw : tabWf d t = true) : tabGet d (t.filter fun e => p e.1) k = tabGet d t k := by
  suffices h : ∀ lo, tabWfAbove d lo t = true → tabGet d (t.filter fun e => p e.1) k = tabGet d t k from h 0 hw
  clear hw
  induction t with
  | nil => exact fun _ _ => rfl
  | cons e t ih =>
    obtain ⟨k', v⟩ := e
    intro lo hw
    simp only [tabWfAbove, Bool.and_eq_true, decide_eq_true_eq] at hw
    obtain ⟨-, ht⟩ := hw
    rw [List.filter_cons]
    by_cases hp : p k' = true
    · simp only [hp, if_true, tabGet, ih _ ht]
    · have hne : k' ≠ k := fun h => hp (h ▸ hk)
      simp only [hp, Bool.false_eq_true, if_false, tabGet, hne]
      split
      · exact ih _ ht
      · exact tabGet_filter_below d _ k t _ ht (by omega)

/-! ## Bits of a written word -/

/-- A bit of a word with a written field: of the value within the field, as before elsewhere. -/
theorem bit_setFld (w : W32) {hi lo v i : Nat} (hi32 : i < 32) :
    bit (setFld w hi lo v) i = if lo ≤ i ∧ i ≤ hi then v.testBit (i - lo) else bit w i := by
  have hbit : ∀ x : W32, bit x i = x.getLsbD i := fun _ => rfl
  simp only [hbit, setFld, BitVec.getLsbD_or, BitVec.getLsbD_and, BitVec.getLsbD_not, BitVec.getLsbD_ofNat, hi32, decide_true,
    Bool.true_and, Nat.testBit_and, Nat.testBit_shiftLeft, Nat.testBit_two_pow_sub_one]
  by_cases h1 : lo ≤ i
  · by_cases h2 : i ≤ hi
    · have h3 : i - lo < hi + 1 - lo := by omega
      simp [h1, h2, h3]
    · have h3 : ¬ i - lo < hi + 1 - lo := by omega
      simp [h2, h3]
  · simp [h1]

/-- A written bit reads back. -/
theorem bit_setBit (w : W32) {i : Nat} (b : Bool) (hi : i < 32) : bit (setBit w i b) i = b := by
  rw [setBit, bit_setFld w hi, if_pos ⟨Nat.le_refl i, Nat.le_refl i⟩, Nat.sub_self]
  cases b <;> rfl

/-- A written field reads back. -/
theorem fld_setFld (w : W32) {hi lo v : Nat} (hhi : hi < 32) (hv : v < 2 ^ (hi + 1 - lo)) : fld (setFld w hi lo v) hi lo = v := by
  refine Nat.eq_of_testBit_eq fun i => ?_
  rw [fld, bitsOf, Nat.testBit_mod_two_pow, Nat.testBit_shiftRight]
  by_cases h : i < hi + 1 - lo
  · have hb := bit_setFld w (hi := hi) (lo := lo) (v := v) (show lo + i < 32 by omega)
    rw [if_pos (by omega), Nat.add_sub_cancel_left] at hb
    simpa [h, bit] using hb
  · simp [h, Nat.testBit_lt_two_pow (Nat.lt_of_lt_of_le hv (Nat.pow_le_pow_right (by omega) (Nat.le_of_not_lt h)))]

/-- A field is below the power of its width. -/
theorem fld_lt (w : W32) (hi lo : Nat) : fld w hi lo < 2 ^ (hi + 1 - lo) := Nat.mod_lt _ (Nat.two_pow_pos _)

/-! ## A halted DMA channel (R484) -/

/-- The words of DMA channels are different words. -/
theorem dmaReg_inj {n k w x : Nat} (hw : w < 16) (hx : x < 16) : dmaReg n w = dmaReg k x ↔ n = k ∧ w = x := by
  simp only [dmaReg, hst]; omega

/-- A read after a write: what was written, or the word as before. -/
theorem Chip.reg_setReg_eq (c : Chip) (off x : Nat) (v : W32) : (c.setReg off v).reg x = if x = off then v else c.reg x := by
  split
  · next h => rw [h, Chip.reg_setReg]
  · next h => exact c.reg_setReg_ne off x v h

/-- The control word of a vector is no word of a DMA channel. -/
theorem Chip.reg_setB_vector (c : Chip) (n w : Nat) {v : Nat} (hv : v < 64) (b : Bool) :
    (c.setB (hst 0x100 + 16 * v) 31 b).reg (dmaReg n w) = c.reg (dmaReg n w) :=
  c.reg_setReg_ne _ _ _ (by simp only [dmaReg, hst]; omega)

/-- A signal leaves the words of the DMA channels. -/
theorem Chip.reg_dmaSignal (c : Chip) (k n w : Nat) : (c.dmaSignal k).reg (dmaReg n w) = c.reg (dmaReg n w) := by
  unfold Chip.dmaSignal
  split
  · exact c.reg_setB_vector n w (fld_lt _ 21 16) true
  · rfl

/-- A halt writes the channel's status and the address it stopped at, and leaves the other words of the DMA channels. -/
theorem Chip.reg_dmaHalt (c : Chip) (k cause addr n w : Nat) (hw : w < 16) :
    (c.dmaHalt k cause addr).reg (dmaReg n w) =
      if n = k ∧ w = 6 then setFld (setBit (setBit (c.reg (dmaReg k 6)) 31 false) 29 true) 27 24 cause
      else if n = k ∧ w = 7 then BitVec.ofNat 32 addr
      else if n = k ∧ w = 8 then BitVec.ofNat 32 (addr / 2 ^ 32 % 256)
      else c.reg (dmaReg n w) := by
  unfold Chip.dmaHalt
  rw [Chip.reg_dmaSignal]
  simp only [Chip.setB, Chip.setF, Chip.reg_setReg_eq, dmaReg_inj hw (by omega : 6 < 16), dmaReg_inj hw (by omega : 7 < 16),
    dmaReg_inj hw (by omega : 8 < 16), if_true]
  by_cases hn : n = k
  · by_cases h6 : w = 6
    · simp [hn, h6]
    · by_cases h7 : w = 7
      · simp [hn, h7]
      · simp [hn, h6, h7]
  · simp [hn]

/-- A halted channel is not busy and shows its cause and the low word of its address. -/
theorem Chip.dmaHalt_self (c : Chip) (n addr : Nat) :
    (c.dmaHalt n 3 addr).regF (dmaReg n 6) 27 24 = 3 ∧ (c.dmaHalt n 3 addr).reg (dmaReg n 7) = BitVec.ofNat 32 addr := by
  refine ⟨?_, ?_⟩
  · rw [Chip.regF, c.reg_dmaHalt n 3 addr n 6 (by omega), if_pos ⟨rfl, rfl⟩, fld_setFld _ (by omega) (by omega)]
  · rw [c.reg_dmaHalt n 3 addr n 7 (by omega), if_neg (by omega), if_pos ⟨rfl, rfl⟩]

/-- A halt makes no channel busy. -/
theorem Chip.dmaBusy_dmaHalt (c : Chip) (k cause addr n : Nat) (h : c.dmaBusy n = false) :
    (c.dmaHalt k cause addr).dmaBusy n = false := by
  unfold Chip.dmaBusy Chip.regB at h ⊢
  rw [c.reg_dmaHalt k cause addr n 6 (by omega)]
  split
  · rw [bit_setFld _ (by omega), if_neg (by omega), setBit, bit_setFld _ (by omega), if_neg (by omega), bit_setBit _ _ (by omega)]
  · rw [if_neg (by omega), if_neg (by omega)]
    exact h

/-! ## The chip during a hot reset (R478) -/

/-- Two chips that differ in the register table alone, and that of the second is canonical. -/
def Chip.SameButRegs (c d : Chip) : Prop := d = { c with regs := d.regs } ∧ tabWf regReset d.regs = true

/-- A register write changes registers alone. -/
theorem Chip.SameButRegs.setReg {c d : Chip} (h : c.SameButRegs d) (off : Nat) (v : W32) : c.SameButRegs (d.setReg off v) :=
  ⟨by rw [h.1]; rfl, d.setReg_wf off v h.2⟩

/-- A signal changes registers alone. -/
theorem Chip.SameButRegs.dmaSignal {c d : Chip} (h : c.SameButRegs d) (n : Nat) : c.SameButRegs (d.dmaSignal n) := by
  unfold Chip.dmaSignal
  split
  · exact h.setReg _ _
  · exact h

/-- A chip that differs in registers alone moves the same by DMA. -/
theorem Chip.SameButRegs.dmaMoves {c d : Chip} (h : c.SameButRegs d) (n : Nat) : d.dmaMoves n = c.dmaMoves n := by
  rw [h.1]; rfl

/-- Channel `n` is as it was, but for its status: the chip differs in registers alone and the count of bytes moved stands. -/
def Chip.DmaKept (c : Chip) (n : Nat) (d : Chip) : Prop := c.SameButRegs d ∧ d.reg (dmaReg n 9) = c.reg (dmaReg n 9)
/-- Channel `n` shows CAUSE 3 and the low word of the address it had reached in `c`. -/
def Chip.DmaHalted (c : Chip) (n : Nat) (d : Chip) : Prop :=
  d.regF (dmaReg n 6) 27 24 = 3 ∧ d.reg (dmaReg n 7) = BitVec.ofNat 32 ((c.dmaMoves n).1 + (c.reg (dmaReg n 9)).toNat)

/-- The status of channel `k` cleared: BUSY and its two ends. -/
def Chip.clearDma (c : Chip) (k : Nat) : Chip := c.setF (dmaReg k 6) 31 29 0
/-- Channel `k` halted at its next address with CAUSE 3. -/
def Chip.haltDma (c : Chip) (k : Nat) : Chip := c.dmaHalt k 3 ((c.dmaMoves k).1 + (c.reg (dmaReg k 9)).toNat)

theorem Chip.DmaKept.clearDma {c d : Chip} {n : Nat} (h : c.DmaKept n d) (k : Nat) : c.DmaKept n (d.clearDma k) :=
  ⟨h.1.setReg _ _, (d.reg_setReg_ne _ _ _ (by rw [Ne, dmaReg_inj (by omega) (by omega)]; omega)).trans h.2⟩

theorem Chip.DmaKept.haltDma {c d : Chip} {n : Nat} (h : c.DmaKept n d) (k : Nat) : c.DmaKept n (d.haltDma k) := by
  refine ⟨(((((h.1.setReg _ _).setReg _ _).setReg _ _).setReg _ _).setReg _ _).dmaSignal k, ?_⟩
  rw [Chip.haltDma, d.reg_dmaHalt _ _ _ n 9 (by omega), if_neg (by omega), if_neg (by omega), if_neg (by omega), h.2]

/-- A cleared channel is not busy, and no other one becomes so. -/
theorem Chip.dmaBusy_clearDma (d : Chip) {n k : Nat} (h : k = n ∨ d.dmaBusy n = false) : (d.clearDma k).dmaBusy n = false := by
  unfold Chip.dmaBusy Chip.regB Chip.clearDma Chip.setF at *
  rw [Chip.reg_setReg_eq]
  split
  · rw [bit_setFld _ (by omega), if_pos (by omega), Nat.zero_testBit]
  · next hne => exact h.resolve_left fun e => hne (by rw [e])

/-- A channel that is halted, or was halted before, shows so. -/
theorem Chip.DmaKept.halted {c d : Chip} {n k : Nat} (hd : c.DmaKept n d) (h : k = n ∨ c.DmaHalted n d) :
    c.DmaHalted n (d.haltDma k) := by
  by_cases hk : k = n
  · subst hk
    obtain ⟨hsame, hcount⟩ := hd
    unfold Chip.DmaHalted Chip.haltDma
    rw [← hsame.dmaMoves k, ← hcount]
    exact d.dmaHalt_self k _
  · obtain ⟨hcause, haddr⟩ := h.resolve_left hk
    have hother : ∀ w, w < 16 → (d.haltDma k).reg (dmaReg n w) = d.reg (dmaReg n w) := fun w hw => by
      rw [Chip.haltDma, d.reg_dmaHalt _ _ _ n w hw, if_neg (by omega), if_neg (by omega), if_neg (by omega)]
    exact ⟨by rw [Chip.regF, hother 6 (by omega)]; exact hcause, by rw [hother 7 (by omega)]; exact haddr⟩

/-! ## A hot reset (R478) -/

/-- The channels' statuses cleared, and those that were busy halted. -/
def Chip.dmaStopped (c : Chip) : Chip :=
  forL ((List.range 8).filter fun n => c.dmaBusy n) (fun n d => d.haltDma n) (forN 8 (fun n d => d.clearDma n) c)
/-- No vector pending. -/
def Chip.vectorsCleared (c : Chip) : Chip := forN 64 (fun v d => d.setB (hst 0x100 + 16 * v) 31 false) c
/-- The words that a hot reset puts back to their reset values. -/
def hotResetWord (off : Nat) : Bool :=
  decide (hst 0x80000 ≤ off) || decide (hst 0x40 ≤ off ∧ off < hst 0x80) || off == hst 4

/-- A hot reset stops the channels, clears the vectors, and drops words of the register table. -/
theorem Chip.endpointReset_eq (c : Chip) : c.endpointReset =
    { c.dmaStopped.vectorsCleared with
      regs := c.dmaStopped.vectorsCleared.regs.filter fun e => !hotResetWord e.1
      host := { c.dmaStopped.vectorsCleared.host with pci := PciSpace.reset } } := by
  unfold Chip.endpointReset Chip.dmaStopped Chip.vectorsCleared hotResetWord
  rfl

/-- The channels once stopped: none is busy, and one that was is halted. -/
theorem Chip.dmaStopped_dma (c : Chip) (hw : tabWf regReset c.regs = true) {n : Nat} (hn : n < 8) :
    c.SameButRegs c.dmaStopped ∧ c.dmaStopped.dmaBusy n = false ∧ (c.dmaBusy n = true → c.DmaHalted n c.dmaStopped) := by
  have hkept0 := forL_keeps (c.DmaKept n) (List.range 8) (fun k d => d.clearDma k) (fun k _ h => h.clearDma k) c ⟨⟨rfl, hw⟩, rfl⟩
  have hidle0 := forL_reaches (c.DmaKept n) (fun d => d.dmaBusy n = false) (fun k d => d.clearDma k) (fun k _ h => h.clearDma k)
    (fun d _ => d.dmaBusy_clearDma (.inl rfl)) (fun _ d _ h => d.dmaBusy_clearDma (.inr h)) _ (List.mem_range.mpr hn) c ⟨⟨rfl, hw⟩, rfl⟩
  refine ⟨(forL_keeps (c.DmaKept n) _ _ (fun k _ h => h.haltDma k) _ hkept0).1,
    forL_keeps (fun d : Chip => d.dmaBusy n = false) _ _ (fun k d h => d.dmaBusy_dmaHalt k 3 _ n h) _ hidle0, fun hbusy => ?_⟩
  exact forL_reaches (c.DmaKept n) (c.DmaHalted n) _ (fun k _ h => h.haltDma k) (fun _ h => h.halted (.inl rfl))
    (fun _ _ h hh => h.halted (.inr hh)) _ (List.mem_filter.mpr ⟨List.mem_range.mpr hn, hbusy⟩) _ hkept0

/-- Clearing the vectors leaves the words of the DMA channels. -/
theorem Chip.vectorsCleared_dma (c : Chip) (hw : tabWf regReset c.regs = true) :
    c.SameButRegs c.vectorsCleared ∧ ∀ n w, c.vectorsCleared.reg (dmaReg n w) = c.reg (dmaReg n w) := by
  refine forN_keeps (fun d => c.SameButRegs d ∧ ∀ n w, d.reg (dmaReg n w) = c.reg (dmaReg n w)) _ 64 ?_ c ⟨⟨rfl, hw⟩, fun _ _ => rfl⟩
  exact fun v d hv h => ⟨h.1.setReg _ _, fun n w => (d.reg_setB_vector n w hv false).trans (h.2 n w)⟩

/-- A hot reset keeps the words of the DMA channels. -/
theorem hotResetWord_dmaReg {n w : Nat} (hn : n < 8) (hw : w < 16) : hotResetWord (dmaReg n w) = false := by
  have h1 : ¬ hst 0x80000 ≤ dmaReg n w := by simp only [dmaReg, hst]; omega
  have h2 : ¬ dmaReg n w < hst 0x80 := by simp only [dmaReg, hst]; omega
  have h3 : dmaReg n w ≠ hst 4 := by simp only [dmaReg, hst]; omega
  simp [hotResetWord, h1, h2, h3]

/-- A hot reset of a chip with a canonical register table: the words of the DMA channels are those of the stopped channels. -/
theorem Chip.endpointReset_dma (c : Chip) (hw : tabWf regReset c.regs = true) {n w : Nat} (hn : n < 8) (hw16 : w < 16) :
    c.endpointReset.reg (dmaReg n w) = c.dmaStopped.reg (dmaReg n w) := by
  obtain ⟨hcleared, hread⟩ := c.dmaStopped.vectorsCleared_dma (c.dmaStopped_dma hw hn).1.2
  rw [← hread n w, c.endpointReset_eq]
  generalize c.dmaStopped.vectorsCleared = d at *
  exact tabGet_filter regReset (fun o => !hotResetWord o) (dmaReg n w) (by rw [hotResetWord_dmaReg hn hw16]; rfl) _ hcleared.2

/-- A hot reset of a chip with a canonical register table leaves memory, pods and tick, and of the host interface changes the
configuration space alone. -/
theorem Chip.endpointReset_frame (c : Chip) (hw : tabWf regReset c.regs = true) :
    c.endpointReset.cells = c.cells ∧ c.endpointReset.pods = c.pods ∧ c.endpointReset.tick = c.tick ∧
      c.endpointReset.host = { c.host with pci := PciSpace.reset } := by
  have hstop := (c.dmaStopped_dma hw (show 0 < 8 by omega)).1
  have hclear := (c.dmaStopped.vectorsCleared_dma hstop.2).1
  rw [c.endpointReset_eq, hclear.1, hstop.1]
  exact ⟨rfl, rfl, rfl, rfl⟩

/-- What O58 says of a hot reset, where the register table is canonical, as `Regs.reset_wf` and `Chip.setReg_wf` say of reset and of
every write: running channels halt with CAUSE 3 at their next address, none stays busy, and beside registers only the configuration
space changes (R478). -/
theorem pcieHotReset_of_canonical (s : State) (hw : tabWf regReset s.chip.regs = true) :
    ∃ t, exec .pcieHotReset s = .next t ∧ (∀ a, t.chip.byteAt a = s.chip.byteAt a) ∧ t.chip.pods = s.chip.pods ∧
      t.chip.tick = s.chip.tick ∧ t.chip.host = { s.chip.host with pci := PciSpace.reset } ∧
      (∀ n : Fin 8, t.chip.dmaBusy n.val = false ∧ (s.chip.dmaBusy n.val = true → s.chip.DmaHalted n.val t.chip)) ∧
      t.husk = s.husk ∧ t.core = s.core := by
  have hnext : exec .pcieHotReset s = .next (s.withChip s.chip.endpointReset) := rfl
  obtain ⟨hcells, hpods, htick, hhost⟩ := s.chip.endpointReset_frame hw
  have hdma : ∀ n : Fin 8, s.chip.endpointReset.dmaBusy n.val = false ∧
      (s.chip.dmaBusy n.val = true → s.chip.DmaHalted n.val s.chip.endpointReset) := by
    intro n
    obtain ⟨-, hidle, hhalted⟩ := s.chip.dmaStopped_dma hw n.isLt
    unfold Chip.DmaHalted Chip.dmaBusy Chip.regB Chip.regF at *
    rw [s.chip.endpointReset_dma hw n.isLt (show 6 < 16 by omega), s.chip.endpointReset_dma hw n.isLt (show 7 < 16 by omega)]
    exact ⟨hidle, hhalted⟩
  -- The reset chip stays abstract: its frame and its channels are all that is used of it.
  generalize s.chip.endpointReset = d at *
  exact ⟨s.withChip d, hnext, fun a => congrArg (tabGet (fun _ => 0) · a) hcells, hpods, htick, hhost, hdma, rfl, rfl⟩

/-! ## The counterexample -/

/-- A state whose register table is out of order: a word of the MSI-X table stands before the status of DMA channel 0, so that the
read of the status, which ends at the first greater key, does not see its BUSY. -/
def hiddenBusy : State :=
  { State.reset with chip := { State.reset.chip with regs := [(hst 0x80000, 0xFEE00000#32), (dmaReg 0 6, 0x80000000#32)] } }

/-- The hot reset drops the word of the MSI-X table, and channel 0, idle before, reads as busy. -/
theorem hiddenBusy_hotReset : hiddenBusy.chip.quiet = true ∧ tabWf regReset hiddenBusy.chip.regs = false ∧
    hiddenBusy.chip.dmaBusy 0 = false ∧ hiddenBusy.chip.endpointReset.dmaBusy 0 = true := by decide

/-- Refutes O58: the statement is over every state, and in one whose register table is not canonical a hot reset can leave a DMA
channel busy. The reset state and every register write have a canonical table; `pcieHotReset_of_canonical` is the clause with the
premise it lacks. -/
theorem not_hostCommands : ¬ Obligations.HostCommands := by
  unfold Obligations.HostCommands
  intro h
  obtain ⟨hquiet, -, -, hbusy⟩ := hiddenBusy_hotReset
  obtain ⟨-, -, -, -, -, -, -, -, -, t, hnext, -, -, -, -, -, -, hidle, -, -⟩ := h hiddenBusy 0 hquiet
  have ht : hiddenBusy.withChip hiddenBusy.chip.endpointReset = t := Host.Outcome.next.inj hnext
  have hidle0 := (hidle 0).1
  rw [← ht] at hidle0
  exact Bool.false_ne_true (hidle0.symm.trans hbusy)

end Sys2Proof.Machine
end

section
/-!
The commands of the scheduler (O34): where the words of the SCH block lie in its map, what a write to each of them leaves, and the
shed levels that take effect at a tick.
-/
namespace Sys2Proof.Machine

/-! ## The rows of the SCH map -/

/-- A row assigns the words of its array. -/
theorem RegDesc.has_iff {d : RegDesc} (x : Nat) (hs : 0 < d.stride) :
    d.has x = true ↔ ∃ i, i < d.count ∧ x = d.off + d.stride * i := by
  simp only [RegDesc.has, Bool.and_eq_true, decide_eq_true_eq, beq_iff_eq]
  constructor
  · rintro ⟨⟨hoff, hmod⟩, hcount⟩
    have := Nat.mul_div_cancel' (Nat.dvd_of_mod_eq_zero hmod)
    exact ⟨_, hcount, by omega⟩
  · rintro ⟨i, hi, rfl⟩
    rw [Nat.add_sub_cancel_left, Nat.mul_mod_right, Nat.mul_div_cancel_left _ hs]
    exact ⟨⟨Nat.le_add_right _ _, rfl⟩, hi⟩

/-- The row of word `w` of the task descriptors (R112). -/
def taskRow (w : Nat) : RegDesc :=
  { off := 0x20000 + 4 * w, stride := 32, count := 4096, rw := [allBits, allBits, 0xDFFFF03F].getD w 0,
    w1c := 0, rc := 0, wo := 0, rst := 0 }

/-- The SCH map ends with the rows of the task descriptors. -/
theorem schMap_split : schMap = schMap.take 18 ++ (List.range 8).map taskRow := by decide

/-- The rows before those of the task descriptors lie below them. -/
theorem schMap_head_below : ∀ d ∈ schMap.take 18, 0 < d.stride ∧ d.off + d.stride * d.count ≤ 0x20000 := by decide

/-- Of the rows of the task descriptors, that of its word has an offset. -/
theorem taskRow_has {t w x : Nat} (ht : t < 4096) (hw : w < 8) (hx : x < 8) :
    (taskRow x).has (0x20000 + 32 * t + 4 * w) = decide (x = w) := by
  rw [Bool.eq_iff_iff, RegDesc.has_iff _ (show 0 < (taskRow x).stride from Nat.succ_pos 31), decide_eq_true_eq]
  simp only [taskRow]
  constructor
  · rintro ⟨i, -, hi⟩; omega
  · rintro rfl; exact ⟨t, ht, by omega⟩

/-- The word of a task descriptor has the row of its number. -/
theorem regDesc_taskReg {t w : Nat} (ht : t < 4096) (hw : w < 8) : regDesc (taskReg t w) = some (taskRow w) := by
  have hblock : taskReg t w / 0x100000 = 1 := by unfold taskReg; omega
  have hword : taskReg t w % 0x100000 = 0x20000 + 32 * t + 4 * w := by unfold taskReg; omega
  have hhead : (schMap.take 18).find? (·.has (0x20000 + 32 * t + 4 * w)) = none := by
    rw [List.find?_eq_none]
    intro d hd hhas
    obtain ⟨hs, hend⟩ := schMap_head_below d hd
    obtain ⟨i, hi, hx⟩ := (RegDesc.has_iff _ hs).mp hhas
    have := Nat.mul_lt_mul_of_pos_left hi hs
    omega
  have htail : (List.range 8).find? (fun x => (taskRow x).has (0x20000 + 32 * t + 4 * w)) = some w := by
    rw [List.find?_range_eq_some]
    refine ⟨?_, List.mem_range.mpr hw, fun j hj => ?_⟩
    · rw [taskRow_has ht hw hw, decide_eq_true rfl]
    · rw [taskRow_has ht hw (by omega), decide_eq_false (by omega)]; rfl
  rw [regDesc, hblock, hword, show blockMap 1 = schMap from rfl, schMap_split, List.find?_append, hhead, Option.none_or,
    List.find?_map]
  exact congrArg (Option.map taskRow) htail

/-- A row whose 32 bits are all plain takes the written word. -/
theorem RegDesc.write_allBits {d : RegDesc} (hrw : BitVec.ofNat 32 (d.rw ||| d.wo) = BitVec.allOnes 32) (hw1c : d.w1c = 0)
    (old v : W32) : d.write old v = v := by
  simp only [RegDesc.write, hrw, hw1c, BitVec.not_allOnes, BitVec.and_zero, BitVec.not_zero, BitVec.zero_or,
    BitVec.and_allOnes]

/-- The first two words of a task descriptor are plain. -/
theorem taskRow_plain : ∀ w, w < 2 → BitVec.ofNat 32 ((taskRow w).rw ||| (taskRow w).wo) = BitVec.allOnes 32 := by decide

/-- Words 0 and 1 of a task descriptor take the written word. -/
theorem Chip.mapWrite_taskReg (c : Chip) {t w : Nat} (v : W32) (ht : t < 4096) (hw : w < 2) :
    c.mapWrite (taskReg t w) v = c.setReg (taskReg t w) v := by
  simp only [Chip.mapWrite, regDesc_taskReg ht (show w < 8 by omega), RegDesc.write_allBits (taskRow_plain w hw) rfl]

/-- The ordered flows' words are assigned. -/
theorem regDesc_oflowReg_isSome : ∀ f : Fin 16, (regDesc (oflowReg f.val 0)).isSome = true := by decide

/-! ## Writes that leave no request -/

/-- A write by the map changes registers alone, so it leaves no request of its own. -/
theorem Chip.quiet_mapWrite (c : Chip) (off : Nat) (v : W32) : (c.mapWrite off v).quiet = c.quiet := by
  unfold Chip.mapWrite
  split <;> rfl

/-- A write to an assigned word of the SCH block that leaves no request is what the scheduler makes of it. -/
theorem State.regw_sch (s : State) (m : Master) {off x : Nat} {v : W32} {d : Chip} (hoff : off = 0x100000 + x) (hx : x < 0x100000)
    (hdesc : (regDesc off).isSome = true) (hd : s.chip.schWrite x v = d) (hq : d.quiet = true) :
    s.regw m off v = .next (s.withChip d) := by
  have hblock : off / 0x100000 = 1 := by omega
  have hword : off % 0x100000 = x := by omega
  have hwrite : s.chip.blockWrite off v = d := by simp only [Chip.blockWrite, hblock, hword, hd]
  have hnone : (regDesc off).isNone = false := Option.isNone_eq_false_iff.mpr hdesc
  rw [← hwrite] at hq ⊢
  exact s.regw_open m off v (by omega) (by omega) hnone (by omega) hq

/-! ## Task descriptors (R112) -/

/-- A write to a word of a task descriptor is the scheduler's write to it. -/
theorem exec_schTaskWrite (s : State) (m : Master) (t : BitVec 12) (w : Fin 8) (v : W32) {d : Chip}
    (hd : s.chip.taskWrite t.toNat w.val v = d) (hq : d.quiet = true) :
    exec (.schTaskWrite m t w v) s = .next (s.withChip d) := by
  have ht := t.isLt
  have hw := w.isLt
  refine s.regw_sch m (x := 0x20000 + 32 * t.toNat + 4 * w.val) (by unfold taskReg; omega) (by omega)
    (by rw [regDesc_taskReg ht hw]; rfl) ?_ hq
  rw [Chip.schWrite, if_neg (by omega), if_neg (by omega), if_neg (by omega), if_neg (by omega), if_pos (by omega), ← hd]
  congr 1 <;> omega

/-- Outside CONFIG the descriptor of a tick-bound task ignores a write, with CFG_IGN. -/
theorem Chip.taskWrite_ignored (c : Chip) {t : Nat} (w : Nat) (v : W32) (ht : c.isTb t = true) (hc : c.inConfig = false) :
    c.taskWrite t w v = c.setB 0x100000 3 true := by
  rw [Chip.taskWrite, ht, hc]; rfl

/-- Elsewhere the scheduler takes words 0 and 1 as written. -/
theorem Chip.taskWrite_plain (c : Chip) {t w : Nat} (v : W32) (ht : t < 4096) (hw : w < 2)
    (hopen : c.isTb t = false ∨ c.inConfig = true) : c.taskWrite t w v = c.setReg (taskReg t w) v := by
  have h : (c.isTb t && !c.inConfig) = false := by obtain h | h := hopen <;> simp [h]
  rw [Chip.taskWrite, if_neg (by simp [h]), if_neg (by omega), if_pos hw, c.mapWrite_taskReg v ht hw]

/-- The words after word 2 are not written. -/
theorem Chip.taskWrite_readOnly (c : Chip) {t w : Nat} (v : W32) (ht : c.isTb t = false) (hw : 2 < w) : c.taskWrite t w v = c := by
  rw [Chip.taskWrite, if_neg (by simp [ht]), if_pos hw]

/-- Word 2 of a task without sprouts, with a legal flow and EN 1, is written by the map. -/
theorem Chip.taskWrite_control (c : Chip) {t : Nat} {v : W32} (ht : c.isTb t = false) (hflow : fld v 28 27 ≠ 3)
    (hout : c.outOf t = 0) (hen : bit v 31 = true) : c.taskWrite t 2 v = c.mapWrite (taskReg t 2) v := by
  simp [Chip.taskWrite, ht, hflow, hout, hen]

/-! ## Ordered flows (R501) -/

/-- A flow that is enabled with a valid ring starts it empty. -/
theorem Chip.oflowWrite_enable (c : Chip) {f : Nat} {v : W32} (hoff : c.regB (oflowReg f 0) 31 = false) (hen : bit v 31 = true)
    (hring : ringValid v (c.reg (oflowReg f 1)) = true) :
    c.oflowWrite f 0 v = (((c.mapWrite (oflowReg f 0) v).setReg (oflowReg f 3) 0).setReg (oflowStat f) 0).modSched fun x =>
      { x with nextSeq := tabPut (fun _ => 0) x.nextSeq f 0 } := by
  have hoff' : bit (c.reg (oflowReg f 0)) 31 = false := hoff
  simp [Chip.oflowWrite, hoff', hen, hring]

/-- A write to word 0 of an ordered flow is the scheduler's write to it. -/
theorem exec_schOflowWrite (s : State) (m : Master) (f : Fin 16) (v : W32) {d : Chip} (hd : s.chip.oflowWrite f.val 0 v = d)
    (hq : d.quiet = true) : exec (.schOflowWrite m f 0 v) s = .next (s.withChip d) := by
  have hf := f.isLt
  refine s.regw_sch m (off := oflowReg f.val 0) (x := 0x8000 + 16 * f.val) (by unfold oflowReg; omega) (by omega)
    (regDesc_oflowReg_isSome f) ?_ hq
  rw [Chip.schWrite, if_neg (by omega), if_neg (by omega), if_neg (by omega), if_pos (by omega), ← hd]
  congr 1 <;> omega

/-! ## POST and CANCEL of the host (R126) -/

/-- A host POST is the scheduler's. -/
theorem exec_schHpost (s : State) (m : Master) (v : W32) {d : Chip} (hd : s.chip.hostPost v = d) (hq : d.quiet = true) :
    exec (.schHpost m v) s = .next (s.withChip d) :=
  s.regw_sch m (x := 0x0C) rfl (by omega) (by decide) hd hq

/-- A host CANCEL is the scheduler's. -/
theorem exec_schHcancel (s : State) (m : Master) (v : W32) {d : Chip} (hd : s.chip.hostCancel v = d) (hq : d.quiet = true) :
    exec (.schHcancel m v) s = .next (s.withChip d) :=
  s.regw_sch m (x := 0x10) rfl (by omega) (by decide) hd hq

/-- The host posts to a task that is not tick-bound. -/
theorem Chip.hostPost_task (c : Chip) {v : W32} (h : c.isTb (fld v 11 0) = false) :
    c.hostPost v = c.modSched fun x => { x with arrivals := x.arrivals ++ [.post (fld v 11 0) (c.reg 0x100008)] } := by
  simp only [Chip.hostPost, h, Bool.false_eq_true, if_false]; rfl

/-- A POST to a tick-bound task is discarded, and says so. -/
theorem Chip.hostPost_tickBound (c : Chip) {v : W32} (h : c.isTb (fld v 11 0) = true) : c.hostPost v = c.setB 0x100000 4 true := by
  simp only [Chip.hostPost, h, if_true]; rfl

/-- The host cancels a task that is not tick-bound. -/
theorem Chip.hostCancel_task (c : Chip) {v : W32} (h : c.isTb (fld v 11 0) = false) :
    c.hostCancel v = c.modSched fun x => { x with cancels := x.cancels ++ [(fld v 11 0, c.reg 0x100008)] } := by
  simp only [Chip.hostCancel, h, Bool.false_eq_true, if_false]

/-! ## The plan (R129) -/

/-- The scheduler's word at 0x28 is the plan's control word. -/
theorem Chip.schWrite_planCtrl (c : Chip) (v : W32) : c.schWrite 0x28 v = c.planCtrl v := by
  rw [Chip.schWrite, if_neg (by omega), if_neg (by omega), if_pos rfl]

/-- PLAN_LOAD sets LOAD in the word that it writes. -/
theorem exec_planLoad (s : State) (m : Master) (v : W32) {d : Chip} (hd : s.chip.planCtrl (setBit v 0 true) = d)
    (hq : d.quiet = true) : exec (.planLoad m v) s = .next (s.withChip d) :=
  s.regw_sch m (x := 0x28) rfl (by omega) (by decide) ((s.chip.schWrite_planCtrl _).trans hd) hq

/-- Outside CONFIG no plan is loaded (FAIL_KIND 6). -/
theorem Chip.planCtrl_refused (c : Chip) (v : W32) (h : c.inConfig = false) :
    c.planCtrl (setBit v 0 true) = c.setF 0x10002C 7 0 6 := by
  simp only [Chip.planCtrl, bit_setBit v true (show 0 < 32 by omega), h, Bool.not_true, Bool.not_false, Bool.false_eq_true, if_false,
    if_true, Chip.setFailKind]

/-- In CONFIG a plan that passes every check comes into force. -/
theorem Chip.planCtrl_loaded (c : Chip) (v : W32) (h : c.inConfig = true)
    (hcheck : c.planCheck (c.pair 0x100020 % 2 ^ 40) true = 0) :
    c.planCtrl (setBit v 0 true) = c.planApply (c.pair 0x100020 % 2 ^ 40) := by
  simp only [Chip.planCtrl, bit_setBit v true (show 0 < 32 by omega), h, Bool.not_true, Bool.false_eq_true, if_false,
    Chip.planLoad, hcheck, if_true]

/-! ## Shed levels (R436, R440) -/

/-- A level that differs is set with event 434. -/
theorem Chip.setLevel_new (c : Chip) {l : Nat} (h : l ≠ c.shedLevel) :
    c.setLevel l = ((c.setF 0x10002C 27 24 l).reshed).fire 434 := by
  simp only [Chip.setLevel, bne_iff_ne.mpr h, if_true]

/-- The one committed level of this tick takes effect. -/
theorem Chip.shedCommitApply_one (c : Chip) {l : Nat} (ht : c.ticking = true) (hl : l ≠ c.shedLevel)
    (hshed : c.hlt.shed = [(l, c.tick)]) :
    c.shedCommitApply = (((c.modHlt fun h => { h with shed := [] }).setF 0x10002C 27 24 l).reshed).fire 434 := by
  have hmod : (c.modHlt fun h => { h with shed := h.shed.filter fun e => e.2 != c.tick }) =
      c.modHlt fun h => { h with shed := [] } := by
    simp [Chip.modHlt, hshed]
  have hdue : (c.hlt.shed.filter fun e => e.2 == c.tick) = [(l, c.tick)] := by simp [hshed]
  rw [Chip.shedCommitApply, ht, hmod, hdue]
  exact Chip.setLevel_new _ hl

/-- A decided level that keeps the pods' clock step takes effect in a module that is not paired. -/
theorem Chip.shedApply_level (c : Chip) {k l : Nat} (ht : c.ticking = true) (hl : l ≠ c.shedLevel)
    (hchange : c.hlt.change = some (k, l)) (hpaired : c.paired = false) (h16 : c.tick % 16 = 0) (hk : k = c.podStep)
    (hfits : (c.modHlt fun h => { h with change := none }).fitsAt l k = true) :
    c.shedApply =
      ((((c.modHlt fun h => { h with change := none }).setF 0x110 11 8 k).setF 0x10002C 27 24 l).reshed).fire 434 := by
  have hstep : (k != (c.modHlt fun h => { h with change := none }).podStep) = false := bne_eq_false_iff_eq.mpr hk
  have hlevel : (l != (c.modHlt fun h => { h with change := none }).shedLevel) = true := bne_iff_ne.mpr hl
  simp only [Chip.shedApply, hchange, ht, h16, hpaired, hfits, hstep, hlevel, bne_self_eq_false, Bool.not_true, Bool.or_self,
    Bool.false_eq_true, if_false, if_true]

/-- A committed level is applied at once where no joiner replays. -/
theorem exec_shedCommitApply (s : State) (h : s.chip.twin.replay = none) :
    exec .shedCommitApply s = .next (s.withChip s.chip.shedCommitApply) := by
  change s.onChip (if s.chip.twin.replay.isSome then s.chip else s.chip.shedCommitApply) = _
  rw [h]
  rfl

/-- A decided level is applied to the chip. -/
theorem exec_shedLevelApply (s : State) : exec .shedLevelApply s = .next (s.withChip s.chip.shedApply) := rfl

/-! ## The cycle (R115) -/

/-- Where no joiner replays, a cycle is done on the chip as it stands. -/
theorem exec_schedulerCycle (s : State) (h : s.chip.twin.replay = none) :
    exec .schedulerCycle s = .next (s.withChip (s.chip.schedCycle false)) := by
  change s.onChip (s.chip.inWork fun c => c.schedCycle false) = _
  rw [s.chip.inWork_live _ h]
  rfl

/-- Settles O34: each command is the scheduler's own operation, with the effect that its case gives. -/
theorem schedulerCommands : Obligations.SchedulerCommands := by
  unfold Obligations.SchedulerCommands
  intro s m hq hreplay
  refine ⟨exec_schedulerCycle s hreplay, ?word01, ?tickBound, ?readOnly, ?control, ?flow, ?hostTask, ?hostTickBound, ?plan,
    ?planRefused, ?shed⟩
  case word01 =>
    exact fun t v hopen => ⟨exec_schTaskWrite s m t 0 v (s.chip.taskWrite_plain v t.isLt (by decide) hopen) hq,
      exec_schTaskWrite s m t 1 v (s.chip.taskWrite_plain v t.isLt (by decide) hopen) hq⟩
  case tickBound => exact fun t v ht hc w => exec_schTaskWrite s m t w v (s.chip.taskWrite_ignored w.val v ht hc) hq
  case readOnly => exact fun t w v ht => exec_schTaskWrite s m t _ v (s.chip.taskWrite_readOnly v ht (by dsimp only; omega)) hq
  case control =>
    exact fun t v ht hflow hout hen =>
      exec_schTaskWrite s m t 2 v (s.chip.taskWrite_control ht hflow hout hen) ((s.chip.quiet_mapWrite _ _).trans hq)
  case flow =>
    exact fun f v hoff hen hring =>
      exec_schOflowWrite s m f v (s.chip.oflowWrite_enable hoff hen hring) ((s.chip.quiet_mapWrite _ _).trans hq)
  case hostTask =>
    exact fun v h => ⟨exec_schHpost s m v (s.chip.hostPost_task h) hq, exec_schHcancel s m v (s.chip.hostCancel_task h) hq⟩
  case hostTickBound => exact fun v h => exec_schHpost s m v (s.chip.hostPost_tickBound h) hq
  case plan => exact fun v hc hcheck hquiet => exec_planLoad s m v (s.chip.planCtrl_loaded v hc hcheck) hquiet
  case planRefused => exact fun v hc => exec_planLoad s m v (s.chip.planCtrl_refused v hc) hq
  case shed =>
    intro k l ht hl
    refine ⟨fun hshed => ?_, fun hchange hpaired h16 hk hfits => ?_⟩
    · rw [exec_shedCommitApply s hreplay, s.chip.shedCommitApply_one ht hl hshed]
    · rw [exec_shedLevelApply, s.chip.shedApply_level ht hl hchange hpaired h16 hk hfits]

end Sys2Proof.Machine
end

section
/-!
The commands of the feedback unit (O35). A quadrature error writes its channel twice, the levels and then the error; one write in place
of both leaves the same table where the channels' table is canonical, as it is from reset on, and not in every state the type has.
-/
namespace Sys2Proof.Machine

/-! ## Two writes of one key -/

/-- A canonical table above a key has no entry to drop up to that key. -/
theorem tabAfter_wf {α : Type} [DecidableEq α] (d : Nat → α) {k : Nat} {t : Tab α} (hw : tabWfAbove d (k + 1) t = true) :
    tabAfter t k = t := by
  cases t with
  | nil => rfl
  | cons e t =>
    simp only [tabWfAbove, Bool.and_eq_true, decide_eq_true_eq] at hw
    obtain ⟨⟨hk, -⟩, -⟩ := hw
    rw [tabAfter, if_neg (by omega)]

/-- In a table that is canonical above its key, a written entry stands first. -/
theorem tabPut_below {α : Type} [DecidableEq α] (d : Nat → α) {k : Nat} (v : α) {t : Tab α} (hw : tabWfAbove d (k + 1) t = true) :
    tabPut d t k v = if v = d k then t else (k, v) :: t := by
  cases t with
  | nil => rfl
  | cons e t =>
    simp only [tabWfAbove, Bool.and_eq_true, decide_eq_true_eq] at hw
    obtain ⟨⟨hk, -⟩, -⟩ := hw
    rw [tabPut, if_pos (by omega)]

/-- In a canonical table the last of two writes of a key is all that stays. -/
theorem tabPut_twice {α : Type} [DecidableEq α] (d : Nat → α) (k : Nat) (v w : α) (t : Tab α) (hw : tabWf d t = true) :
    tabPut d (tabPut d t k v) k w = tabPut d t k w := by
  suffices h : ∀ lo, tabWfAbove d lo t = true → tabPut d (tabPut d t k v) k w = tabPut d t k w from h 0 hw
  clear hw
  induction t with
  | nil => intro _ _; by_cases hv : v = d k <;> simp [tabPut, tabAfter, hv]
  | cons e t ih =>
    obtain ⟨k', v'⟩ := e
    intro lo hw
    simp only [tabWfAbove, Bool.and_eq_true, decide_eq_true_eq] at hw
    obtain ⟨-, ht⟩ := hw
    obtain hlt | rfl | hgt := Nat.lt_trichotomy k k'
    · have hle : ¬ k' ≤ k := by omega
      by_cases hv : v = d k <;> simp [tabPut, tabAfter, hlt, hle, hv]
    · by_cases hv : v = d k
      · simp [tabPut, tabAfter_wf d ht, tabPut_below d w ht, hv]
      · simp [tabPut, hv]
    · have hlt : ¬ k < k' := by omega
      have hne : k ≠ k' := by omega
      simp [tabPut, hlt, hne, ih _ ht]

/-! ## Local channels -/

/-- A written channel reads back. -/
@[simp] theorem Chip.lch_setLch (c : Chip) (n : Nat) (l : Lch) : (c.setLch n l).lch n = l := tabGet_put_self _ _ _ _

/-- A write of a channel keeps the canonical form of the channels' table. -/
theorem Chip.setLch_wf (c : Chip) (n : Nat) (l : Lch) (h : tabWf (fun _ => Lch.zero) c.fbk.lch = true) :
    tabWf (fun _ => Lch.zero) (c.setLch n l).fbk.lch = true := tabPut_wf _ _ _ _ h

/-- The channels' table of the machine right after reset is canonical. -/
theorem Lch.reset_wf : tabWf (fun _ => Lch.zero) State.reset.chip.fbk.lch = true := rfl

/-- In a canonical table the last of two writes of a channel is all that stays. -/
theorem Chip.setLch_twice (c : Chip) (n : Nat) (l l' : Lch) (h : tabWf (fun _ => Lch.zero) c.fbk.lch = true) :
    (c.setLch n l).setLch n l' = c.setLch n l' := by
  simp only [Chip.setLch, Chip.modFbk, tabPut_twice _ _ _ _ _ h]

/-- A and B that both change move the quadrature phase by two, whichever of them leads. -/
theorem quadPhase_both {a b x y : Bool} (ha : a ≠ x) (hb : b ≠ y) : (quadPhase a b + 4 - quadPhase x y) % 4 = 2 := by
  unfold quadPhase
  generalize Config.aLeads = leads
  revert a b x y leads
  decide

/-- Both levels changing at once on a quadrature channel are taken, and are an error of R140. -/
theorem Chip.lchCountEdge_both (c : Chip) (n : Nat) {a b : Bool} (hen : c.regB (lchReg n 0) 31 = true) (hmode : c.lchMode n ≠ 1)
    (ha : a ≠ (c.lch n).a) (hb : b ≠ (c.lch n).b) :
    c.lchCountEdge n a b = (c.setLch n { c.lch n with a := a, b := b }).lchError n := by
  have hen' : (c.setLch n { c.lch n with a := a, b := b }).regB (lchReg n 0) 31 = true := hen
  have hmode' : ((c.setLch n { c.lch n with a := a, b := b }).lchMode n == 1) = false := beq_eq_false_iff_ne.mpr hmode
  simp [Chip.lchCountEdge, quadPhase_both ha hb, hen', hmode']

/-- What an error does, whichever sample it corrupts. -/
theorem Chip.lchError_eq (c : Chip) (n : Nat) : c.lchError n =
    (c.setLch n { c.lch n with errTick := (c.lch n).errTick || c.lchLate n, errNow := (c.lch n).errNow || !c.lchLate n }).addSat
      (lchReg n 3) 31 16 1 := by
  unfold Chip.lchError
  cases c.lchLate n <;> simp

/-- What O35 says of a quadrature error, where the channels' table is canonical, as `Lch.reset_wf` and `Chip.setLch_wf` say of reset and
of every write: the levels are taken, the sample is corrupted and QERR counts (R140). -/
theorem lchCountEdge_error_of_canonical (s : State) (n : Fin 16) (a b : Bool)
    (hw : tabWf (fun _ => Lch.zero) s.chip.fbk.lch = true) (hen : s.chip.regB (lchReg n.val 0) 31 = true)
    (hmode : s.chip.lchMode n.val ≠ 1) (ha : a ≠ (s.chip.lch n.val).a) (hb : b ≠ (s.chip.lch n.val).b) :
    exec (.lchCountEdge n a b) s = .next (s.withChip ((s.chip.setLch n.val { s.chip.lch n.val with
      a := a, b := b, errTick := (s.chip.lch n.val).errTick || s.chip.lchLate n.val,
      errNow := (s.chip.lch n.val).errNow || !s.chip.lchLate n.val }).addSat (lchReg n.val 3) 31 16 1)) := by
  have hexec : exec (.lchCountEdge n a b) s = .next (s.withChip (s.chip.lchCountEdge n.val a b)) := rfl
  have hlate : ∀ l, (s.chip.setLch n.val l).lchLate n.val = s.chip.lchLate n.val := fun _ => rfl
  rw [hexec, s.chip.lchCountEdge_both n.val hen hmode ha hb, Chip.lchError_eq, s.chip.setLch_twice _ _ _ hw, Chip.lch_setLch, hlate]

/-! ## The counterexample -/

/-- An enabled quadrature channel 0 whose levels are both high, with the entries that follow its own in the channels' table. -/
def levelsHigh (rest : Tab Lch) : State :=
  { State.reset with chip := { State.reset.chip with
      regs := [(lchReg 0 0, 0x80000000#32)]
      fbk := { State.reset.chip.fbk with lch := (0, { Lch.zero with a := true, b := true }) :: rest } } }

/-- Channel 0 is listed a second time. -/
def listedTwice : State := levelsHigh [(0, { Lch.zero with a := true })]

/-- Alone in the table, the channel meets the premises of `lchCountEdge_error_of_canonical`; listed twice, all but the first. -/
theorem levelsHigh_premises : tabWf (fun _ => Lch.zero) (levelsHigh []).chip.fbk.lch = true ∧
    tabWf (fun _ => Lch.zero) listedTwice.chip.fbk.lch = false ∧
    ∀ s ∈ [levelsHigh [], listedTwice], s.chip.quiet = true ∧ s.chip.regB (lchReg 0 0) 31 = true ∧ s.chip.lchMode 0 ≠ 1 ∧
      false ≠ (s.chip.lch 0).a ∧ false ≠ (s.chip.lch 0).b := by decide

/-- The levels, once both low, are the default, so their write drops both entries of the channel, and the error's write puts one
back; the error written at once would keep the second. -/
theorem listedTwice_error :
    ((listedTwice.chip.setLch 0 { listedTwice.chip.lch 0 with a := false, b := false }).lchError 0).fbk.lch =
      [(0, { Lch.zero with errNow := true })] ∧
    (listedTwice.chip.setLch 0 { Lch.zero with errNow := true }).fbk.lch =
      [(0, { Lch.zero with errNow := true }), (0, { Lch.zero with a := true })] := by decide

/-- Refutes O35: the statement is over every state, and in one whose channels' table is not canonical a quadrature error drops an entry
that the stated single write keeps. The reset state and every write of a channel have a canonical table;
`lchCountEdge_error_of_canonical` is the clause with the premise it lacks. -/
theorem not_feedbackCommands : ¬ Obligations.FeedbackCommands := by
  unfold Obligations.FeedbackCommands
  intro h
  obtain ⟨-, -, hpremises⟩ := levelsHigh_premises
  obtain ⟨hquiet, hen, hmode, ha, hb⟩ := hpremises listedTwice (by simp)
  obtain ⟨-, -, -, -, -, -, -, -, -, hedge, -⟩ := h listedTwice 0 hquiet
  obtain ⟨-, -, herror⟩ := hedge 0 false false hen hmode
  have hnext : exec (.lchCountEdge 0 false false) listedTwice =
      .next (listedTwice.withChip (listedTwice.chip.lchCountEdge 0 false false)) := rfl
  have hstates := Host.Outcome.next.inj (hnext.symm.trans (herror ha hb))
  have htable : (listedTwice.chip.lchCountEdge 0 false false).fbk.lch =
      [(0, { Lch.zero with errNow := true }), (0, { Lch.zero with a := true })] :=
    (congrArg (fun t => t.chip.fbk.lch) hstates).trans listedTwice_error.2
  rw [listedTwice.chip.lchCountEdge_both 0 hen hmode ha hb, listedTwice_error.1] at htable
  exact absurd htable (by decide)

end Sys2Proof.Machine
end

section
/-!
The requests and writes of the loop engine (O36): where the words of the LPE block lie in its map, which part of the engine a write to
each of them reaches, and what that part makes of it.
-/
namespace Sys2Proof.Machine

/-! ## The words of the LPE block (R187) -/

/-- The LPE map assigns an array of words: `count` of them from `off` on, `stride` apart. -/
def LpeArray (off stride count : Nat) : Prop := ∃ d ∈ lpeMap, d.off = off ∧ d.stride = stride ∧ d.count = count

/-- The swap and the switch register are assigned. -/
theorem LpeArray.requests : LpeArray 8 4 1 ∧ LpeArray 12 4 1 := by unfold LpeArray; decide

/-- The words of the slots are assigned. -/
theorem LpeArray.slot : ∀ w : Fin 16, LpeArray (0x10000 + 4 * w.val) 64 1024 := by unfold LpeArray; decide

/-- The words of the section states are assigned. -/
theorem LpeArray.state : LpeArray 0x20000 4 16384 := by unfold LpeArray; decide

/-- The words of the transform units are assigned. -/
theorem LpeArray.xf : ∀ w : Fin 8, LpeArray (0x30000 + 4 * w.val) 32 128 := by unfold LpeArray; decide

/-- The words of the mode sets are assigned. -/
theorem LpeArray.mset : ∀ w : Fin 8, LpeArray (0x31000 + 4 * w.val) 32 128 := by unfold LpeArray; decide

/-- The words of the coefficient banks are assigned. -/
theorem LpeArray.bank : ∀ w : Fin 64, LpeArray (0x80000 + 4 * w.val) 256 2048 := by unfold LpeArray; decide

/-- The rows of the LPE map end within its block. -/
theorem lpeMap_within_block : ∀ d ∈ lpeMap, 0 < d.stride ∧ d.off + d.stride * (d.count - 1) < 0x100000 := by decide

/-- A write to word `i` of an array of the LPE block that leaves no request is what the loop engine makes of it. -/
theorem State.regw_lpe (s : State) (m : Master) {off x base stride count i : Nat} {v : W32} {d : Chip}
    (ha : LpeArray base stride count) (hi : i < count) (hx : x = base + stride * i) (hoff : off = 0x200000 + x)
    (hd : s.chip.lpeWrite x v = d) (hq : d.quiet = true) : s.regw m off v = .next (s.withChip d) := by
  obtain ⟨row, hrow, rfl, rfl, rfl⟩ := ha
  obtain ⟨hstride, hend⟩ := lpeMap_within_block row hrow
  have hle : row.stride * i ≤ row.stride * (row.count - 1) := Nat.mul_le_mul_left _ (by omega)
  have hblock : off / 0x100000 = 2 := by omega
  have hword : off % 0x100000 = x := by omega
  have hdesc : (regDesc off).isNone = false := by
    rw [Option.isNone_eq_false_iff, regDesc, hblock, hword, List.find?_isSome]
    exact ⟨row, hrow, (RegDesc.has_iff x hstride).mpr ⟨i, hi, hx⟩⟩
  have hwrite : s.chip.blockWrite off v = d := by simp only [Chip.blockWrite, hblock, hword, hd]
  rw [← hwrite] at hq ⊢
  exact s.regw_open m off v (by omega) (by omega) hdesc (by omega) hq

/-! ## Swap and switch requests (R176, R177, R180) -/

/-- A bit written above a field leaves the field. -/
theorem fld_setBit_above (w : W32) {hi lo i : Nat} (b : Bool) (h : hi < i) (hi32 : i < 32) :
    fld (setBit w i b) hi lo = fld w hi lo := by
  refine Nat.eq_of_testBit_eq fun k => ?_
  simp only [fld, bitsOf, Nat.testBit_mod_two_pow, Nat.testBit_shiftRight]
  by_cases hk : k < hi + 1 - lo
  · have hbit := bit_setFld w (hi := i) (lo := i) (v := b.toNat) (show lo + k < 32 by omega)
    rw [if_neg (by omega)] at hbit
    exact congrArg (decide (k < hi + 1 - lo) && ·) hbit
  · simp only [hk, decide_false, Bool.false_and]

/-- A write with GRP 0 asks for the swap of one slot. -/
theorem Chip.swapWrite_slot (c : Chip) (v : W32) : c.swapWrite (setBit v 31 false) = c.swapSlot v := by
  simp only [Chip.swapWrite, bit_setBit v false (show 31 < 32 by omega), Bool.false_eq_true, if_false, Chip.swapSlot,
    fld_setBit_above v false (show 9 < 31 by omega) (by omega)]

/-- A write with GRP 1 asks for the swap of a group. -/
theorem Chip.swapWrite_group (c : Chip) (v : W32) : c.swapWrite (setBit v 31 true) = c.swapGroup v := by
  simp only [Chip.swapWrite, bit_setBit v true (show 31 < 32 by omega), if_true, Chip.swapGroup,
    fld_setBit_above v true (show 5 < 31 by omega) (by omega)]

/-- A swap of one slot is the engine's. -/
theorem exec_lpeSwapSlot (s : State) (m : Master) (v : W32) {d : Chip} (hd : s.chip.swapSlot v = d) (hq : d.quiet = true) :
    exec (.lpeSwapSlot m v) s = .next (s.withChip d) :=
  s.regw_lpe m (i := 0) LpeArray.requests.1 (by omega) rfl rfl ((s.chip.swapWrite_slot v).trans hd) hq

/-- A swap of a group is the engine's. -/
theorem exec_lpeSwapGroup (s : State) (m : Master) (v : W32) {d : Chip} (hd : s.chip.swapGroup v = d) (hq : d.quiet = true) :
    exec (.lpeSwapGroup m v) s = .next (s.withChip d) :=
  s.regw_lpe m (i := 0) LpeArray.requests.1 (by omega) rfl rfl ((s.chip.swapWrite_group v).trans hd) hq

/-- A switch request waits for the next loop phase. -/
theorem exec_lpeMsw (s : State) (m : Master) (v : W32) (hq : s.chip.quiet = true) :
    exec (.lpeMsw m v) s = .next (s.withChip (s.chip.modLpe fun l => { l with switches := l.switches ++ [v] })) :=
  s.regw_lpe m (i := 0) LpeArray.requests.2 (by omega) rfl rfl rfl hq

/-- A slot that no swap waits for is marked, and its swap waits. -/
theorem Chip.swapSlot_marks (c : Chip) {v : W32} (h : c.slotSwp (fld v 9 0) = false) :
    c.swapSlot v =
      (c.setB (slotReg (fld v 9 0) 8) 30 true).modLpe fun l => { l with swaps := l.swaps ++ [(false, [fld v 9 0])] } := by
  simp only [Chip.swapSlot, h, Bool.false_eq_true, if_false]

/-- The swap of a slot that a swap waits for already is ignored. -/
theorem Chip.swapSlot_ignored (c : Chip) {v : W32} (h : c.slotSwp (fld v 9 0) = true) : c.swapSlot v = c.lpeIgn := by
  simp only [Chip.swapSlot, h, if_true]

/-- The enabled members of a loop group (R177). -/
def Chip.groupSlots (c : Chip) (g : Nat) : List Nat :=
  (c.slotKeys.filter c.slotEn).filter fun k => c.regB (slotReg k 7) 23 && c.regF (slotReg k 7) 21 16 == g

/-- A group none of whose members a swap waits for is marked as a whole, and its swap waits. -/
theorem Chip.swapGroup_marks (c : Chip) {v : W32} (h : ∀ k, k ∈ c.groupSlots (fld v 5 0) → c.slotSwp k = false) :
    c.swapGroup v = (forL (c.groupSlots (fld v 5 0)) (fun k c => c.setB (slotReg k 8) 30 true) c).modLpe fun l =>
      { l with swaps := l.swaps ++ [(true, c.groupSlots (fld v 5 0))] } := by
  have hfree : (c.groupSlots (fld v 5 0)).any c.slotSwp = false := by simpa only [List.any_eq_false, Bool.not_eq_true] using h
  exact if_neg (Bool.eq_false_iff.mp hfree)

/-- The marks of a swap leave no request. -/
theorem Chip.quiet_swapMarks (c : Chip) (l : List Nat) :
    (forL l (fun k c => c.setB (slotReg k 8) 30 true) c).quiet = c.quiet :=
  forL_keeps (fun d : Chip => d.quiet = c.quiet) l (fun k c => c.setB (slotReg k 8) 30 true) (fun _ _ h => h) c rfl

/-! ## Loop slots and section states (R185) -/

/-- A write to a word of a slot is the engine's. -/
theorem exec_lpeSlotWrite (s : State) (m : Master) (k : Fin 1024) (w : Fin 16) (v : W32) {d : Chip}
    (hd : s.chip.slotWrite k.val w.val v = d) (hq : d.quiet = true) :
    exec (.lpeSlotWrite m k false w v) s = .next (s.withChip d) := by
  refine s.regw_lpe m (off := slotReg k.val w.val) (x := 0x10000 + 64 * k.val + 4 * w.val) (LpeArray.slot w) k.isLt (by omega)
    (by unfold slotReg; omega) ?_ hq
  rw [Chip.lpeWrite, if_neg (by omega), if_neg (by omega), if_pos (by omega), ← hd]
  congr 1 <;> omega

/-- A write to a section state is the engine's. -/
theorem exec_lpeStateWrite (s : State) (m : Master) (k : Fin 1024) (w : Fin 16) (v : W32) {d : Chip}
    (hd : s.chip.stateWrite k.val w.val v = d) (hq : d.quiet = true) :
    exec (.lpeSlotWrite m k true w v) s = .next (s.withChip d) := by
  refine s.regw_lpe m (off := stateReg k.val w.val) (x := 0x20000 + 64 * k.val + 4 * w.val) (i := 16 * k.val + w.val)
    LpeArray.state (by omega) (by omega) (by unfold stateReg; omega) ?_ hq
  rw [Chip.lpeWrite, if_neg (by omega), if_neg (by omega), if_neg (by omega), if_pos (by omega), ← hd]
  congr 1 <;> omega

/-- In CONFIG, or where the unit is idle, the lock on a unit in use is open. -/
theorem Chip.lock_open (c : Chip) {use : Bool} (h : c.inConfig = true ∨ use = false) : (!c.inConfig && use) = false := by
  obtain h | h := h <;> simp [h]

/-- Words 1 to 7 of a slot are written by the map, in CONFIG or while the slot is disabled. -/
theorem Chip.slotWrite_config (c : Chip) {k w : Nat} (v : W32) (hw : 0 < w) (hw8 : w < 8)
    (h : c.inConfig = true ∨ c.slotEn k = false) : c.slotWrite k w v = c.mapWrite (slotReg k w) v := by
  simp only [Chip.slotWrite, if_neg (Nat.ne_of_gt hw), if_pos hw8, c.lock_open h, Bool.false_eq_true, if_false]

/-- A section state is written in CONFIG, or while its slot does not run. -/
theorem Chip.stateWrite_open (c : Chip) {k : Nat} (w : Nat) (v : W32) (h : c.inConfig = true ∨ c.slotRuns k = false) :
    c.stateWrite k w v = c.setReg (stateReg k w) v := by
  simp only [Chip.stateWrite, c.lock_open h, Bool.false_eq_true, if_false]

/-! ## Coefficient banks (R175) -/

/-- A write to a word of a coefficient bank is the engine's. -/
theorem exec_lpeBankWrite (s : State) (m : Master) (k : Fin 1024) (b : Fin 2) (w : Fin 64) (v : W32) {d : Chip}
    (hd : s.chip.bankWrite k.val b.val w.val v = d) (hq : d.quiet = true) :
    exec (.lpeBankWrite m k b w v) s = .next (s.withChip d) := by
  refine s.regw_lpe m (off := bankReg k.val b.val w.val) (x := 0x80000 + 512 * k.val + 256 * b.val + 4 * w.val)
    (i := 2 * k.val + b.val) (LpeArray.bank w) (by omega) (by omega) (by unfold bankReg; omega) ?_ hq
  rw [Chip.lpeWrite, if_neg (by omega), if_neg (by omega), if_neg (by omega), if_neg (by omega), if_neg (by omega),
    if_neg (by omega), if_pos (by omega), ← hd]
  congr 1 <;> omega

/-- A coefficient is written in CONFIG, or into the idle bank of a slot that no swap waits for. -/
theorem Chip.bankWrite_open (c : Chip) {k b w : Nat} (v : W32) (hw : w < 44)
    (h : c.inConfig = true ∨ (b ≠ c.slotBank k ∧ c.slotSwp k = false)) :
    c.bankWrite k b w v = c.setReg (bankReg k b w) v := by
  have hidle : c.inConfig = true ∨ (b == c.slotBank k || c.slotSwp k) = false := h.imp_right fun ⟨hb, hs⟩ => by
    rw [hs, beq_eq_false_iff_ne.mpr hb, Bool.or_self]
  simp only [Chip.bankWrite, if_neg (Nat.not_le_of_lt hw), c.lock_open hidle, Bool.false_eq_true, if_false]

/-- Outside CONFIG the bank in use, and either bank while a swap waits, ignores a write. -/
theorem Chip.bankWrite_ignored (c : Chip) {k b w : Nat} (v : W32) (hw : w < 44) (hc : c.inConfig = false)
    (h : b = c.slotBank k ∨ c.slotSwp k = true) : c.bankWrite k b w v = c.lpeIgn := by
  have huse : (b == c.slotBank k || c.slotSwp k) = true := by
    rw [Bool.or_eq_true, beq_iff_eq]; exact h
  simp only [Chip.bankWrite, if_neg (Nat.not_le_of_lt hw), hc, huse, Bool.not_false, Bool.and_self, if_true]

/-! ## Transform units and mode sets (R185) -/

/-- A write to a word of a transform unit is the engine's. -/
theorem exec_lpeXfWrite (s : State) (m : Master) (j : Fin 128) (w : Fin 8) (v : W32) {d : Chip}
    (hd : s.chip.xfWrite j.val w.val v = d) (hq : d.quiet = true) : exec (.lpeXfWrite m j w v) s = .next (s.withChip d) := by
  refine s.regw_lpe m (off := xfReg j.val w.val) (x := 0x30000 + 32 * j.val + 4 * w.val) (LpeArray.xf w) j.isLt (by omega)
    (by unfold xfReg; omega) ?_ hq
  rw [Chip.lpeWrite, if_neg (by omega), if_neg (by omega), if_neg (by omega), if_neg (by omega), if_pos (by omega), ← hd]
  congr 1 <;> omega

/-- In CONFIG the control word of a transform unit is written by the map. -/
theorem Chip.xfWrite_config (c : Chip) (j : Nat) (v : W32) (h : c.inConfig = true) :
    c.xfWrite j 0 v = c.mapWrite (xfReg j 0) v := by
  simp only [Chip.xfWrite, Nat.zero_ne_one, ne_eq, not_true_eq_false, if_false, h, if_true]

/-- An advance ADV that is finite and from 0 to 4 is taken at any time. -/
theorem Chip.xfWrite_advance (c : Chip) (j : Nat) {v : W32} (hfin : finite32 v = true) (hlo : f32Le 0 v = true)
    (hhi : f32Le v 0x40800000#32 = true) : c.xfWrite j 1 v = c.setReg (xfReg j 1) v := by
  simp only [Chip.xfWrite, hfin, hlo, hhi, Bool.and_self, if_true]

/-- A write to a word of a mode set is the engine's. -/
theorem exec_lpeMsetWrite (s : State) (m : Master) (n : Fin 128) (w : Fin 8) (v : W32) {d : Chip}
    (hd : s.chip.msetWrite n.val w.val v = d) (hq : d.quiet = true) : exec (.lpeMsetWrite m n w v) s = .next (s.withChip d) := by
  refine s.regw_lpe m (off := msetReg n.val w.val) (x := 0x31000 + 32 * n.val + 4 * w.val) (LpeArray.mset w) n.isLt (by omega)
    (by unfold msetReg; omega) ?_ hq
  rw [Chip.lpeWrite, if_neg (by omega), if_neg (by omega), if_neg (by omega), if_neg (by omega), if_neg (by omega),
    if_pos (by omega), ← hd]
  congr 1 <;> omega

/-- Words 1 to 5 of a mode set are written by the map, in CONFIG or while the set is disabled. -/
theorem Chip.msetWrite_config (c : Chip) {n w : Nat} (v : W32) (hw : 0 < w) (hw6 : w < 6)
    (h : c.inConfig = true ∨ c.msetEn n = false) : c.msetWrite n w v = c.mapWrite (msetReg n w) v := by
  have hopen : (!c.inConfig && bit (c.reg (msetReg n 0)) 31) = false := c.lock_open h
  simp only [Chip.msetWrite, if_neg (Nat.ne_of_lt hw6), if_neg (Nat.ne_of_gt hw), hopen, Bool.false_eq_true, if_false]

/-- Settles O36: each command is the loop engine's own operation, with the effect that its case gives. -/
theorem loopCommands : Obligations.LoopCommands := by
  unfold Obligations.LoopCommands
  intro s m hq
  refine ⟨?swapSlot, ?swapIgnored, ?swapGroup, ?switch, ?slot, ?state, ?bank, ?transform, ?modeSet⟩
  case swapSlot => exact fun v h => exec_lpeSwapSlot s m v (s.chip.swapSlot_marks h) hq
  case swapIgnored => exact fun v h => exec_lpeSwapSlot s m v (s.chip.swapSlot_ignored h) hq
  case swapGroup =>
    exact fun v h => exec_lpeSwapGroup s m v (s.chip.swapGroup_marks h) ((s.chip.quiet_swapMarks _).trans hq)
  case switch => exact fun v => exec_lpeMsw s m v hq
  case slot =>
    exact fun k w v h => exec_lpeSlotWrite s m k _ v (s.chip.slotWrite_config v (Nat.succ_pos w) (by dsimp only; omega) h)
      ((s.chip.quiet_mapWrite _ _).trans hq)
  case state => exact fun k w v h => exec_lpeStateWrite s m k w v (s.chip.stateWrite_open w v h) hq
  case bank =>
    exact fun k b w v => ⟨fun h => exec_lpeBankWrite s m k b _ v (s.chip.bankWrite_open v w.isLt h) hq,
      fun hc h => exec_lpeBankWrite s m k b _ v (s.chip.bankWrite_ignored v w.isLt hc h) hq⟩
  case transform =>
    exact fun j v => ⟨fun hc => exec_lpeXfWrite s m j 0 v (s.chip.xfWrite_config j v hc) ((s.chip.quiet_mapWrite _ _).trans hq),
      fun hfin hlo hhi => exec_lpeXfWrite s m j 1 v (s.chip.xfWrite_advance j hfin hlo hhi) hq⟩
  case modeSet =>
    exact fun n w v h => exec_lpeMsetWrite s m n _ v (s.chip.msetWrite_config v (Nat.succ_pos w) (by dsimp only; omega) h)
      ((s.chip.quiet_mapWrite _ _).trans hq)

end Sys2Proof.Machine
end

section
/-!
The writes to the profile block (O37, O38): which words of the PRF map the commands of the profile engine write, that such a write
waits while ticks run and is applied at once without them, and the COMMIT of a table, which also takes the address of its bank.
-/
namespace Sys2Proof.Machine

/-! ## The words of the PRF block (R220, R239) -/

/-- The PRF map assigns the word at an offset of its block. -/
def PrfWord (x : Nat) : Prop := ∃ d ∈ prfMap, ∃ i, i < d.count ∧ x = d.off + d.stride * i

/-- The PRF map assigns an array of words: `count` of them from `off` on, `stride` apart. -/
def PrfArray (off stride count : Nat) : Prop := ∃ d ∈ prfMap, d.off = off ∧ d.stride = stride ∧ d.count = count

/-- The words of an array are assigned. -/
theorem PrfArray.word {off stride count i x : Nat} (ha : PrfArray off stride count) (hi : i < count) (hx : x = off + stride * i) :
    PrfWord x := by
  obtain ⟨d, hd, rfl, rfl, rfl⟩ := ha
  exact ⟨d, hd, i, hi, hx⟩

/-- The fire register is assigned. -/
theorem PrfArray.fire : PrfArray 4 4 1 := by unfold PrfArray; decide

/-- The words of the channels, up to the command word, are assigned. -/
theorem PrfArray.chan : ∀ w : Fin 14, PrfArray (0x10000 + 4 * w.val) 64 256 := by unfold PrfArray; decide

/-- The words of the segment tables are assigned. -/
theorem PrfArray.table : ∀ w : Fin 8, PrfArray (0x31000 + 4 * w.val) 32 64 := by unfold PrfArray; decide

/-- The words of the compare units are assigned. -/
theorem PrfArray.compare : ∀ w : Fin 16, PrfArray (0x32000 + 4 * w.val) 64 64 := by unfold PrfArray; decide

/-- The words of homing are assigned. -/
theorem PrfArray.home : ∀ w : Fin 32, PrfArray (0x34000 + 4 * w.val) 128 256 := by unfold PrfArray; decide

/-- The words of the stepper channels are assigned. -/
theorem PrfArray.stepper : ∀ w : Fin 16, PrfArray (0x3C000 + 4 * w.val) 64 32 := by unfold PrfArray; decide

/-- The words of the microstep tables 1 to 4 are assigned. -/
theorem PrfArray.microstep : PrfArray 0x3D200 4 512 := by unfold PrfArray; decide

/-- The rows of the PRF map end within its block. -/
theorem prfMap_within_block : ∀ d ∈ prfMap, 0 < d.stride ∧ d.off + d.stride * (d.count - 1) < 0x100000 := by decide

/-- A write to an assigned word of the PRF block that leaves no request is what the profile engine makes of it. -/
theorem State.regw_prf (s : State) (m : Master) {x : Nat} {v : W32} (hx : PrfWord x) (hq : (s.chip.prfWrite x v).quiet = true) :
    s.regw m (0x300000 + x) v = .next (s.withChip (s.chip.prfWrite x v)) := by
  obtain ⟨d, hd, i, hi, rfl⟩ := hx
  obtain ⟨hstride, hend⟩ := prfMap_within_block d hd
  have hle : d.stride * i ≤ d.stride * (d.count - 1) := Nat.mul_le_mul_left _ (by omega)
  have hblock : (0x300000 + (d.off + d.stride * i)) / 0x100000 = 3 := by omega
  have hword : (0x300000 + (d.off + d.stride * i)) % 0x100000 = d.off + d.stride * i := by omega
  have hdesc : (regDesc (0x300000 + (d.off + d.stride * i))).isNone = false := by
    rw [Option.isNone_eq_false_iff, regDesc, hblock, hword, List.find?_isSome]
    exact ⟨d, hd, (RegDesc.has_iff _ hstride).mpr ⟨i, hi, rfl⟩⟩
  have hwrite : s.chip.blockWrite (0x300000 + (d.off + d.stride * i)) v = s.chip.prfWrite (d.off + d.stride * i) v := by
    simp only [Chip.blockWrite, hblock, hword]
  rw [← hwrite] at hq ⊢
  exact s.regw_open m _ v (by omega) (by omega) hdesc (by omega) hq

/-! ## Commands that write the PRF block (R190) -/

/-- A command of a master that writes an assigned word of the PRF block. -/
def PrfWrites (m : Master) (i : Instr) (x : Nat) (w : W32) : Prop :=
  PrfWord x ∧ ∀ s : State, exec i s = s.regw m (0x300000 + x) w

/-- A register write whose offset is that of a word of an array. -/
theorem PrfWrites.of_array {m : Master} {e : Instr} {base stride count i x off : Nat} {w : W32} (ha : PrfArray base stride count)
    (hi : i < count) (hx : x = base + stride * i) (he : ∀ s : State, exec e s = s.regw m off w) (hoff : off = 0x300000 + x) :
    PrfWrites m e x w := ⟨ha.word hi hx, fun s => hoff ▸ he s⟩

/-- While ticks run, the write waits with its instant on TB0. -/
theorem PrfWrites.waits {m : Master} {i : Instr} {x : Nat} {w : W32} (h : PrfWrites m i x w) (s : State)
    (hq : s.chip.quiet = true) (ht : s.chip.ticking = true) :
    exec i s = .next (s.withChip (s.chip.modPrf fun p => { p with writes := p.writes ++ [(x, w, s.chip.tb0Ns)] })) := by
  obtain ⟨hx, hexec⟩ := h
  have hwrite : s.chip.prfWrite x w = s.chip.modPrf fun p => { p with writes := p.writes ++ [(x, w, s.chip.tb0Ns)] } := by
    rw [Chip.prfWrite, if_pos ht]
  rw [hexec, s.regw_prf m hx (by rw [hwrite]; exact hq), hwrite]

/-- Without ticks, the write is applied at once. -/
theorem PrfWrites.applies {m : Master} {i : Instr} {x : Nat} {w : W32} (h : PrfWrites m i x w) (s : State) {d : Chip}
    (ht : s.chip.ticking = false) (hd : s.chip.prfApply x w s.chip.tb0Ns = d) (hq : d.quiet = true) :
    exec i s = .next (s.withChip d) := by
  obtain ⟨hx, hexec⟩ := h
  have hwrite : s.chip.prfWrite x w = d := by rw [Chip.prfWrite, ht, if_neg Bool.false_ne_true, hd]
  rw [hexec, s.regw_prf m hx (by rw [hwrite]; exact hq), hwrite]

/-- A channel command writes PRF_CMD. -/
theorem prfWrites_command {m : Master} {k : Fin 256} {i : Instr} {w : W32} (h : ∀ s : State, exec i s = s.regw m (prfCh k.val 13) w) :
    PrfWrites m i (0x10034 + 64 * k.val) w :=
  .of_array (PrfArray.chan 13) k.isLt rfl h (by unfold prfCh; omega)

/-- A fire of a group writes PRF_GFIRE. -/
theorem prfWrites_fire {m : Master} {i : Instr} {w : W32} (h : ∀ s : State, exec i s = s.regw m 0x300004 w) : PrfWrites m i 4 w :=
  .of_array PrfArray.fire Nat.zero_lt_one rfl h rfl

/-- A commit or its withdrawal writes COMMIT of a table. -/
theorem prfWrites_commit {m : Master} {g : Fin 64} {i : Instr} {w : W32} (h : ∀ s : State, exec i s = s.regw m (tblReg g.val 5) w) :
    PrfWrites m i (0x31014 + 32 * g.val) w :=
  .of_array (PrfArray.table 5) g.isLt rfl h (by unfold tblReg; omega)

/-- Each row of `profileWrites` is the write that it names. -/
theorem prfWrites_of_mem {m : Master} {k : Fin 256} {g : Fin 64} {st : Fin 32} {v : W32} {row : Instr × Nat × W32}
    (h : row ∈ profileWrites m k g st v) : PrfWrites m row.1 row.2.1 row.2.2 := by
  simp only [profileWrites, List.mem_append, List.mem_map, List.mem_finRange, true_and] at h
  obtain (((((h | ⟨w, rfl⟩) | ⟨w, rfl⟩) | ⟨w, rfl⟩) | ⟨w, rfl⟩) | ⟨w, rfl⟩) | ⟨w, rfl⟩ := h
  · simp only [List.mem_cons, List.not_mem_nil, or_false] at h
    rcases h with rfl | rfl | rfl | rfl | rfl | rfl | rfl | rfl | rfl | rfl | rfl | rfl | rfl | rfl | rfl
    iterate 9 exact prfWrites_command fun _ => rfl
    · exact .of_array (PrfArray.chan 0) k.isLt rfl (fun _ => rfl) (by unfold prfCh; dsimp only; omega)
    · exact .of_array (PrfArray.chan 9) k.isLt rfl (fun _ => rfl) (by unfold prfCh; dsimp only; omega)
    · exact prfWrites_fire fun _ => rfl
    · exact prfWrites_fire fun _ => rfl
    · exact prfWrites_commit fun _ => rfl
    · exact prfWrites_commit fun _ => rfl
  · exact .of_array (PrfArray.chan ⟨w.val + 1, by omega⟩) k.isLt (by dsimp only; omega) (fun _ => rfl)
      (by unfold prfCh; dsimp only; omega)
  · exact .of_array (PrfArray.table (w.castLE (by decide))) g.isLt (by dsimp only [Fin.val_castLE]; omega) (fun _ => rfl)
      (by unfold tblReg; dsimp only [Fin.val_castLE]; omega)
  · exact .of_array (PrfArray.compare (w.castLE (by decide))) g.isLt (by dsimp only [Fin.val_castLE]; omega) (fun _ => rfl)
      (by unfold cmpReg; dsimp only [Fin.val_castLE]; omega)
  · exact .of_array (PrfArray.stepper (w.castLE (by decide))) st.isLt (by dsimp only [Fin.val_castLE]; omega) (fun _ => rfl)
      (by unfold stpReg; dsimp only [Fin.val_castLE]; omega)
  · exact .of_array (PrfArray.home (w.castLE (by decide))) k.isLt (by dsimp only [Fin.val_castLE]; omega) (fun _ => rfl)
      (by unfold homeReg; dsimp only [Fin.val_castLE]; omega)
  · exact .of_array (i := 384 + w.val) PrfArray.microstep (by omega) (by dsimp only; omega) (fun _ => rfl)
      (by dsimp only [Fin.val_ofNat]; omega)

/-- Settles O37: every command of the block is a write of an assigned word, so it waits while ticks run. -/
theorem profileWritesWait : Obligations.ProfileWritesWait := by
  unfold Obligations.ProfileWritesWait
  intro s m k g st v hq
  exact ⟨fun row hrow ht => (prfWrites_of_mem hrow).waits s hq ht, fun _ => rfl, rfl⟩

/-! ## The counterexample to O38 -/

/-- What a COMMIT of a free table leaves: the address that stands in the words of its bank is taken, and its verification begins
(R210, R473). -/
theorem Chip.prfApply_tableCommit (c : Chip) (g : Fin 64) (v : W32) (now : Nat) (hcommit : c.tabCommit g.val = none)
    (hbound : c.tabBound g.val = false) :
    c.prfApply (0x31014 + 32 * g.val) (setBit v 31 true) now =
      ((c.takeBank g.val (fld v 0 0)).setB (tblReg g.val 6) 29 true).setTabCommit g.val
        (some { bank := fld v 0 0, at1 := bit v 30 }) := by
  have hgo : bit (setBit v 31 true) 31 = true := bit_setBit v true (by omega)
  have hat : bit (setBit v 31 true) 30 = bit v 30 := by rw [setBit, bit_setFld v (by omega), if_neg (by omega)]
  have hbank : fld (setBit v 31 true) 0 0 = fld v 0 0 := fld_setBit_above v true (by omega) (by omega)
  have htable : (0x31014 + 32 * g.val - 0x31000) / 32 = g.val := by omega
  have hword : (0x31014 + 32 * g.val) % 32 / 4 = 5 := by omega
  rw [Chip.prfApply, if_neg (by omega), if_neg (by omega), if_pos (by omega), htable, hword]
  simp [Chip.tblWrite, Chip.tabCommitWrite, hgo, hat, hbank, hcommit, hbound]

/-- The module after reset with an address written for bank 0 of table 0. -/
def bankWritten : State := State.reset.withChip (State.reset.chip.setReg (tblReg 0 1) 0x40#32)

/-- One write to the table, from reset on, makes that module. -/
theorem bankWritten_of_reset (m : Master) : exec (.prfTblWrite m 0 1 0x40#32) State.reset = .next bankWritten :=
  PrfWrites.applies (.of_array (i := 0) (PrfArray.table 1) (by omega) rfl (fun _ => rfl) rfl) State.reset rfl (by decide) rfl

/-- The commit of that bank takes its address, which O38's chip does not hold. -/
theorem bankWritten_commit : let x := some { bank := 0, at1 := false }
    (((bankWritten.chip.takeBank 0 0).setB (tblReg 0 6) 29 true).setTabCommit 0 x).prf.banks = [(0, 0x40)] ∧
      ((bankWritten.chip.setB (tblReg 0 6) 29 true).setTabCommit 0 x).prf.banks = [] := by decide

/-- Refutes O38: its row for the COMMIT of a table leaves the addresses of the banks as they were, and a COMMIT takes the address that
stands in the words of its bank (R473), here 0x40 for bank 0 of table 0. `Chip.prfApply_tableCommit` says what a COMMIT leaves. -/
theorem not_profileWritesTakeEffect : ¬ Obligations.ProfileWritesTakeEffect := by
  unfold Obligations.ProfileWritesTakeEffect
  intro h
  obtain ⟨-, hrows⟩ := h bankWritten 0 0 0 0 0 rfl
  have hfree : bankWritten.chip.tabCommit 0 = none ∧ bankWritten.chip.tabBound 0 = false := by decide
  obtain ⟨-, -, happly⟩ := hrows (.tableCommit 0 0 0, 0x31014, setBit 0 31 true, _, _)
    (by simp only [profileResults, List.append_assoc]; exact List.mem_append_left _ (.tail _ (.tail _ (.tail _ (.head _))))) hfree
  have hchips := (bankWritten.chip.prfApply_tableCommit 0 0 0 hfree.1 hfree.2).symm.trans (happly 0)
  have hbanks := congrArg (fun d => d.prf.banks) hchips
  obtain ⟨htaken, hkept⟩ := bankWritten_commit
  exact absurd (htaken.symm.trans (hbanks.trans hkept)) (by decide)

end Sys2Proof.Machine
end

section
/-!
How a command acts in each state of its channel (O39, R199): which commands reach a channel, and what each of them does there.
-/
namespace Sys2Proof.Machine

/-! ## Fields beside a written bit -/

/-- A bit written below a field leaves the field. -/
theorem fld_setBit_below (w : W32) {hi lo i : Nat} (b : Bool) (h : i < lo) (hhi : hi < 32) :
    fld (setBit w i b) hi lo = fld w hi lo := by
  refine Nat.eq_of_testBit_eq fun k => ?_
  simp only [fld, bitsOf, Nat.testBit_mod_two_pow, Nat.testBit_shiftRight]
  by_cases hk : k < hi + 1 - lo
  · have hbit := bit_setFld w (hi := i) (lo := i) (v := b.toNat) (show lo + k < 32 by omega)
    rw [if_neg (by omega)] at hbit
    exact congrArg (decide (k < hi + 1 - lo) && ·) hbit
  · simp only [hk, decide_false, Bool.false_and]

/-- A bit written below a field leaves the field, whichever register the bit is written in. -/
theorem Chip.regF_setB_below (c : Chip) (off x : Nat) {hi lo i : Nat} (b : Bool) (h : i < lo) (hhi : hi < 32) :
    (c.setB off i b).regF x hi lo = c.regF x hi lo := by
  unfold Chip.regF Chip.setB
  rw [Chip.reg_setReg_eq]
  split
  · next hx => rw [hx, fld_setBit_below _ b h hhi]
  · rfl

/-! ## The state of a channel (R191) -/

/-- A state that is set reads back. -/
theorem Chip.chState_setChState (c : Chip) (k : Nat) {n : Nat} (hn : n < 16) : (c.setChState k n).chState k = n := by
  unfold Chip.chState Chip.regF Chip.setChState Chip.setF
  rw [Chip.reg_setReg, fld_setFld _ (by omega) hn]

/-- A bit of a channel's status leaves its state. -/
theorem Chip.chState_setB (c : Chip) (k off : Nat) {i : Nat} (b : Bool) (hi : i < 28) : (c.setB off i b).chState k = c.chState k :=
  c.regF_setB_below off _ b hi (by omega)

/-- The cause of a group leaves the state of every channel. -/
theorem Chip.chState_chCause (c : Chip) {k : Nat} (j b : Nat) (_ : k < 256) : (c.chCause j b).chState k = c.chState k := by
  have hgrp : c.chGrp j < 32 := fld_lt _ 28 24
  refine congrArg (fld · 31 28) (c.reg_setReg_ne (prfGrp (c.chGrp j) 1) (chst k 0) _ ?_)
  unfold chst prfGrp
  omega

/-- A refusal leaves the group that its cause goes to. -/
theorem Chip.planErr_eq (c : Chip) (k : Nat) :
    c.planErr k = ((c.setB (chst k 0) 2 true).setB 0x300000 2 true).grpCause (c.chGrp k) 7 := by
  have hgrp : ((c.setB (chst k 0) 2 true).setB 0x300000 2 true).chGrp k = c.chGrp k :=
    (Chip.regF_setB_below _ _ _ true (by omega) (by omega)).trans (c.regF_setB_below _ _ true (by omega) (by omega))
  rw [← hgrp]
  rfl

/-! ## Which commands reach a channel -/

/-- A channel in OFF ignores every command. -/
theorem Chip.runCommand_off (c : Chip) (k : Nat) (w : W32) (hst : c.chState k = stOff) : c.runCommand k w = c.cmdIgn k := by
  simp only [Chip.runCommand, hst, if_true]

/-- ARM 1 belongs to the three moves alone. -/
theorem Chip.runCommand_arm (c : Chip) (k : Nat) (w : W32) (harm : bit w 27 = true) (h1 : fld w 31 28 ≠ 1) (h2 : fld w 31 28 ≠ 2)
    (h3 : fld w 31 28 ≠ 3) : c.runCommand k w = c.cmdIgn k := by
  simp [Chip.runCommand, harm, h1, h2, h3]

/-- A channel in STOPPING or FAULT ignores every command but CLR_LIM, one in HOMING also takes STOP. -/
theorem Chip.runCommand_busy (c : Chip) (k : Nat) (w : W32) (h9 : fld w 31 28 ≠ 9)
    (hst : c.chState k = stStopping ∨ c.chState k = stFault ∨ c.chState k = stHoming ∧ fld w 31 28 ≠ 6) :
    c.runCommand k w = c.cmdIgn k := by
  obtain hst | hst | ⟨hst, h6⟩ := hst
  · simp [Chip.runCommand, hst, h9, stStopping, stOff, stHoming]
  · simp [Chip.runCommand, hst, h9, stStopping, stFault, stOff, stHoming]
  · simp [Chip.runCommand, hst, h9, h6, stOff, stHoming]

/-- The states in which a channel follows the table of R199. -/
def Chip.listens (c : Chip) (k : Nat) : Prop :=
  c.chState k ≠ stOff ∧ c.chState k ≠ stHoming ∧ c.chState k ≠ stStopping ∧ c.chState k ≠ stFault

/-- A move reaches a channel that listens. -/
theorem Chip.runCommand_move (c : Chip) (k : Nat) (w : W32) (hl : c.listens k)
    (hcmd : fld w 31 28 = 1 ∨ fld w 31 28 = 2 ∨ fld w 31 28 = 3) :
    c.runCommand k w = c.cmdMove k (fld w 31 28) (fld w 5 0) (bit w 27) := by
  obtain ⟨hoff, hhoming, hstopping, hfault⟩ := hl
  obtain hcmd | hcmd | hcmd := hcmd <;> simp [Chip.runCommand, hoff, hhoming, hstopping, hfault, hcmd]

/-- DISARM with ARM 0 reaches a channel that listens. -/
theorem Chip.runCommand_disarm (c : Chip) (k : Nat) (w : W32) (hl : c.listens k) (harm : bit w 27 = false) (hcmd : fld w 31 28 = 0) :
    c.runCommand k w = c.cmdDisarm k := by
  obtain ⟨hoff, hhoming, hstopping, hfault⟩ := hl
  simp [Chip.runCommand, hoff, hhoming, hstopping, hfault, harm, hcmd]

/-- PAUSE with ARM 0 reaches a channel that listens. -/
theorem Chip.runCommand_pause (c : Chip) (k : Nat) (w : W32) (hl : c.listens k) (harm : bit w 27 = false) (hcmd : fld w 31 28 = 4) :
    c.runCommand k w = c.cmdPause k := by
  obtain ⟨hoff, hhoming, hstopping, hfault⟩ := hl
  simp [Chip.runCommand, hoff, hhoming, hstopping, hfault, harm, hcmd]

/-- RESUME with ARM 0 reaches a channel that listens. -/
theorem Chip.runCommand_resume (c : Chip) (k : Nat) (w : W32) (hl : c.listens k) (harm : bit w 27 = false) (hcmd : fld w 31 28 = 5) :
    c.runCommand k w = c.cmdResume k := by
  obtain ⟨hoff, hhoming, hstopping, hfault⟩ := hl
  simp [Chip.runCommand, hoff, hhoming, hstopping, hfault, harm, hcmd]

/-- STOP with ARM 0 reaches a channel that listens. -/
theorem Chip.runCommand_stop (c : Chip) (k : Nat) (w : W32) (hl : c.listens k) (harm : bit w 27 = false) (hcmd : fld w 31 28 = 6) :
    c.runCommand k w = c.cmdStop k := by
  obtain ⟨hoff, hhoming, hstopping, hfault⟩ := hl
  simp [Chip.runCommand, hoff, hhoming, hstopping, hfault, harm, hcmd]

/-- A command that the table does not have is ignored. -/
theorem Chip.runCommand_unlisted (c : Chip) (k : Nat) (w : W32) (harm : bit w 27 = false)
    (hcmd : fld w 31 28 = 7 ∨ 10 ≤ fld w 31 28) : c.runCommand k w = c.cmdIgn k := by
  by_cases hoff : c.chState k = stOff
  · exact c.runCommand_off k w hoff
  by_cases hbusy : c.chState k = stStopping ∨ c.chState k = stFault ∨ c.chState k = stHoming
  · exact c.runCommand_busy k w (by omega) (by omega)
  obtain ⟨hstopping, hfault, hhoming⟩ : c.chState k ≠ stStopping ∧ c.chState k ≠ stFault ∧ c.chState k ≠ stHoming := by omega
  obtain hcmd | hcmd := hcmd
  · simp [Chip.runCommand, hoff, hhoming, hstopping, hfault, harm, hcmd]
  · obtain ⟨n, hn⟩ := Nat.exists_eq_add_of_le' hcmd
    simp [Chip.runCommand, hoff, hhoming, hstopping, hfault, harm, hn]

/-! ## DISARM, PAUSE, RESUME and STOP (R201, R202) -/

/-- DISARM discards an armed command. -/
theorem Chip.cmdDisarm_armed (c : Chip) (k : Nat) (h : c.chState k = stArmed) :
    c.cmdDisarm k = (c.modChan k fun x => { x with armed := none }).setChState k stIdle := by
  simp only [Chip.cmdDisarm, h, if_true]

/-- DISARM does nothing in IDLE. -/
theorem Chip.cmdDisarm_idle (c : Chip) (k : Nat) (h : c.chState k = stIdle) : c.cmdDisarm k = c := by
  simp [Chip.cmdDisarm, h, stIdle, stArmed]

/-- DISARM is ignored away from rest. -/
theorem Chip.cmdDisarm_ignored (c : Chip) (k : Nat) (harmed : c.chState k ≠ stArmed) (hidle : c.chState k ≠ stIdle) :
    c.cmdDisarm k = c.cmdIgn k := by
  simp only [Chip.cmdDisarm, harmed, hidle, if_false]

/-- PAUSE does nothing but to a running move. -/
theorem Chip.cmdPause_rest (c : Chip) (k : Nat) (hA : c.chState k ≠ stRunA) (hB : c.chState k ≠ stRunB) : c.cmdPause k = c := by
  simp only [Chip.cmdPause, hA, hB, if_false]

/-- PAUSE stops a class A move. -/
theorem Chip.cmdPause_runA (c : Chip) (k : Nat) (h : c.chState k = stRunA) :
    c.cmdPause k = (c.makeStop k).setChState k stPausing := by
  simp only [Chip.cmdPause, h, if_true]

/-- PAUSE leads κ to 0 on a table with its own clock, and is ignored on one that follows a master. -/
theorem Chip.cmdPause_runB (c : Chip) (k : Nat) {r : TabRun} (h : c.chState k = stRunB) (hr : (c.chan k).tab = some r) :
    c.cmdPause k = if c.tabIndep r.table then c.cmdIgn k else (c.kappaRamp k 0).setChState k stPausing := by
  simp [Chip.cmdPause, h, hr, stRunA, stRunB]

/-- RESUME is ignored by a channel that is not pausing or paused. -/
theorem Chip.cmdResume_ignored (c : Chip) (k : Nat) (hpausing : c.chState k ≠ stPausing) (hpaused : c.chState k ≠ stPaused) :
    c.cmdResume k = c.cmdIgn k := by
  simp [Chip.cmdResume, hpausing, hpaused]

/-- RESUME of a class A move that still stops is remembered. -/
theorem Chip.cmdResume_latched (c : Chip) (k : Nat) (h : c.chState k = stPausing) (ht : (c.chan k).tab = none) :
    c.cmdResume k = c.setB (chst k 0) 6 true := by
  simp [Chip.cmdResume, h, ht]

/-- RESUME of a table leads κ back to its goal. -/
theorem Chip.cmdResume_table (c : Chip) (k : Nat) (h : c.chState k = stPausing ∨ c.chState k = stPaused)
    (ht : (c.chan k).tab ≠ none) (hkept : c.keptBlocked k = false) :
    c.cmdResume k = (c.kappaRamp k (c.kappaTgt k)).setChState k stRunB := by
  have hsome : (c.chan k).tab.isSome = true := Option.isSome_iff_ne_none.mpr ht
  simp [Chip.cmdResume, hsome, hkept, h]

/-- STOP discards an armed command. -/
theorem Chip.cmdStop_armed (c : Chip) (k : Nat) (h : c.chState k = stArmed) :
    c.cmdStop k = (c.modChan k fun x => { x with armed := none }).setChState k stIdle := by
  simp only [Chip.cmdStop, h, if_true]

/-- STOP does nothing in IDLE. -/
theorem Chip.cmdStop_idle (c : Chip) (k : Nat) (h : c.chState k = stIdle) : c.cmdStop k = c := by
  simp [Chip.cmdStop, h, stIdle, stArmed, stPaused, stPausing, stRunA, stRunB]

/-- A stop of whatever runs ends in STOPPING. -/
theorem Chip.chState_stopNow (c : Chip) (k : Nat) : (c.stopNow k).chState k = stStopping :=
  (Chip.chState_setB _ k _ false (by omega)).trans (Chip.chState_setChState _ k (by decide))

/-- STOP of a running or pausing move leads to STOPPING. -/
theorem Chip.chState_cmdStop_running (c : Chip) (k : Nat)
    (h : c.chState k = stRunA ∨ c.chState k = stRunB ∨ c.chState k = stPausing) : (c.cmdStop k).chState k = stStopping := by
  have hrest : c.chState k ≠ stArmed ∧ c.chState k ≠ stPaused := by
    unfold stRunA stRunB stPausing at h; unfold stArmed stPaused; omega
  obtain ⟨harmed, hpaused⟩ := hrest
  unfold Chip.cmdStop
  simp only [harmed, hpaused, if_false]
  split
  · exact Chip.chState_setChState _ k (by decide)
  · rw [if_pos (by simpa [or_assoc] using h)]
    exact c.chState_stopNow k

/-- STOP of a paused move ends in IDLE. -/
theorem Chip.chState_cmdStop_paused (c : Chip) {k : Nat} (h : c.chState k = stPaused) (hk : k < 256) :
    (c.cmdStop k).chState k = stIdle := by
  unfold Chip.cmdStop
  simp only [h, show stPaused ≠ stArmed by decide, if_true, if_false]
  exact (Chip.chState_chCause _ k 2 hk).trans (Chip.chState_setChState _ k (by decide))

/-! ## Moves (R199) -/

/-- A channel at rest, as a move asks for it. -/
def Chip.atRest (c : Chip) (k : Nat) : Bool := c.chState k == stIdle || c.chState k == stArmed

/-- Where a move with ARM 0 may start: at rest, and for MOVE_POS and MOVE_VEL also in RUN_A and PAUSED. -/
def Chip.mayMove (c : Chip) (k cmd : Nat) : Bool :=
  c.atRest k || (cmd != 3 && (c.chState k == stRunA || c.chState k == stPaused))

/-- A channel is at rest in IDLE and ARMED. -/
theorem Chip.atRest_iff (c : Chip) (k : Nat) : c.atRest k = true ↔ c.chState k = stIdle ∨ c.chState k = stArmed := by
  simp only [Chip.atRest, Bool.or_eq_true, beq_iff_eq]

/-- A move may start at rest, and MOVE_POS and MOVE_VEL also in RUN_A and PAUSED. -/
theorem Chip.mayMove_iff (c : Chip) (k cmd : Nat) : c.mayMove k cmd = true ↔
    (c.chState k = stIdle ∨ c.chState k = stArmed) ∨ cmd ≠ 3 ∧ (c.chState k = stRunA ∨ c.chState k = stPaused) := by
  simp only [Chip.mayMove, Bool.or_eq_true, c.atRest_iff, Bool.and_eq_true, bne_iff_ne, beq_iff_eq]

/-- What a move does before its start: it is ignored, refused or, with ARM 1, armed. -/
theorem Chip.cmdMove_eq (c : Chip) (k cmd t : Nat) (arm : Bool) : c.cmdMove k cmd t arm =
    if !(if arm then c.atRest k else c.mayMove k cmd) then c.cmdIgn k
    else if c.refuses k (c.capture k cmd t) then c.planErr k
    else if arm then (c.modChan k fun x => { x with armed := some (c.capture k cmd t) }).setChState k stArmed
    else if c.chState k = stPaused && (c.chan k).tab.isSome then
      ((c.modChan k fun x => { x with hold := c.spPos k }).unbind k).startMove k (c.capture k cmd t) false
    else c.startMove k (c.capture k cmd t) (c.chState k == stRunA) := by
  cases arm <;> rfl

/-- A move is ignored where it may neither start nor be armed. -/
theorem Chip.cmdMove_ignored (c : Chip) (k cmd t : Nat) {arm : Bool} (h : (if arm then c.atRest k else c.mayMove k cmd) = false) :
    c.cmdMove k cmd t arm = c.cmdIgn k := by
  rw [c.cmdMove_eq, h]; rfl

/-- A refused move leaves the channel, with PLAN_ERR. -/
theorem Chip.cmdMove_refused (c : Chip) (k cmd t : Nat) {arm : Bool} (h : (if arm then c.atRest k else c.mayMove k cmd) = true)
    (href : c.refuses k (c.capture k cmd t) = true) : c.cmdMove k cmd t arm = c.planErr k := by
  rw [c.cmdMove_eq, h, href]; rfl

/-- A move with ARM 1 that is not refused arms a channel at rest. -/
theorem Chip.cmdMove_arm (c : Chip) (k cmd t : Nat) (h : c.atRest k = true) (href : c.refuses k (c.capture k cmd t) = false) :
    c.cmdMove k cmd t true = (c.modChan k fun x => { x with armed := some (c.capture k cmd t) }).setChState k stArmed := by
  rw [c.cmdMove_eq, if_pos rfl, h, href]; rfl

/-- A started move runs: a table in RUN_B, the others in RUN_A. -/
theorem Chip.chState_startMove (c d : Chip) (k cmd t : Nat) (keep : Bool) :
    (c.startMove k (d.capture k cmd t) keep).chState k = if cmd = 1 ∨ cmd = 2 then stRunA else stRunB := by
  unfold Chip.startMove Chip.capture
  by_cases h1 : cmd = 1
  · simp only [h1, true_or, if_true]
    exact Chip.chState_setChState _ k (by decide)
  · by_cases h2 : cmd = 2
    · simp only [h2, or_true, if_true, show (2 : Nat) ≠ 1 by decide, if_false]
      exact Chip.chState_setChState _ k (by decide)
    · simp only [h2, h1, or_self, if_false]
      exact Chip.chState_setChState _ k (by decide)

/-- A move with ARM 0 that is not refused runs where it may start. -/
theorem Chip.chState_cmdMove (c : Chip) (k cmd t : Nat) (h : c.mayMove k cmd = true)
    (href : c.refuses k (c.capture k cmd t) = false) :
    (c.cmdMove k cmd t false).chState k = if cmd = 1 ∨ cmd = 2 then stRunA else stRunB := by
  simp only [c.cmdMove_eq, h, href, Bool.not_true, Bool.false_eq_true, if_false]
  split
  · exact Chip.chState_startMove _ c k cmd t false
  · exact c.chState_startMove c k cmd t _

/-! ## The table -/

/-- The states as numbers, which differ. -/
theorem chStates_eq : stIdle = 1 ∧ stArmed = 2 ∧ stRunA = 3 ∧ stRunB = 4 ∧ stPausing = 5 ∧ stPaused = 6 :=
  ⟨rfl, rfl, rfl, rfl, rfl, rfl⟩

/-- A channel listens in each state of the table but OFF, HOMING, STOPPING and FAULT. -/
theorem Chip.listens_of_state (c : Chip) (k : Nat) (h : c.chState k = stIdle ∨ c.chState k = stArmed ∨ c.chState k = stRunA ∨
    c.chState k = stRunB ∨ c.chState k = stPausing ∨ c.chState k = stPaused) : c.listens k := by
  unfold Chip.listens
  rcases h with h | h | h | h | h | h <;> rw [h] <;> decide

/-- Where a move may neither start nor be armed, its channel ignores it, whether it listens or not. -/
theorem Chip.runCommand_move_ignored (c : Chip) (k : Nat) (w : W32) (hcmd : fld w 31 28 = 1 ∨ fld w 31 28 = 2 ∨ fld w 31 28 = 3)
    (h : (if bit w 27 then c.atRest k else c.mayMove k (fld w 31 28)) = false) : c.runCommand k w = c.cmdIgn k := by
  by_cases hoff : c.chState k = stOff
  · exact c.runCommand_off k w hoff
  by_cases hbusy : c.chState k = stStopping ∨ c.chState k = stFault ∨ c.chState k = stHoming
  · exact c.runCommand_busy k w (by omega) (by omega)
  · rw [c.runCommand_move k w (by unfold Chip.listens; omega) hcmd, c.cmdMove_ignored k _ _ h]

/-- Settles O39: each command is brought to its own definition by the state of the channel, and acts there as R199 says. -/
theorem profileCommandTable : Obligations.ProfileCommandTable := by
  unfold Obligations.ProfileCommandTable
  intro c k w
  dsimp only
  have hrest := c.atRest_iff k
  have hmay := c.mayMove_iff k (fld w 31 28)
  have hlisten := c.listens_of_state k
  obtain ⟨hIdle, hArmed, hRunA, hRunB, hPausing, hPaused⟩ := chStates_eq
  refine ⟨c.runCommand_off k w, c.runCommand_arm k w, fun hcmd => ⟨?armIgnored, ?arm, ?refused⟩, fun harm =>
    ⟨fun hst h9 => c.runCommand_busy k w h9 (by omega), fun hst h6 h9 => c.runCommand_busy k w h9 (.inr (.inr ⟨hst, h6⟩)),
      ?disarmArmed, ?disarmIdle, ?disarmIgnored, ?moveStarts, ?moveIgnored, ?tableStarts, ?tableIgnored, ?pauseRest, ?pauseMove,
      ?pauseTable, ?resumeIgnored, ?resumeLatched, ?resumeTable, ?stopIdle, ?stopArmed, ?stopRunning, ?stopPaused, ?unlisted⟩⟩
  case armIgnored =>
    intro harm hidle harmed
    have hno : c.atRest k = false := by rw [Bool.eq_false_iff, ne_eq, hrest]; exact not_or.mpr ⟨hidle, harmed⟩
    exact c.runCommand_move_ignored k w hcmd (by rw [harm, if_pos rfl, hno])
  case arm =>
    intro harm hst href
    rw [c.runCommand_move k w (hlisten (by omega)) hcmd, harm]
    exact c.cmdMove_arm k _ _ (hrest.mpr hst) href
  case refused =>
    intro hst href
    rw [c.runCommand_move k w (hlisten (by omega)) hcmd, ← c.planErr_eq]
    refine c.cmdMove_refused k _ _ ?_ href
    split
    · next harm => exact hrest.mpr (by simpa [harm, or_assoc] using hst)
    · exact hmay.mpr (by omega)
  case disarmArmed =>
    intro hcmd hst
    rw [c.runCommand_disarm k w (hlisten (by omega)) harm hcmd]
    exact c.cmdDisarm_armed k hst
  case disarmIdle =>
    intro hcmd hst
    rw [c.runCommand_disarm k w (hlisten (by omega)) harm hcmd, c.cmdDisarm_idle k hst]
  case disarmIgnored =>
    intro hcmd hst
    rw [c.runCommand_disarm k w (hlisten (by omega)) harm hcmd]
    exact c.cmdDisarm_ignored k (by omega) (by omega)
  case moveStarts =>
    intro hcmd hst href
    rw [c.runCommand_move k w (hlisten (by omega)) (by omega), harm, c.chState_cmdMove k _ _ (hmay.mpr (by omega)) href, if_pos hcmd]
  case moveIgnored =>
    intro hcmd hst
    exact c.runCommand_move_ignored k w (by omega) (by rw [harm, if_neg Bool.false_ne_true, Bool.eq_false_iff, ne_eq, hmay]; omega)
  case tableStarts =>
    intro hcmd hst href
    rw [c.runCommand_move k w (hlisten (by omega)) (by omega), harm, c.chState_cmdMove k _ _ (hmay.mpr (by omega)) href,
      if_neg (by omega)]
  case tableIgnored =>
    intro hcmd hst
    exact c.runCommand_move_ignored k w (by omega) (by rw [harm, if_neg Bool.false_ne_true, Bool.eq_false_iff, ne_eq, hmay]; omega)
  case pauseRest =>
    intro hcmd hst
    rw [c.runCommand_pause k w (hlisten (by omega)) harm hcmd, c.cmdPause_rest k (by omega) (by omega)]
  case pauseMove =>
    intro hcmd hst
    rw [c.runCommand_pause k w (hlisten (by omega)) harm hcmd, c.cmdPause_runA k hst]
    exact Chip.chState_setChState _ k (by decide)
  case pauseTable =>
    intro r hcmd hst hr
    rw [c.runCommand_pause k w (hlisten (by omega)) harm hcmd, c.cmdPause_runB k hst hr]
    exact ⟨fun h => if_pos h, fun h => if_neg (Bool.eq_false_iff.mp h)⟩
  case resumeIgnored =>
    intro hcmd hst
    rw [c.runCommand_resume k w (hlisten (by omega)) harm hcmd]
    exact c.cmdResume_ignored k (by omega) (by omega)
  case resumeLatched =>
    intro hcmd hst ht
    rw [c.runCommand_resume k w (hlisten (by omega)) harm hcmd, c.cmdResume_latched k hst ht]
  case resumeTable =>
    intro hcmd hst ht hkept
    rw [c.runCommand_resume k w (hlisten (by omega)) harm hcmd]
    exact c.cmdResume_table k hst ht hkept
  case stopIdle =>
    intro hcmd hst
    rw [c.runCommand_stop k w (hlisten (by omega)) harm hcmd, c.cmdStop_idle k hst]
  case stopArmed =>
    intro hcmd hst
    rw [c.runCommand_stop k w (hlisten (by omega)) harm hcmd]
    exact c.cmdStop_armed k hst
  case stopRunning =>
    intro hcmd hst
    rw [c.runCommand_stop k w (hlisten (by omega)) harm hcmd, c.chState_cmdStop_running k hst]
  case stopPaused =>
    intro hcmd hst hk
    rw [c.runCommand_stop k w (hlisten (by omega)) harm hcmd, c.chState_cmdStop_paused hst hk]
  case unlisted => exact fun hcmd _ => c.runCommand_unlisted k w harm hcmd

end Sys2Proof.Machine
end

section
/-!
The events of the profile engine (O40): what each of them does in the chip when it is due.
-/
namespace Sys2Proof.Machine

/-! ## Fires and banks (R210, R213) -/

/-- A group fire whose tick has come joins the commands of this phase. -/
theorem Chip.dueFire_now (c : Chip) {g : Nat} (h : tabGet (fun _ => none) c.prf.fireAt g = some c.tick) :
    c.dueFire g = (c.setB (prfGrp g 4) 31 false).modPrf fun p =>
      { p with fireAt := tabPut (fun _ => none) p.fireAt g none, cmds := p.cmds ++ [PrfCmd.fire g] } := by
  simp only [Chip.dueFire, h, Nat.lt_irrefl, if_false, if_true]
  rfl

/-- A good bank whose verification ends is READY. -/
theorem Chip.verifyDone_good (c : Chip) {t : Nat} {m : TabCommit} (hv : c.regB (tblReg t 6) 29 = true) (hm : c.tabCommit t = some m)
    (hgood : c.bankGood t m.bank = true) : c.verifyDone t = (c.setB (tblReg t 6) 29 false).setB (tblReg t 6) 28 true := by
  simp only [Chip.verifyDone, hm, hv, hgood, Bool.not_true, Bool.false_eq_true, if_false, if_true]

/-- The end of a verification leaves whether a table is bound. -/
theorem Chip.tabBound_verified (c : Chip) (t : Nat) :
    (((c.setB (tblReg t 6) 29 false).setTabCommit t none).prfStat 3).tabBound t = c.tabBound t := by
  have hstat : tblReg t 6 ≠ 0x300000 := by unfold tblReg; omega
  change bit (((c.setReg _ _).setReg _ _).reg _) 31 = bit (c.reg (tblReg t 6)) 31
  rw [Chip.reg_setReg_ne _ _ _ _ hstat, Chip.reg_setReg, setBit, bit_setFld _ (by omega), if_neg (by omega)]

/-- A bad bank of an unbound table loses its commit, with the error in PRF_STAT. -/
theorem Chip.verifyDone_bad (c : Chip) {t : Nat} {m : TabCommit} (hv : c.regB (tblReg t 6) 29 = true) (hm : c.tabCommit t = some m)
    (hgood : c.bankGood t m.bank = false) (hbound : (c.bankMeets t m.bank).tabBound t = false) :
    c.verifyDone t = (((c.bankMeets t m.bank).setB (tblReg t 6) 29 false).setTabCommit t none).setB 0x300000 3 true := by
  simp only [Chip.verifyDone, hm, hv, hgood, Bool.not_true, Bool.false_eq_true, if_false, Chip.tabBound_verified, hbound]
  rfl

/-! ## The underrun allowance (R212) -/

/-- An allowance in its last tick, with no bank READY, ends in the underrun stop. -/
theorem Chip.allowanceEnds_last (c : Chip) {k : Nat} {r : TabRun} {n : Nat} {b : Int} (hr : (c.chan k).tab = some r)
    (hpast : r.past = some (n, b)) (hn : n ≤ 1) (hready : c.tabReady r.table = false) : c.allowanceEnds k = c.underrun k := by
  simp only [Chip.allowanceEnds, Chip.allowanceTick, hr, hpast, hready, hn, Bool.false_eq_true, if_false, if_true]

/-! ## Switches (R222, R223) -/

/-- The active level of switch `i` is in its last tick before QUAL. -/
structure Chip.LastTick (c : Chip) (k i : Nat) : Prop where
  counts : ((c.chan k).switch i).count ≠ 0
  level : ((c.chan k).switch i).level = true
  active : c.swActive k i = true
  unqualified : c.swLevel k i = false
  due : c.regF (homeReg k 0) 23 16 ≤ satN 255 (((c.chan k).switch i).count + 1)

/-- The chip with one more tick of switch `i` at its level. -/
def Chip.countSwitch (c : Chip) (k i : Nat) : Chip :=
  c.setChan k ((c.chan k).setSwitch i { (c.chan k).switch i with count := satN 255 (((c.chan k).switch i).count + 1) })

/-- In that tick, with no homing, the level is qualified. -/
theorem Chip.switchTick_qualifies (c : Chip) {k i : Nat} (hhoming : c.homing k = false) (h : c.LastTick k i) :
    c.switchTick k i =
      ((c.countSwitch k i).setB (homeReg k 16) (7 - i) true, some (true, ((c.chan k).switch i).start)) := by
  obtain ⟨hcounts, hlevel, hactive, hunqualified, hdue⟩ := h
  have hcounts' : (((c.chan k).switch i).count != 0) = true := bne_iff_ne.mpr hcounts
  have hreg : ∀ x, (c.setChan k x).regF (homeReg k 0) 23 16 = c.regF (homeReg k 0) 23 16 := fun _ => rfl
  have hlvl : ∀ x, (c.setChan k x).swLevel k i = c.swLevel k i := fun _ => rfl
  simp [Chip.switchTick, Chip.countSwitch, hhoming, hcounts', hlevel, hactive, hreg, hlvl, hdue, hunqualified]

/-- A limit that a channel in IDLE meets blocks its direction, with its cause. -/
theorem Chip.limitHit_idle (c : Chip) {k i : Nat} (hk : k < 256) (hst : c.chState k = stIdle) :
    (c.limitHit k i).1 =
      ((c.setB (homeReg k 16) (if i = 1 then 9 else 8) true).setB (homeReg k 16) 0 true).chCause k 11 := by
  have hbit : (if i = 1 then 9 else 8) < 28 := by split <;> decide
  have hst' : (((c.setB (homeReg k 16) (if i = 1 then 9 else 8) true).setB (homeReg k 16) 0 true).chCause k 11).chState k = stIdle := by
    rw [Chip.chState_chCause _ _ _ hk, Chip.chState_setB _ _ _ _ (by decide), Chip.chState_setB _ _ _ _ hbit, hst]
  simp only [Chip.limitHit, hst']
  rfl

/-- A limit switch that becomes active on a channel in IDLE, with no homing: the qualified level, the block and the cause. -/
theorem Chip.switchQualified_limit (c : Chip) {k i : Nat} (hk : k < 256) (hi : i ≠ 0) (hi3 : i < 3) (hhoming : c.hstate k = 0)
    (hst : c.chState k = stIdle) (h : c.LastTick k i) :
    c.switchQualified k i =
      ((((c.countSwitch k i).setB (homeReg k 16) (7 - i) true).setB (homeReg k 16) (if i = 1 then 9 else 8) true).setB
        (homeReg k 16) 0 true).chCause k 11 := by
  have hnot : c.homing k = false := by unfold Chip.homing; rw [hhoming]; rfl
  have hhome : (c.swIsHome k i || i == 0) = false := by
    unfold Chip.swIsHome; rw [hnot]; exact beq_eq_false_iff_ne.mpr hi
  unfold Chip.switchQualified
  rw [c.switchTick_qualifies hnot h]
  simp only [hhome, Bool.false_eq_true, if_false, if_true]
  exact Chip.limitHit_idle _ hk ((Chip.chState_setB _ k _ true (by omega)).trans hst)

/-! ## Homing (R226, R228, R230) -/

/-- The hard stop that has held for its ticks completes homing. -/
theorem Chip.stallDetected_due (c : Chip) {k : Nat} (hst : c.chState k = stHoming) (hh : c.hstate k = 1) (hm : c.hmode k = 4)
    (hstall : c.stallNow k = true) (hn : c.regF (homeReg k 0) 7 0 ≤ (c.chan k).home.stall + 1) :
    c.stallDetected k = c.homeStalled k :=
  if_pos ⟨hst, hh, hm, hstall, Nat.max_le.mpr ⟨Nat.le_add_left 1 _, hn⟩⟩

/-- A hysteresis window whose changes stay within CHAT_MAX closes and shows their number. -/
theorem Chip.windowCloses_last (c : Chip) {k : Nat} (hw : (c.chan k).home.window = some 1)
    (hn : (c.chan k).home.changes ≤ c.regF (homeReg k 0) 15 8) :
    c.windowCloses k = (c.modHome k fun h => { h with window := none }).setF (homeReg k 17) 7 0
      (satN 255 (c.chan k).home.changes) := by
  have hchat : decide ((c.chan k).home.changes > c.regF (homeReg k 0) 15 8) = false := decide_eq_false (Nat.not_lt.mpr hn)
  simp [Chip.windowCloses, Chip.windowTick, Chip.endWindow, Chip.windowOpen, hw, hchat]

/-- A written channel reads back. -/
@[simp] theorem Chip.chan_setChan (c : Chip) (k : Nat) (x : Chan) : (c.setChan k x).chan k = x := tabGet_put_self _ _ _ _

/-- The tick in which TIMEOUT has elapsed aborts homing with FAIL 2. -/
theorem Chip.homeTimesOut_due (c : Chip) {k : Nat} (hst : c.chState k = stHoming) (h0 : c.reg (homeReg k 11) ≠ 0)
    (ht : (c.reg (homeReg k 11)).toNat ≤ (c.chan k).home.elapsed + 1) :
    c.homeTimesOut k = ((c.modHome k fun h => { h with elapsed := h.elapsed + 1 }).homeAbort k 2).stopNow k := by
  have helapsed : ((c.modHome k fun h => { h with elapsed := h.elapsed + 1 }).chan k).home.elapsed = (c.chan k).home.elapsed + 1 := by
    unfold Chip.modHome Chip.modChan
    rw [Chip.chan_setChan]
  have hne : ((c.reg (homeReg k 11)).toNat != 0) = true := bne_iff_ne.mpr fun h => h0 (BitVec.eq_of_toNat_eq h)
  have hover : (c.homeClock k).2 = true := by
    unfold Chip.homeClock
    change ((c.reg (homeReg k 11)).toNat != 0 && decide (_ ≥ (c.reg (homeReg k 11)).toNat)) = true
    rw [hne, helapsed, decide_eq_true ht]
    rfl
  exact if_pos ⟨hst, hover⟩

/-! ## Stepper channels (R234, R235) -/

/-- A step pulse rises at the first instant that waits. -/
theorem Chip.stepPulse_rise (c : Chip) {s u : Nat} {rest : List Nat} (hnow : (c.stepper s).now = u :: rest)
    (hlow : (c.stepper s).step = false) :
    c.stepPulse s true = c.setStepper s { c.stepper s with now := rest, step := true } := by
  simp [Chip.stepPulse, hnow, hlow]

/-- What HOLDING becomes. -/
theorem Chip.holding_holdCurrent (c : Chip) (s : Nat) : (c.holdCurrent s).regB (stpReg s 10) 3 =
    (c.regB (stpReg s 0) 30 && c.regF (stpReg s 6) 31 16 != 0 && decide ((c.stepper s).rest ≥ c.regF (stpReg s 6) 31 16)) := by
  unfold Chip.holdCurrent Chip.regB Chip.setB
  rw [Chip.reg_setReg, bit_setBit _ _ (by omega)]

/-- A channel with pulses for its output has no holding current. -/
theorem Chip.holdSelected_pulses (c : Chip) {s : Nat} (h : c.regB (stpReg s 0) 30 = false) : c.holdSelected s = c := by
  have hnot : (c.holdCurrent s).regB (stpReg s 10) 3 = false := by rw [c.holding_holdCurrent, h]; rfl
  simp [Chip.holdSelected, hnot]

/-- A channel with currents that has rested for HOLDT ticks holds, and shows the reference of its last target count. -/
theorem Chip.holdSelected_due (c : Chip) {s : Nat} (hen : c.regB (stpReg s 0) 31 = true) (hout : c.regB (stpReg s 0) 30 = true)
    (hflt : c.regB (stpReg s 10) 1 = false) (h0 : c.regF (stpReg s 6) 31 16 ≠ 0)
    (hrest : c.regF (stpReg s 6) 31 16 ≤ (c.stepper s).rest) :
    c.holdSelected s = (c.stepper s).prev.elim (c.setB (stpReg s 10) 3 true)
      fun t => (c.setB (stpReg s 10) 3 true).stepRef s t true := by
  have hheld : (c.regB (stpReg s 0) 30 && c.regF (stpReg s 6) 31 16 != 0 &&
      decide ((c.stepper s).rest ≥ c.regF (stpReg s 6) 31 16)) = true := by
    rw [hout, bne_iff_ne.mpr h0, decide_eq_true hrest]; rfl
  have hset : c.holdCurrent s = c.setB (stpReg s 10) 3 true := congrArg (c.setB (stpReg s 10) 3) hheld
  have hbit : (c.setB (stpReg s 10) 3 true).regB (stpReg s 10) 3 = true := by rw [← hset, c.holding_holdCurrent, hheld]
  simp only [Chip.holdSelected, hset, hen, hflt, hbit, Bool.not_true, Bool.or_self, Bool.false_eq_true, if_false]
  cases (c.stepper s).prev <;> rfl

/-! ## The obligation -/

/-- An event that is live work leaves what its work makes of the chip. -/
theorem exec_of_live {s : State} {i : Instr} {f : Chip → Chip} {d : Chip} (hi : exec i s = s.live f) (halive : s.chip.alive)
    (hd : f s.chip = d) : exec i s = .next (s.withChip d) := by
  rw [hi, s.live_on f halive, hd]

/-- A change of the chip to `d`. -/
theorem State.onChip_gives (s : State) {c d : Chip} (hd : c = d) : s.onChip c = .next (s.withChip d) := by
  rw [hd]
  rfl

/-- Settles O40: each event is live work of the profile engine, and is due by its premises. -/
theorem profileEvents : Obligations.ProfileEvents := by
  unfold Obligations.ProfileEvents
  intro s halive
  dsimp only
  refine ⟨?fire, ?verify, ?underrun, ?switch, ?stall, ?window, ?timeout, ?stepper⟩
  case fire => exact fun g h => exec_of_live (f := (·.dueFire g.val)) rfl halive (s.chip.dueFire_now h)
  case verify =>
    intro t hv m hm
    refine ⟨fun hgood => ?_, fun hgood hbound => ?_⟩
    · exact s.onChip_gives (s.chip.verifyDone_good hv hm hgood)
    · exact s.onChip_gives (s.chip.verifyDone_bad hv hm hgood hbound)
  case underrun =>
    intro k r n b hr hpast hn hready
    exact exec_of_live (f := (·.allowanceEnds k.val)) rfl halive (s.chip.allowanceEnds_last hr hpast hn hready)
  case switch =>
    intro k j hj hhoming hst hcounts hlevel hactive hunqualified hdue
    exact exec_of_live (f := (·.switchQualified k.val j.val)) rfl halive
      (s.chip.switchQualified_limit k.isLt hj j.isLt hhoming hst ⟨hcounts, hlevel, hactive, hunqualified, hdue⟩)
  case stall =>
    intro k hst hh hm htorque hspeed hn
    have hstall : s.chip.stallNow k.val = true := by unfold Chip.stallNow; rw [htorque, hspeed]; rfl
    exact exec_of_live (f := (·.stallDetected k.val)) rfl halive (s.chip.stallDetected_due hst hh hm hstall hn)
  case window => exact fun k hw hn => exec_of_live (f := (·.windowCloses k.val)) rfl halive (s.chip.windowCloses_last hw hn)
  case timeout => exact fun k hst h0 ht => exec_of_live (f := (·.homeTimesOut k.val)) rfl halive (s.chip.homeTimesOut_due hst h0 ht)
  case stepper =>
    intro st
    refine ⟨fun u rest hnow hlow => ?rise, rfl, fun hout => ?pulses, fun hen hout hflt h0 hrest => ?hold⟩
    case rise => exact s.onChip_gives (s.chip.stepPulse_rise hnow hlow)
    case pulses => exact exec_of_live (f := (·.holdSelected st.val)) rfl halive (s.chip.holdSelected_pulses hout)
    case hold =>
      have hheld := s.chip.holdSelected_due hen hout hflt h0 hrest
      refine ⟨fun hprev => ?_, fun e hprev => ?_⟩ <;> rw [hprev] at hheld
      · exact exec_of_live (f := (·.holdSelected st.val)) rfl halive hheld
      · exact exec_of_live (f := (·.holdSelected st.val)) rfl halive hheld

end Sys2Proof.Machine
end

section
/-!
The commands of the separation unit (O47): what the events and the engine's accesses to memory leave as it is, the seal, the check and
its end, the results, the releases of arms in protective stop, and the writes to the words of the SEP block.
-/
namespace Sys2Proof.Machine

/-! ## Events (R114, R483) -/

/-- The host latch changes registers alone. -/
theorem Chip.hostLatch_frame (c : Chip) (n : Nat) : c.hostLatch n = { c with regs := (c.hostLatch n).regs } := by
  unfold Chip.hostLatch
  dsimp only
  split <;> rfl

/-- The host latch writes registers of the host block, from the host's event status on. -/
theorem Chip.reg_hostLatch (c : Chip) (n : Nat) {off : Nat} (h : off < 0xF00040) : (c.hostLatch n).reg off = c.reg off := by
  unfold Chip.hostLatch
  dsimp only
  split
  · exact (Chip.reg_setReg_ne _ _ _ _ (by omega)).trans (Chip.reg_setReg_ne _ _ _ _ (by omega))
  · rfl

/-- A source merges into its last firing, or fires now with its time of firing noted. -/
theorem Chip.fire_cases (c : Chip) (n : Nat) : c.fire n = c ∨ ∃ l, c.fire n = ({ c with lastFire := l } : Chip).fireNow n := by
  unfold Chip.fire
  split
  · exact .inr ⟨c.lastFire, rfl⟩
  · extract_lets now due
    by_cases h : due = true
    · exact .inr ⟨_, if_pos h⟩
    · exact .inl (if_neg h)

/-- An event changes registers, what has reached the scheduler, and the time of its last firing. -/
theorem Chip.fire_frame (c : Chip) (n : Nat) :
    c.fire n = { c with regs := (c.fire n).regs, sched := (c.fire n).sched, lastFire := (c.fire n).lastFire } := by
  obtain h | ⟨l, h⟩ := c.fire_cases n
  · rw [h]
  · rw [h, Chip.fireNow, Chip.hostLatch_frame]

/-- An event leaves the tick. -/
@[simp] theorem Chip.fire_tick (c : Chip) (n : Nat) : (c.fire n).tick = c.tick := by rw [c.fire_frame n]

/-- An event leaves the separation engine. -/
@[simp] theorem Chip.fire_sep (c : Chip) (n : Nat) : (c.fire n).sep = c.sep := by rw [c.fire_frame n]

/-- An event writes registers of the host block, from the host's event status on. -/
theorem Chip.reg_fire (c : Chip) (n : Nat) {off : Nat} (hoff : off < 0xF00040) : (c.fire n).reg off = c.reg off := by
  obtain h | ⟨l, h⟩ := c.fire_cases n
  · rw [h]
  · rw [h]
    exact Chip.reg_hostLatch _ n hoff

/-! ## The engine's accesses to memory (R420, R422) -/

/-- A refused store leaves the tick. -/
@[simp] theorem Chip.badStore_tick (c : Chip) (m kind a : Nat) : (c.badStore m kind a).tick = c.tick := Chip.fire_tick _ _

/-- Bytes into mapped memory leave the tick. -/
@[simp] theorem Chip.putBytes_tick (c : Chip) (a : Nat) (bs : List Byte) : (c.putBytes a bs).tick = c.tick := by rw [c.putBytes_frame a bs]

/-- Marks of lines leave the tick. -/
theorem Chip.markLines_tick (ls : List Nat) (f : Chip → Nat → Line) (c : Chip) :
    (forL ls (fun l c => c.setLine l (f c l)) c).tick = c.tick :=
  forL_keeps (fun d : Chip => d.tick = c.tick) ls (fun l c => c.setLine l (f c l)) (fun _ _ h => h) c rfl

/-- The bytes of a window write leave the tick. -/
@[simp] theorem Chip.windowBytes_tick (c : Chip) (m a : Nat) (bs : List Byte) : (c.windowBytes m a bs).tick = c.tick :=
  (Chip.putBytes_tick _ _ _).trans (Chip.markLines_tick _ (fun c l => { c.line l with poisoned := false }) c)

/-- A write to a pod's instruction memory and to its image copy leaves the tick. -/
@[simp] theorem Chip.imemWrite_tick (c : Chip) (m n o : Nat) (bs : List Byte) : (c.imemWrite m n o bs).tick = c.tick := by
  unfold Chip.imemWrite
  extract_lets window image
  have hwindow : window.tick = c.tick := c.windowBytes_tick _ _ _
  split
  · exact hwindow
  · have hmarked := Chip.markLines_tick (linesOf image bs.length) (fun c l => { c.line l with noSource := true })
      (window.windowBytes m image bs)
    exact hmarked.trans ((window.windowBytes_tick _ _ _).trans hwindow)

/-- A store within one line leaves the tick. -/
@[simp] theorem Chip.storePart_tick (c : Chip) (m a : Nat) (bs : List Byte) : (c.storePart m a bs).tick = c.tick := by
  unfold Chip.storePart
  split
  · rfl
  · split
    · exact c.imemWrite_tick _ _ _ _
    · exact (Chip.putBytes_tick _ _ _).trans (Chip.markLines_tick _ (fun c l => { c.line l with poisoned := false }) c)

/-- A store of the engine leaves the tick. -/
@[simp] theorem Chip.engineStore_tick (c : Chip) (a : Nat) (bs : List Byte) : (c.engineStore a bs).tick = c.tick := by
  have hparts : ∀ ps : List (Nat × List Byte),
      (forL ps (fun p d => if c.storable 44 p.1 then d.storePart 44 p.1 p.2 else d) c).tick = c.tick := fun ps =>
    forL_keeps (fun d : Chip => d.tick = c.tick) _ _ (fun p d h => by split <;> simp [h]) c rfl
  unfold Chip.engineStore Chip.memStore
  dsimp only
  split
  · exact hparts _
  · rw [Chip.badStore_tick]
    exact hparts _

/-- The poisoned lines that the engine meets leave the tick. -/
@[simp] theorem Chip.engineMeets_tick (c : Chip) (a n : Nat) : (c.engineMeets a n).tick = c.tick := by
  refine forL_keeps (fun d : Chip => d.tick = c.tick) _ _ (fun l d h => ?_) c rfl
  exact (Chip.fire_tick _ _).trans h

/-! ## Protective stop and release (R261) -/

/-- Whether arm `a` stands in protective stop with AUTO 1 for AUTOREL frames, its release not yet requested. -/
def Chip.autoDue (c : Chip) (a : Nat) : Bool :=
  c.sepPstop a && c.regB (sepArm a 0) 29 && !c.sepRel a &&
    decide (c.regF (sepArm a 0) 23 8 ≤ tabGet (fun _ => 0) c.sep.stopped a)

/-- The control word of arm `a` after the automatic releases. -/
def Chip.autoWord (c : Chip) (a : Nat) : W32 :=
  if c.autoDue a then setBit (c.reg (sepArm a 0)) 25 true else c.reg (sepArm a 0)

/-- `d` is `c` with the automatic releases of its first `n` arms. -/
structure Chip.AutoReleased (c : Chip) (n : Nat) (d : Chip) : Prop where
  frame : d = { c with regs := d.regs }
  word : ∀ a, a < n → d.reg (sepArm a 0) = c.autoWord a
  other : ∀ off, (∀ a, a < n → off ≠ sepArm a 0) → d.reg off = c.reg off

/-- The words of the arms are different words. -/
theorem sepArm_inj {a b w x : Nat} (hw : w < 16) (hx : x < 16) : sepArm a w = sepArm b x ↔ a = b ∧ w = x := by
  simp only [sepArm]; omega

/-- What each turn of a counted loop carries on from its number to the next holds of all of them at the end. -/
theorem forN_counts {α : Type} (P : Nat → α → Prop) (f : Nat → α → α) (n : Nat) (h : ∀ k a, k < n → P k a → P (k + 1) (f k a))
    (a : α) (ha : P 0 a) : P n (forN n f a) := by
  induction n with
  | zero => exact ha
  | succ n ih =>
    unfold forN at *
    rw [List.range_succ, List.foldl_append]
    exact h n _ (Nat.lt_succ_self n) (ih fun k a hk => h k a (Nat.lt_succ_of_lt hk))

/-- The turn of the next arm. -/
theorem Chip.AutoReleased.next {c d : Chip} {n : Nat} (h : c.AutoReleased n d) :
    c.AutoReleased (n + 1) (if d.autoDue n then d.setB (sepArm n 0) 25 true else d) := by
  obtain ⟨hframe, hword, hother⟩ := h
  have hn : d.reg (sepArm n 0) = c.reg (sepArm n 0) :=
    hother _ fun a ha heq => absurd ((sepArm_inj (by omega) (by omega)).mp heq).1 (by omega)
  have hsep : d.sep = c.sep := by rw [hframe]
  have hdue : d.autoDue n = c.autoDue n := by
    unfold Chip.autoDue Chip.sepPstop Chip.sepRel Chip.regB Chip.regF
    rw [hn, hsep]
  rw [hdue]
  cases hc : c.autoDue n
  · refine ⟨hframe, fun a ha => ?_, fun off hoff => hother off fun a ha => hoff a (by omega)⟩
    obtain hlt | rfl : a < n ∨ a = n := by omega
    · exact hword a hlt
    · rw [if_neg Bool.false_ne_true, hn, Chip.autoWord, hc, if_neg Bool.false_ne_true]
  · refine ⟨by rw [hframe]; rfl, fun a ha => ?_, fun off hoff => ?_⟩
    · obtain hlt | rfl : a < n ∨ a = n := by omega
      · have hne : sepArm a 0 ≠ sepArm n 0 := fun heq => absurd ((sepArm_inj (by omega) (by omega)).mp heq).1 (by omega)
        exact (d.reg_setReg_ne _ _ _ hne).trans (hword a hlt)
      · rw [if_pos rfl, Chip.setB, Chip.reg_setReg, hn, Chip.autoWord, hc, if_pos rfl]
    · exact (d.reg_setReg_ne _ _ _ (hoff n (Nat.lt_succ_self n))).trans (hother off fun a ha => hoff a (by omega))

/-- The automatic releases are those of the sixteen arms. -/
theorem Chip.autoRelease_released (c : Chip) : c.AutoReleased 16 c.autoRelease :=
  forN_counts c.AutoReleased _ 16 (fun _ _ _ h => h.next) c ⟨rfl, fun _ h => absurd h (Nat.not_lt_zero _), fun _ _ => rfl⟩

/-- They leave the tick. -/
@[simp] theorem Chip.autoRelease_tick (c : Chip) : c.autoRelease.tick = c.tick := by rw [c.autoRelease_released.frame]

/-- They leave the engine's own state. -/
@[simp] theorem Chip.autoRelease_sep (c : Chip) : c.autoRelease.sep = c.sep := by rw [c.autoRelease_released.frame]

/-- An arm's release is requested after them if it was before, or its frames have passed. -/
theorem Chip.sepRel_autoRelease (c : Chip) {a : Nat} (ha : a < 16) : c.autoRelease.sepRel a =
    (c.sepRel a || (c.sepPstop a && c.regB (sepArm a 0) 29 &&
      decide (c.regF (sepArm a 0) 23 8 ≤ tabGet (fun _ => 0) c.sep.stopped a))) := by
  rw [Chip.sepRel, Chip.regB, c.autoRelease_released.word a ha, Chip.autoWord]
  have hrel : bit (c.reg (sepArm a 0)) 25 = c.sepRel a := rfl
  cases hr : c.sepRel a
  · split
    · next hdue => rw [bit_setBit _ _ (by omega), Bool.false_or]; simpa [Chip.autoDue, hr] using hdue.symm
    · next hdue => rw [hrel, hr, Bool.false_or]; simpa [Chip.autoDue, hr] using hdue
  · have hdue : c.autoDue a = false := by simp only [Chip.autoDue, hr, Bool.not_true, Bool.and_false, Bool.false_and]
    rw [hdue, if_neg Bool.false_ne_true, hrel, hr, Bool.true_or]

/-- The other words of the arms stay. -/
theorem Chip.reg_autoRelease (c : Chip) {a w : Nat} (h0 : w ≠ 0) (hw : w < 16) :
    c.autoRelease.reg (sepArm a w) = c.reg (sepArm a w) :=
  c.autoRelease_released.other _ fun b _ heq => h0 ((sepArm_inj hw (by omega)).mp heq).2

/-! ## The seal (R242) -/

/-- The seal is not due twice in a frame, nor at any tick but POSE_TICK. -/
theorem Chip.seal_idle (c : Chip) (h : c.tick % c.planFrame ≠ c.poseTick ∨ c.sep.sealedAt = some c.tick) : c.seal = c := by
  unfold Chip.seal
  rw [if_pos]
  obtain h | h := h <;> simp [h]

/-- A seal that is due marks its tick. -/
theorem Chip.sealedAt_seal (c : Chip) (ht : c.ticking = true) (hp : c.tick % c.planFrame = c.poseTick)
    (hs : c.sep.sealedAt ≠ some c.tick) : c.seal.sep.sealedAt = some c.tick := by
  have hloop : ∀ (n : Nat) (f : Nat → Chip → Chip), (∀ k d, (f k d).tick = d.tick) → ∀ d : Chip, (forN n f d).tick = d.tick :=
    fun n f hf d => forN_keeps (fun e : Chip => e.tick = d.tick) f n (fun k e _ h => (hf k e).trans h) d rfl
  unfold Chip.seal
  rw [if_neg (by simp [ht, hp, hs])]
  extract_lets released base named armed held tracked met summed
  have hreleased : released.tick = c.tick := c.autoRelease_tick
  have hnamed : named.tick = released.tick := released.engineStore_tick _ _
  have harmed : armed.tick = named.tick := hloop _ _ (fun a d => d.engineStore_tick _ _) named
  have hheld : held.tick = armed.tick := hloop _ _ (fun z d => by split <;> simp) armed
  have htracked : tracked.tick = held.tick := hloop _ _ (fun t d => by split <;> simp) held
  have hmet : met.tick = tracked.tick := tracked.engineMeets_tick _ _
  have hsummed : summed.tick = met.tick := met.engineStore_tick _ _
  rw [Chip.fire_sep]
  exact congrArg some (by rw [hsummed, hmet, htracked, hheld, harmed, hnamed, hreleased])

/-! ## The check (R259, R264) -/

/-- The check is not due twice in a frame, nor at any tick but CHK_TICK, nor without the own set. -/
theorem Chip.sepCheck_idle (c : Chip) (h : c.tick % c.planFrame ≠ c.chkTick ∨ c.sep.checkedAt = some c.tick ∨
    c.setUsable c.position = false) : c.sepCheck = c := by
  unfold Chip.sepCheck
  rw [if_pos]
  obtain h | h | h := h <;> simp [h]

/-- A check that is due reads the sets of the positions in the ring and leaves its results with the engine, with VIEW_MISS where a
set does not count. -/
theorem Chip.sepCheck_due (c : Chip) (ht : c.ticking = true) (hk : c.tick % c.planFrame = c.chkTick)
    (hs : c.sep.checkedAt ≠ some c.tick) (hown : c.setUsable c.position = true) :
    ∃ x : Sep, c.sepCheck = { forL c.positionsIn (fun p c => c.engineMeets (c.viewAddr p) 0x22000) c with sep := x } ∧
      x.checkedAt = some c.tick ∧ x.result.isSome = true ∧ x.viewMiss = !(c.positionsIn.all c.setUsable) := by
  have hmiss : (c.positionsIn.length != (c.positionsIn.filter c.setUsable).length) = !(c.positionsIn.all c.setUsable) := by
    rw [bne, Bool.not_inj_iff, Bool.eq_iff_iff, beq_iff_eq, eq_comm, List.length_filter_eq_length_iff, List.all_eq_true]
  unfold Chip.sepCheck
  rw [if_neg (by simp [ht, hk, hs, hown])]
  exact ⟨_, rfl, rfl, rfl, hmiss⟩

/-- The chip with the rows of the results and the rounds shown in SEP_RES and SEP_STAT. -/
def Chip.showRows (c : Chip) (rows : List (Nat × List W32)) (rounds : Nat) : Chip :=
  (forL rows (fun r c => (List.range 4).foldl (fun c w => c.setReg (sepRes r.1 w) (r.2.getD w 0)) c)
    (forN 512 (fun i c => c.setReg (0x505000 + 4 * i) 0) c)).setF 0x500000 20 16 rounds

/-- The chip with the units of a check shown in SEP_UNITS, and their largest number in SEP_PEAK. -/
def Chip.showUnits (c : Chip) (units : Nat) : Chip :=
  let c := c.setReg 0x50002C (BitVec.ofNat 32 units)
  c.setReg 0x500030 (BitVec.ofNat 32 (max units (c.reg 0x500030).toNat))

/-- The chip with the status bits and the events of a check. -/
def Chip.showEvents (c : Chip) (events : List Nat) : Chip :=
  let c := if events.contains 5 then c.sepStat 4 else c
  let c := if events.contains 6 then c.sepStat 5 else c
  forL events (fun n c => c.fire (384 + n)) (c.fire 384)

/-- What the end of a check shows. -/
theorem Chip.checkDone_some (c : Chip) {rows : List (Nat × List W32)} {events : List Nat} {units rounds : Nat}
    (h : c.sep.result = some (rows, events, units, rounds)) : c.checkDone =
      (((c.showRows rows rounds).showUnits units).showEvents events).modSep fun s => { s with result := none } := by
  unfold Chip.checkDone
  rw [h]
  rfl

/-- The engine's own state, SEP_UNITS and SEP_PEAK are in `d` as in `c`. -/
structure Chip.SameUnits (c d : Chip) : Prop where
  sep : d.sep = c.sep
  units : d.reg 0x50002C = c.reg 0x50002C
  peak : d.reg 0x500030 = c.reg 0x500030

/-- A write to another register keeps them. -/
theorem Chip.SameUnits.setReg {c d : Chip} (h : c.SameUnits d) {off : Nat} (v : W32) (hu : 0x50002C ≠ off) (hp : 0x500030 ≠ off) :
    c.SameUnits (d.setReg off v) :=
  ⟨h.sep, (d.reg_setReg_ne _ _ _ hu).trans h.units, (d.reg_setReg_ne _ _ _ hp).trans h.peak⟩

/-- An event keeps them. -/
theorem Chip.SameUnits.fire {c d : Chip} (h : c.SameUnits d) (n : Nat) : c.SameUnits (d.fire n) :=
  ⟨(d.fire_sep n).trans h.sep, (d.reg_fire n (by omega)).trans h.units, (d.reg_fire n (by omega)).trans h.peak⟩

/-- The rows of the results keep them. -/
theorem Chip.sameUnits_showRows (c : Chip) (rows : List (Nat × List W32)) (rounds : Nat) : c.SameUnits (c.showRows rows rounds) := by
  have hcleared : c.SameUnits (forN 512 (fun i c => c.setReg (0x505000 + 4 * i) 0) c) :=
    forN_keeps c.SameUnits _ 512 (fun i d _ h => h.setReg 0 (by omega) (by omega)) c ⟨rfl, rfl, rfl⟩
  have hrow : ∀ (r : Nat × List W32) (d : Chip), c.SameUnits d →
      c.SameUnits (forL (List.range 4) (fun w c => c.setReg (sepRes r.1 w) (r.2.getD w 0)) d) := fun r d hd =>
    forL_keeps c.SameUnits _ _ (fun w e h => h.setReg _ (by unfold sepRes; omega) (by unfold sepRes; omega)) d hd
  exact (forL_keeps c.SameUnits rows _ hrow _ hcleared).setReg _ (by decide) (by decide)

/-- The status bits and the events of a check keep them. -/
theorem Chip.sameUnits_showEvents (c : Chip) (events : List Nat) : c.SameUnits (c.showEvents events) := by
  have hstat : ∀ (d : Chip) (p : Bool) (b : Nat), c.SameUnits d → c.SameUnits (if p then d.sepStat b else d) := by
    intro d p b hd
    cases p
    · exact hd
    · exact hd.setReg _ (by decide) (by decide)
  exact forL_keeps c.SameUnits events _ (fun n d h => h.fire (384 + n)) _ ((hstat _ _ 5 (hstat c _ 4 ⟨rfl, rfl, rfl⟩)).fire 384)

/-- The end of a check takes its results from the engine and shows its units, and the largest number of units since SEP_PEAK was
read. -/
theorem Chip.checkDone_shows (c : Chip) {rows : List (Nat × List W32)} {events : List Nat} {units rounds : Nat}
    (h : c.sep.result = some (rows, events, units, rounds)) :
    c.checkDone.sep = { c.sep with result := none } ∧ c.checkDone.reg 0x50002C = BitVec.ofNat 32 units ∧
      c.checkDone.reg 0x500030 = BitVec.ofNat 32 (max units (c.reg 0x500030).toNat) := by
  obtain ⟨hsep, -, hpeak⟩ := c.sameUnits_showRows rows rounds
  obtain ⟨hsep', hunits', hpeak'⟩ := ((c.showRows rows rounds).showUnits units).sameUnits_showEvents events
  rw [c.checkDone_some h]
  refine ⟨?_, hunits'.trans ?_, hpeak'.trans ?_⟩
  · exact congrArg (fun x : Sep => { x with result := none }) (hsep'.trans hsep)
  · exact (Chip.reg_setReg_ne _ _ _ _ (by decide)).trans (Chip.reg_setReg _ _ _)
  · unfold Chip.showUnits
    rw [Chip.reg_setReg, Chip.reg_setReg_ne _ _ _ _ (by decide), hpeak]

/-! ## The results (R262) -/

/-- In the first tick of a frame the results of the last check are applied, arm by arm. -/
theorem Chip.resultApply_due (c : Chip) (ht : c.ticking = true) (h0 : c.tick % c.planFrame = 0) : c.resultApply =
    (forL c.sep.apply (fun e c => c.applyArm e.1 e.2.1 e.2.2.1 e.2.2.2) c).modSep fun x => { x with apply := [], published := [] } := by
  unfold Chip.resultApply
  rw [if_neg (by simp [ht, h0])]

/-! ## The words of the SEP block (R265) -/

/-- The SEP map assigns an array of words: `count` of them from `off` on, `stride` apart. -/
def SepArray (off stride count : Nat) : Prop := ∃ d ∈ sepMap, d.off = off ∧ d.stride = stride ∧ d.count = count

/-- The release register is assigned. -/
theorem SepArray.release : SepArray 0x34 4 1 := by unfold SepArray; decide

/-- The words of the arms are assigned. -/
theorem SepArray.arm : ∀ w : Fin 16, SepArray (0x1000 + 4 * w.val) 64 16 := by unfold SepArray; decide

/-- The rows of the SEP map end within its block. -/
theorem sepMap_within_block : ∀ d ∈ sepMap, 0 < d.stride ∧ d.off + d.stride * (d.count - 1) < 0x100000 := by decide

/-- A write to word `i` of an array of the SEP block that leaves no request is what the separation engine makes of it. -/
theorem State.regw_sep (s : State) (m : Master) {off x base stride count i : Nat} {v : W32} {d : Chip}
    (ha : SepArray base stride count) (hi : i < count) (hx : x = base + stride * i) (hoff : off = 0x500000 + x)
    (hd : s.chip.sepWrite x v = d) (hq : d.quiet = true) : s.regw m off v = .next (s.withChip d) := by
  obtain ⟨row, hrow, rfl, rfl, rfl⟩ := ha
  obtain ⟨hstride, hend⟩ := sepMap_within_block row hrow
  have hle : row.stride * i ≤ row.stride * (row.count - 1) := Nat.mul_le_mul_left _ (by omega)
  have hblock : off / 0x100000 = 5 := by omega
  have hword : off % 0x100000 = x := by omega
  have hdesc : (regDesc off).isNone = false := by
    rw [Option.isNone_eq_false_iff, regDesc, hblock, hword, List.find?_isSome]
    exact ⟨row, hrow, (RegDesc.has_iff x hstride).mpr ⟨i, hi, hx⟩⟩
  have hwrite : s.chip.blockWrite off v = d := by simp only [Chip.blockWrite, hblock, hword, hd]
  rw [← hwrite] at hq ⊢
  exact s.regw_open m off v (by omega) (by omega) hdesc (by omega) hq

/-- A write that is ignored sets CFG_IGN. -/
theorem Chip.sepIgn_eq (c : Chip) : c.sepIgn = c.setB 0x500000 2 true := rfl

/-- A write to SEP_PSREL asks for the release of an arm. -/
theorem exec_sepPsrel (s : State) (m : Master) (v : W32) {d : Chip} (hd : s.chip.psrelWrite v = d) (hq : d.quiet = true) :
    exec (.sepPsrel m v) s = .next (s.withChip d) :=
  s.regw_sep m SepArray.release Nat.zero_lt_one rfl rfl hd hq

/-- The release of an arm in protective stop becomes pending. -/
theorem Chip.psrelWrite_stopped (c : Chip) {v : W32} (h : c.sepPstop (fld v 3 0) = true) :
    c.psrelWrite v = c.setB (sepArm (fld v 3 0) 0) 25 true := by
  simp only [Chip.psrelWrite, h, if_true]

/-- For an arm that stands in none the write is ignored, with CFG_IGN. -/
theorem Chip.psrelWrite_ignored (c : Chip) {v : W32} (h : c.sepPstop (fld v 3 0) = false) :
    c.psrelWrite v = c.setB 0x500000 2 true := by
  simp only [Chip.psrelWrite, h, Bool.false_eq_true, if_false, Chip.sepIgn_eq]

/-- A write to a word of an arm is the separation engine's. -/
theorem exec_sepArmWrite (s : State) (m : Master) (a w : Fin 16) (v : W32) {d : Chip}
    (hd : s.chip.sepArmWrite a.val w.val v = d) (hq : d.quiet = true) : exec (.sepArmWrite m a w v) s = .next (s.withChip d) := by
  refine s.regw_sep m (off := sepArm a.val w.val) (x := 0x1000 + 64 * a.val + 4 * w.val) (SepArray.arm w) a.isLt (by omega)
    (by unfold sepArm; omega) ?_ hq
  rw [Chip.sepWrite, if_neg (by omega), if_neg (by omega), if_pos (by omega), ← hd]
  congr 1 <;> omega

/-- In CONFIG the control word of an arm is written by the map. -/
theorem Chip.sepArmWrite_control (c : Chip) (a : Nat) (v : W32) (h : c.inConfig = true) :
    c.sepArmWrite a 0 v = c.mapWrite (sepArm a 0) v := by
  simp only [Chip.sepArmWrite, h, if_true]

/-- KSW is taken at any time if it is from 0 to 1. -/
theorem Chip.sepArmWrite_scale (c : Chip) (a : Nat) {v : W32} (h0 : nonneg32 v = true) (h1 : f32Le v f32One = true) :
    c.sepArmWrite a 2 v = c.setReg (sepArm a 2) v := by
  simp [Chip.sepArmWrite, h0, h1]

/-- Any other KSW is ignored, with CFG_IGN. -/
theorem Chip.sepArmWrite_scale_ignored (c : Chip) (a : Nat) {v : W32} (h : nonneg32 v = false ∨ f32Le v f32One = false) :
    c.sepArmWrite a 2 v = c.setB 0x500000 2 true := by
  have hbad : (nonneg32 v && f32Le v f32One) = false := by obtain h | h := h <;> simp [h]
  simp [Chip.sepArmWrite, hbad, Chip.sepIgn_eq]

/-- Words 3 to 9 of an enabled arm ignore a write, with CFG_IGN. -/
theorem Chip.sepArmWrite_locked (c : Chip) {a w : Nat} (v : W32) (h3 : 3 ≤ w) (h10 : w < 10) (hen : c.sepArmEn a = true) :
    c.sepArmWrite a w v = c.setB 0x500000 2 true := by
  rw [Chip.sepArmWrite, if_neg (by omega), if_neg (by omega), if_neg (by omega), if_pos h10, if_pos (by simp [hen]),
    Chip.sepIgn_eq]

/-- Words 5, 6, 8 and 9 of a disabled arm, whose values have no bound, take the written word. -/
theorem Chip.sepArmWrite_open (c : Chip) {a w : Nat} (v : W32) (hw : w = 5 ∨ w = 6 ∨ 8 ≤ w) (h10 : w < 10)
    (hen : c.sepArmEn a = false) : c.sepArmWrite a w v = c.setReg (sepArm a w) v := by
  have hsign : (c.sepArmEn a || ((w == 3 || w == 4) && !nonneg32 v) || (w == 7 && !positive32 v)) = false := by
    have h3 : (w == 3) = false := beq_eq_false_iff_ne.mpr (by omega)
    have h4 : (w == 4) = false := beq_eq_false_iff_ne.mpr (by omega)
    have h7 : (w == 7) = false := beq_eq_false_iff_ne.mpr (by omega)
    simp [hen, h3, h4, h7]
  rw [Chip.sepArmWrite, if_neg (by omega), if_neg (by omega), if_neg (by omega), if_pos h10, hsign, if_neg Bool.false_ne_true]

/-! ## The obligation -/

/-- Settles O47: each command is live work of the separation engine or a write of its block, with the effect that its case gives. -/
theorem separationCommands : Obligations.SeparationCommands := by
  unfold Obligations.SeparationCommands
  intro s m halive hq
  have hticks := halive.1
  dsimp only
  refine ⟨?sealed, ?unsealed, ?check, ?checkIdle, ?done, ?results, ?release, ?auto, ?arm⟩
  case sealed =>
    intro hp hs
    exact ⟨_, exec_of_live (f := Chip.seal) rfl halive rfl, s.chip.sealedAt_seal hticks hp hs, rfl, rfl⟩
  case unsealed => exact fun h => exec_of_live (f := Chip.seal) rfl halive (s.chip.seal_idle h)
  case check =>
    intro hk hs hown
    obtain ⟨x, hx, hat, hresult, hmiss⟩ := s.chip.sepCheck_due hticks hk hs hown
    exact ⟨_, x, exec_of_live (f := Chip.sepCheck) rfl halive hx, rfl, hat, hresult, hmiss⟩
  case checkIdle => exact fun h => exec_of_live (f := Chip.sepCheck) rfl halive (s.chip.sepCheck_idle h)
  case done =>
    intro rows events units rounds h
    exact ⟨_, exec_of_live (f := Chip.checkDone) rfl halive rfl, s.chip.checkDone_shows h⟩
  case results =>
    exact fun h => exec_of_live (f := Chip.resultApply) rfl halive (s.chip.resultApply_due hticks h)
  case release =>
    exact fun v => ⟨fun h => exec_sepPsrel s m v (s.chip.psrelWrite_stopped h) hq,
      fun h => exec_sepPsrel s m v (s.chip.psrelWrite_ignored h) hq⟩
  case auto =>
    exact ⟨_, exec_of_live (f := Chip.autoRelease) rfl halive rfl, fun a ha => s.chip.sepRel_autoRelease ha,
      fun a w _ h0 hw => s.chip.reg_autoRelease h0 hw, s.chip.autoRelease_sep⟩
  case arm =>
    intro a v
    refine ⟨fun hc => ?control, ?deadline, fun h0 h1 => ?scale, fun h => ?scaleIgnored,
      fun w h3 => ⟨fun hen => ?locked, fun hen hw => ?unlocked⟩⟩
    case control => exact exec_sepArmWrite s m a 0 v (s.chip.sepArmWrite_control a v hc) ((s.chip.quiet_mapWrite _ _).trans hq)
    case deadline => exact exec_sepArmWrite s m a 1 v rfl hq
    case scale => exact exec_sepArmWrite s m a 2 v (s.chip.sepArmWrite_scale a h0 h1) hq
    case scaleIgnored => exact exec_sepArmWrite s m a 2 v (s.chip.sepArmWrite_scale_ignored a h) hq
    case locked => exact exec_sepArmWrite s m a _ v (s.chip.sepArmWrite_locked v h3 w.isLt hen) hq
    case unlocked => exact exec_sepArmWrite s m a _ v (s.chip.sepArmWrite_open v hw w.isLt hen) hq

end Sys2Proof.Machine
end

section
/-!
The Husk's operations: what each leaves as it is, the tests and tables that every operation keeps, and the rule that outputs which
follow their permission are safe (R276, R277, R279).
-/
namespace Sys2Proof.Machine

/-! ## Pairs, outputs and events -/

/-- A pair after a write of a pair. -/
theorem Husk.pair_setPair_eq (h : Husk) (n k : Nat) (p : HPair) : (h.setPair n p).pair k = if k = n then p else h.pair k := by
  split
  case isTrue e => rw [e, h.pair_setPair]
  case isFalse e => exact h.pair_setPair_ne n k p e

/-- An output after a write of an output. -/
theorem Husk.out_setOut_eq (h : Husk) (m k : Nat) (o : HOut) : (h.setOut m o).out k = if k = m then o else h.out k := by
  split
  case isTrue e => rw [e, h.out_setOut]
  case isFalse e => exact h.out_setOut_ne m k o e

/-- An event changes the events of the next telegram alone. -/
theorem Husk.ev_frame (h : Husk) (n : Nat) : h.ev n = { h with evs := (h.ev n).evs } := by
  unfold Husk.ev
  split <;> rfl

/-- A lock-out changes the reset machine alone. -/
theorem Husk.blockReset_frame (h : Husk) : h.blockReset = { h with rst := h.blockReset.rst } := by
  unfold Husk.blockReset
  split <;> rfl

/-- An event leaves the pairs. -/
@[simp] theorem Husk.pair_ev (h : Husk) (n k : Nat) : (h.ev n).pair k = h.pair k := by rw [h.ev_frame n]; rfl

/-- A lock-out leaves the pairs. -/
@[simp] theorem Husk.pair_blockReset (h : Husk) (k : Nat) : h.blockReset.pair k = h.pair k := by rw [h.blockReset_frame]; rfl

/-! ## What the moves of the pairs keep -/

/-- The qualified levels of a pair. -/
def HPair.levels (p : HPair) : Bool × Bool × Bool × Bool := (p.lvlA, p.lvlB, p.qualA, p.qualB)

/-- A property that an event keeps, and a change of a pair which leaves the pair's levels. -/
structure Husk.KeptByMoves (P : Husk → Prop) : Prop where
  setPair : ∀ (h : Husk) (n : Nat) (p : HPair), p.levels = (h.pair n).levels → P h → P (h.setPair n p)
  ev : ∀ (h : Husk) (n : Nat), P h → P (h.ev n)

section
variable {P : Husk → Prop} (hP : Husk.KeptByMoves P) {h : Husk}
include hP

theorem Husk.KeptByMoves.enterDemand (n : Nat) (hh : P h) : P (h.enterDemand n) :=
  hP.ev _ _ (hP.setPair _ _ _ rfl hh)

theorem Husk.KeptByMoves.setHands (e : Nat) (st : PairState) (seq : Nat) (hh : P h) : P (h.setHands e st seq) := by
  refine hP.setPair _ _ _ ?_ (hP.setPair _ _ _ rfl hh)
  rw [h.pair_setPair_ne _ _ _ (by omega)]
  rfl

theorem Husk.KeptByMoves.handsClear (e : Nat) (hh : P h) : P (h.handsClear e) := by
  unfold Husk.handsClear
  split
  · exact hP.ev _ _ (hP.setHands _ _ _ hh)
  · exact hh

theorem Husk.KeptByMoves.evalPair (n : Nat) (hh : P h) : P (h.evalPair n) := by
  unfold Husk.evalPair
  dsimp only
  split
  case h_1 | h_2 =>
    split
    · exact hP.enterDemand n hh
    · exact hh
  case h_3 | h_4 | h_5 =>
    split
    · exact hP.setPair _ _ _ rfl hh
    · exact hh

theorem Husk.KeptByMoves.evalHands (e : Nat) (hh : P h) : P (h.evalHands e) := by
  unfold Husk.evalHands
  dsimp only
  split
  case h_1 =>
    split
    · exact hP.handsClear e (hP.setHands _ _ _ hh)
    · exact hh
  case h_2 => exact hP.handsClear e hh
  case h_3 =>
    split
    · exact hh
    · exact hP.setHands _ _ _ (hP.enterDemand _ (hP.enterDemand _ hh))
  case h_4 =>
    have hset := fun st seq => hP.setHands e st seq hh
    split
    · exact hset _ _
    · refine iteInduction (fun _ => hh) fun _ => iteInduction (fun _ => hset _ _) fun _ => iteInduction (fun _ => hset _ _) fun _ => hh

theorem Husk.KeptByMoves.evaluate (n : Nat) (hh : P h) : P (h.evaluate n) := by
  unfold Husk.evaluate
  split
  · exact hh
  · split
    · exact hP.evalHands _ hh
    · exact hP.evalPair n hh

theorem Husk.KeptByMoves.startPairs (hh : P h) : P h.startPairs := by
  refine forL_keeps P _ _ (fun n g hg => ?_) h hh
  have hset := hP.setPair g n { g.pair n with
    seq := 0, state := if g.func n = 0 then .run else if g.func n == 3 || g.func n == 4 then .demand else .waitReset } rfl hg
  dsimp only
  split
  · exact hP.ev _ _ hset
  · exact hset

/-- A pair's fault keeps what moves, and a lock-out, keep. -/
theorem Husk.KeptByMoves.pairFault (hblock : ∀ g : Husk, P g → P g.blockReset) (n code : Nat) (hh : P h) : P (h.pairFault n code) := by
  unfold Husk.pairFault
  split
  · exact hh
  · split
    · exact hP.setPair _ _ _ rfl hh
    · refine hP.evaluate n (hblock _ (hP.ev _ _ (hP.ev _ _ (hP.setPair _ _ _ rfl ?_))))
      refine forL_keeps P _ _ (fun k g hg => ?_) h hh
      exact hP.setPair g k _ rfl hg

end

/-! ## Tables and tests -/

/-- What an operation keeps before the outputs follow: canonical tables, tests in closed outputs alone, one test at most. -/
def Husk.TestsSafe (h : Husk) : Prop := h.Tables ∧ (∀ m, m < 4 → h.testSafe m) ∧ h.oneTest

theorem Husk.Safe.testsSafe {h : Husk} (hs : h.Safe) : h.TestsSafe := by
  obtain ⟨htab, hout, hone⟩ := hs
  exact ⟨htab, fun m hm => (hout m hm).2, hone⟩

/-- Tables, tests and what each output has are the whole of safety. -/
theorem Husk.TestsSafe.safe {h : Husk} (ht : h.TestsSafe) (ho : ∀ m, m < 4 → h.outSafe m) : h.Safe := by
  obtain ⟨htab, htest, hone⟩ := ht
  exact ⟨htab, fun m hm => ⟨ho m hm, htest m hm⟩, hone⟩

theorem Husk.TestsSafe.ev {h : Husk} (ht : h.TestsSafe) (n : Nat) : (h.ev n).TestsSafe := by
  rw [h.ev_frame n]
  exact ht

theorem Husk.TestsSafe.blockReset {h : Husk} (ht : h.TestsSafe) : h.blockReset.TestsSafe := by
  rw [h.blockReset_frame]
  exact ht

theorem Husk.TestsSafe.setPair {h : Husk} (ht : h.TestsSafe) (n : Nat) (p : HPair) : (h.setPair n p).TestsSafe :=
  ⟨h.setPair_tables n p ht.1, ht.2⟩

/-- A written output keeps the tests in order when it begins none and does not open under test. -/
theorem Husk.TestsSafe.setOut {h : Husk} (ht : h.TestsSafe) (m : Nat) (o : HOut)
    (ho : o.test.isSome = true → (h.out m).test.isSome = true ∧ ((h.out m).on = true → o.on = true)) : (h.setOut m o).TestsSafe := by
  obtain ⟨htab, htest, hone⟩ := ht
  have hwas : ∀ k, ((h.setOut m o).out k).test.isSome = true → (h.out k).test.isSome = true := by
    intro k hk
    by_cases e : k = m
    · subst e
      rw [h.out_setOut] at hk
      exact (ho hk).1
    · rwa [h.out_setOut_ne _ _ _ e] at hk
  refine ⟨h.setOut_tables m o htab, fun k hk hkt => ?_, fun a b ha hb hat hbt => hone a b ha hb (hwas a hat) (hwas b hbt)⟩
  have hon := htest k hk (hwas k hkt)
  by_cases e : k = m
  · subst e
    rw [h.out_setOut] at hkt ⊢
    exact (ho hkt).2 hon
  · rwa [h.out_setOut_ne _ _ _ e]

/-- Moves of the pairs keep the tables and the tests. -/
theorem Husk.testsSafe_kept : Husk.KeptByMoves Husk.TestsSafe where
  setPair _ n p _ ht := ht.setPair n p
  ev _ n ht := ht.ev n

theorem Husk.TestsSafe.pairFault {h : Husk} (ht : h.TestsSafe) (n code : Nat) : (h.pairFault n code).TestsSafe :=
  Husk.testsSafe_kept.pairFault (fun _ hg => hg.blockReset) n code ht

/-! ## The outputs follow their permission -/

/-- The core's share of the permission does not ask for what a write of an output leaves alone. -/
theorem Husk.corePermit_setOut (h : Husk) (m k : Nat) (o : HOut)
    (ho : k = m → o.fault = (h.out m).fault ∧ o.core = (h.out m).core ∧ o.cstop = (h.out m).cstop) :
    (h.setOut m o).corePermit k = h.corePermit k := by
  by_cases e : k = m
  · obtain ⟨hf, hc, hs⟩ := ho e
    simp only [Husk.corePermit, Husk.lockedOut, e, h.out_setOut, hf, hc, hs]
    rfl
  · simp only [Husk.corePermit, Husk.lockedOut, h.out_setOut_ne _ _ _ e]
    rfl

/-- An output that follows changes the outputs alone. -/
theorem Husk.settleOut_frame (h : Husk) (m : Nat) : h.settleOut m = { h with outs := (h.settleOut m).outs } := by
  rcases h.settleOut_cases m with ⟨_, e⟩ | ⟨_, _, e⟩ | ⟨_, _, _, e⟩ | ⟨_, _, _, _, _, e⟩ | ⟨_, _, _, _, e⟩ <;> rw [e] <;> rfl

/-- An output that follows leaves the core's share of every permission. -/
theorem Husk.corePermit_settleOut (h : Husk) (m k : Nat) : (h.settleOut m).corePermit k = h.corePermit k := by
  rcases h.settleOut_cases m with ⟨_, e⟩ | ⟨_, _, e⟩ | ⟨_, _, _, e⟩ | ⟨_, _, _, _, _, e⟩ | ⟨_, _, _, _, e⟩ <;> rw [e]
  all_goals exact h.corePermit_setOut m k _ fun _ => ⟨rfl, rfl, rfl⟩

/-- An output that follows leaves the pairs' share of every permission. -/
theorem Husk.pairsPermit_settleOut (h : Husk) (m k : Nat) : (h.settleOut m).pairsPermit k = h.pairsPermit k := by
  rw [h.settleOut_frame m]
  rfl

/-- An output that has followed its permission is safe. -/
theorem Husk.outSafe_settleOut (h : Husk) (m : Nat) : (h.settleOut m).outSafe m := by
  intro hon
  rw [h.corePermit_settleOut, h.pairsPermit_settleOut]
  rcases h.settleOut_cases m with ⟨_, e⟩ | ⟨hc, hd, e⟩ | ⟨hc, _, hp, e⟩ | ⟨hc, _, _, _, _, e⟩ | ⟨_, _, _, _, e⟩ <;>
    rw [e] at hon ⊢
  case inl => simp [h.out_setOut] at hon
  case inr.inl => exact ⟨hc, .inr hd⟩
  case inr.inr.inl => exact ⟨hc, .inl hp⟩
  case inr.inr.inr.inl => exact ⟨hc, .inr (by rw [h.out_setOut])⟩
  case inr.inr.inr.inr => simp [h.out_setOut] at hon

/-- A safe output stays safe while another follows its permission. -/
theorem Husk.outSafe_settleOut_other (h : Husk) (m k : Nat) (hk : h.outSafe k) : (h.settleOut m).outSafe k := by
  by_cases e : k = m
  · rw [e]
    exact h.outSafe_settleOut m
  · unfold Husk.outSafe
    rw [h.corePermit_settleOut, h.pairsPermit_settleOut, h.settleOut_other m k e]
    exact hk

/-- An output that follows its permission begins no test. -/
theorem Husk.TestsSafe.settleOut {h : Husk} (ht : h.TestsSafe) (m : Nat) : (h.settleOut m).TestsSafe := by
  rcases h.settleOut_cases m with ⟨_, e⟩ | ⟨_, _, e⟩ | ⟨_, _, _, e⟩ | ⟨_, _, _, _, _, e⟩ | ⟨_, _, _, _, e⟩ <;> rw [e]
  case inr.inl => exact ht
  case inr.inr.inl => exact ht.setOut m _ fun h' => ⟨h', fun _ => rfl⟩
  all_goals exact ht.setOut m _ nofun

/-- What holds when the four outputs have followed, and events keep, holds of the settled Husk. -/
theorem Husk.settle_keeps (P : Husk → Prop) (h old : Husk) (hev : ∀ g n, P g → P (Husk.ev g n))
    (hP : P (forN 4 (fun m g => g.settleOut m) h)) : P (h.settle old) := by
  unfold Husk.settle
  extract_lets g1 g2
  have h2 : P g2 := by
    unfold g2
    split
    · exact hev _ _ hP
    · exact hP
  split
  · exact hev _ _ h2
  · exact h2

/-- A settled output is safe, whatever came before. -/
theorem Husk.outSafe_settle (h old : Husk) {m : Nat} (hm : m < 4) : (h.settle old).outSafe m := by
  refine Husk.settle_keeps (fun g => g.outSafe m) h old (fun g n hg => ?_) ?_
  · rw [g.ev_frame n]
    exact hg
  · exact forL_reaches (fun _ => True) (fun g : Husk => g.outSafe m) _ (fun _ _ _ => trivial) (b := m)
      (fun g _ => g.outSafe_settleOut m) (fun k g _ hg => g.outSafe_settleOut_other k m hg) (List.range 4) (List.mem_range.mpr hm) h trivial

/-- Outputs that have followed their permission make a safe Husk of one whose tables and tests are in order. -/
theorem Husk.TestsSafe.settle {h : Husk} (ht : h.TestsSafe) (old : Husk) : (h.settle old).Safe := by
  refine Husk.TestsSafe.safe ?_ fun m hm => h.outSafe_settle old hm
  exact Husk.settle_keeps Husk.TestsSafe h old (fun g n hg => hg.ev n)
    (forL_keeps Husk.TestsSafe _ _ (fun m g hg => hg.settleOut m) h ht)

/-- The outputs that follow change the outputs and the events alone. -/
theorem Husk.settle_frame (h old : Husk) :
    h.settle old = { h with outs := (h.settle old).outs, evs := (h.settle old).evs } := by
  refine Husk.settle_keeps (fun g => g = { h with outs := g.outs, evs := g.evs }) h old (fun g n hg => ?_) ?_
  · rw [g.ev_frame n]
    exact congrArg (fun x : Husk => { x with evs := (g.ev n).evs }) hg
  · refine forL_keeps (fun g : Husk => g = { h with outs := g.outs, evs := g.evs }) _ _ (fun m g hg => ?_) h rfl
    rw [g.settleOut_frame m]
    exact congrArg (fun x : Husk => { x with outs := (g.settleOut m).outs }) hg

/-- The outputs that follow leave the pairs. -/
@[simp] theorem Husk.pair_settle (h old : Husk) (k : Nat) : (h.settle old).pair k = h.pair k := by
  rw [h.settle_frame old]
  rfl

end Sys2Proof.Machine
end

section
/-!
Every step keeps a safe Husk safe (R276, R277, R279; O44): each operation of the Husk, the commands that leave the Husk alone or change
its pending set at most, and the step.
-/
namespace Sys2Proof.Machine

/-! ## Operations after which the outputs follow -/

theorem Husk.Safe.ev {h : Husk} (hs : h.Safe) (n : Nat) : (h.ev n).Safe := by
  rw [h.ev_frame n]
  exact hs

/-- A change of what each output holds of the core leaves its tests. -/
theorem Husk.TestsSafe.forOuts {h : Husk} (ht : h.TestsSafe) (n : Nat) (f : HOut → Nat → HOut)
    (hf : ∀ o k, (f o k).on = o.on ∧ (f o k).test = o.test) : (forN n (fun k g => g.setOut k (f (g.out k) k)) h).TestsSafe := by
  refine forL_keeps Husk.TestsSafe _ _ (fun k g hg => hg.setOut k _ fun htest => ?_) h ht
  rw [(hf _ k).2] at htest
  exact ⟨htest, fun hon => (hf _ k).1.trans hon⟩

theorem Husk.Safe.inputQualified {h : Husk} (hs : h.Safe) (n : Nat) (b level : Bool) : (h.inputQualified n b level).Safe := by
  unfold Husk.inputQualified
  split
  · exact hs
  · exact (Husk.testsSafe_kept.evaluate n (hs.testsSafe.setPair n _)).settle h

theorem Husk.Safe.discrepancy {h : Husk} (hs : h.Safe) (n : Nat) : (h.discrepancy n).Safe := by
  unfold Husk.discrepancy
  dsimp only
  split
  · exact (hs.testsSafe.pairFault n 1).settle h
  · exact hs

theorem Husk.Safe.testPulse {h : Husk} (hs : h.Safe) (k low around : Nat) : (h.testPulse k low around).Safe := by
  unfold Husk.testPulse
  split
  · exact hs
  · refine (forL_keeps Husk.TestsSafe _ _ (fun i g hg => ?_) h hs.testsSafe).settle h
    exact iteInduction (fun _ => iteInduction (fun _ => hg.pairFault _ _) fun _ => hg) fun _ =>
      iteInduction (fun _ => hg.pairFault _ _) fun _ => hg

theorem Husk.Safe.tpOvercurrent {h : Husk} (hs : h.Safe) (k : Nat) : (h.tpOvercurrent k).Safe := by
  unfold Husk.tpOvercurrent
  split
  · exact hs
  · refine (forL_keeps Husk.TestsSafe _ _ (fun i g hg => ?_) h hs.testsSafe).settle h
    exact iteInduction (fun _ => hg.pairFault _ _) fun _ => hg

theorem Husk.Safe.lsdrv {h : Husk} (hs : h.Safe) (en : Nat) : (h.lsdrv en).Safe := by
  unfold Husk.lsdrv
  split
  · exact hs
  · have ht : ({ h with lsGood := min 500 (h.lsGood + 1) } : Husk).TestsSafe := hs.testsSafe
    exact (ht.forOuts 4 (fun o k => { o with core := en.testBit k }) fun _ _ => ⟨rfl, rfl⟩).settle h

theorem Husk.Safe.cstopFrame {h : Husk} (hs : h.Safe) (demand : Nat) : (h.cstopFrame demand).Safe := by
  unfold Husk.cstopFrame
  split
  · exact hs
  · have ht : ({ h with csGood := min 500 (h.csGood + 1) } : Husk).TestsSafe := hs.testsSafe
    exact (ht.forOuts 4 (fun o k => { o with cstop := demand.testBit k }) fun _ _ => ⟨rfl, rfl⟩).settle h

theorem Husk.Safe.linkTimeout {h : Husk} (hs : h.Safe) (cstop : Bool) : (h.linkTimeout cstop).Safe := by
  unfold Husk.linkTimeout
  split
  · exact hs
  · extract_lets h1 h2 h3
    have h1s : h1.TestsSafe := hs.testsSafe.forOuts 4 (fun o _ => if cstop then { o with cstop := true } else { o with core := false })
      fun o _ => by cases cstop <;> exact ⟨rfl, rfl⟩
    have h2s : h2.TestsSafe := h1s
    have h2l : ({ h2 with lockLink := true } : Husk).TestsSafe := h2s
    have h3s : h3.TestsSafe := iteInduction (fun _ => h2s) fun _ => h2l.ev 468
    exact h3s.blockReset.settle h

theorem Husk.Safe.laneFault {h : Husk} (hs : h.Safe) : h.laneFault.Safe := by
  unfold Husk.laneFault
  split
  · exact hs
  · have ht : ({ h with internal := true } : Husk).TestsSafe := hs.testsSafe
    exact ((ht.ev 479).ev 468).blockReset.settle h

theorem Husk.Safe.supplyFault {h : Husk} (hs : h.Safe) : h.supplyFault.Safe := by
  unfold Husk.supplyFault
  split
  · have ht : ({ h with supply := false } : Husk).TestsSafe := hs.testsSafe
    exact ht.settle h
  · exact hs

theorem Husk.Safe.activate {h : Husk} (hs : h.Safe) (sect : List Byte) : (h.activate sect).Safe := by
  have ht : ({ h with set := sect, pend := [], confirm := false, lockSet := true } : Husk).TestsSafe := hs.testsSafe
  have hpairs := forL_keeps Husk.TestsSafe (List.range 8) (fun n g => g.evaluate n)
    (fun n g hg => Husk.testsSafe_kept.evaluate n hg) _ (Husk.testsSafe_kept.startPairs ht)
  exact (hpairs.ev 468).blockReset.settle h

theorem Husk.Safe.accept {h : Husk} (hs : h.Safe) (same : List Nat) : (h.accept same).Safe := by
  unfold Husk.accept
  extract_lets g h1 h2 ok
  have hg : g.TestsSafe := (hs.ev 469).testsSafe
  split
  · exact hs.ev 469
  · have h1s : h1.TestsSafe := forL_keeps Husk.TestsSafe _ _
      (fun n x hx => iteInduction (fun _ => hx.setPair n _) fun _ => hx) g hg
    have h2s : h2.TestsSafe := h1s.forOuts 4 (fun o _ => { o with fault := false }) fun _ _ => ⟨rfl, rfl⟩
    clear_value h2
    have h3s : ({ h2 with lockPower := false, lockSet := false, lockLink := g.lockLink && !ok, sendReset := true } : Husk).TestsSafe := h2s
    exact h3s.settle g

/-! ## Operations on one output or on the reset input -/

/-- A pair that keeps its state keeps the permissions. -/
theorem Husk.pairsPermit_setPair (h : Husk) (n m : Nat) (p : HPair) (hp : p.state = (h.pair n).state) :
    (h.setPair n p).pairsPermit m = h.pairsPermit m := by
  have hstate : ∀ k, ((h.setPair n p).pair k).state = (h.pair k).state := by
    intro k
    rw [h.pair_setPair_eq]
    split
    case isTrue e => rw [hp, e]
    case isFalse => rfl
  simp only [Husk.pairsPermit, hstate]
  rfl

theorem Husk.Safe.twoHandTimeout {h : Husk} (hs : h.Safe) (e : Nat) : (h.twoHandTimeout e).Safe := by
  unfold Husk.twoHandTimeout
  split
  · refine (hs.testsSafe.setPair e _).safe fun m hm hon => ?_
    have hpairs := h.pairsPermit_setPair e m { h.pair e with seq := 0 } rfl
    rw [hpairs]
    exact (hs.2.1 m hm).1 hon
  · exact hs

/-- An output that opens is safe, and leaves the others safe. -/
theorem Husk.Safe.openOut {h : Husk} (hs : h.Safe) (m : Nat) (o : HOut) (hon : o.on = false) (ht : o.test = none) : (h.setOut m o).Safe := by
  refine (hs.testsSafe.setOut m o (by simp [ht])).safe fun k hk hkon => ?_
  by_cases e : k = m
  · rw [e, h.out_setOut, hon] at hkon
    exact absurd hkon Bool.false_ne_true
  · rw [h.out_setOut_ne _ _ _ e] at hkon ⊢
    rw [h.corePermit_setOut m k o (absurd · e)]
    exact (hs.2.1 k hk).1 hkon

/-- An output whose test alone ends or begins leaves every output as safe as it was. -/
theorem Husk.Safe.outSafe_setTest {h : Husk} (hs : h.Safe) (m : Nat) (x : Option Bool) :
    ∀ k, k < 4 → (h.setOut m { h.out m with test := x }).outSafe k := by
  intro k hk
  have hout := (hs.2.1 k hk).1
  have hcore := h.corePermit_setOut m k { h.out m with test := x } fun _ => ⟨rfl, rfl, rfl⟩
  unfold Husk.outSafe
  rw [hcore, h.out_setOut_eq]
  split
  case isTrue e =>
    rw [← e]
    exact hout
  case isFalse => exact hout

theorem Husk.Safe.delayExpiry {h : Husk} (hs : h.Safe) (m : Nat) : (h.delayExpiry m).Safe := by
  unfold Husk.delayExpiry
  dsimp only
  split
  · exact hs.openOut m _ rfl rfl
  · exact hs

/-- An output that shows ON is closed, and neither locked out nor in a delay. -/
theorem Husk.on_of_outState {h : Husk} {m : Nat} (ho : h.outState m = 3) : (h.out m).on = true := by
  cases hon : (h.out m).on
  case true => rfl
  case false =>
    simp only [Husk.outState, hon, Bool.false_eq_true, if_false] at ho
    repeat' split at ho
    all_goals omega

theorem Husk.Safe.testSwitch {h : Husk} (hs : h.Safe) (m : Nat) (low : Bool) : (h.testSwitch m low).Safe := by
  unfold Husk.testSwitch
  split
  case isFalse => exact hs
  case isTrue hc =>
    obtain ⟨hstate, hnone⟩ := hc
    have hidle : ∀ k, k < 4 → (h.out k).test = none := by
      intro k hk
      exact Option.isNone_iff_eq_none.mp (List.all_eq_true.mp hnone k (List.mem_range.mpr hk))
    have honly : ∀ k, k < 4 → ((h.setOut m { h.out m with test := some low }).out k).test.isSome = true → k = m := by
      intro k hk htest
      by_cases e : k = m
      · exact e
      · rw [h.out_setOut_ne _ _ _ e, hidle k hk] at htest
        exact absurd htest Bool.false_ne_true
    refine Husk.TestsSafe.safe ⟨h.setOut_tables m _ hs.1, fun k hk htest => ?_, fun a b ha hb hat hbt =>
      (honly a ha hat).trans (honly b hb hbt).symm⟩ (hs.outSafe_setTest m _)
    rw [honly k hk htest, h.out_setOut]
    exact Husk.on_of_outState hstate

theorem Husk.Safe.testResponse {h : Husk} (hs : h.Safe) (m : Nat) (low : Bool) : (h.testResponse m low).Safe := by
  unfold Husk.testResponse
  split
  · exact (hs.testsSafe.setOut m { h.out m with test := none } nofun).safe (hs.outSafe_setTest m none)
  · exact hs

/-- A closed safe output is not in FAULT. -/
theorem Husk.Safe.off_of_fault {h : Husk} (hs : h.Safe) {m : Nat} (hm : m < 4) (hf : (h.out m).fault = true) : (h.out m).on = false := by
  refine Bool.eq_false_iff.mpr fun hon => ?_
  have hcore := ((hs.2.1 m hm).1 hon).1
  simp [Husk.corePermit, Husk.lockedOut, hf] at hcore

theorem Husk.Safe.outFault {h : Husk} (hs : h.Safe) {m : Nat} (hm : m < 4) (code : Nat) : (h.outFault m code).Safe := by
  unfold Husk.outFault
  extract_lets o h1
  split
  case isTrue hf => exact hs.openOut m _ (hs.off_of_fault hm hf) rfl
  case isFalse =>
    have ht : h1.TestsSafe := hs.testsSafe.setOut m _ nofun
    exact ((ht.ev 467).ev 468).blockReset.settle h

theorem Husk.Safe.testTimeout {h : Husk} (hs : h.Safe) {m : Nat} (hm : m < 4) (low : Bool) : (h.testTimeout m low).Safe :=
  iteInduction (fun _ => hs.outFault hm _) fun _ => hs

theorem Husk.Safe.overcurrent {h : Husk} (hs : h.Safe) {m : Nat} (hm : m < 4) : (h.overcurrent m).Safe :=
  iteInduction (fun _ => hs.outFault hm _) fun _ => hs

theorem Husk.Safe.backfeed {h : Husk} (hs : h.Safe) {m : Nat} (hm : m < 4) : (h.backfeed m).Safe :=
  iteInduction (fun _ => hs.outFault hm _) fun _ => hs

theorem Husk.Safe.srstPress {h : Husk} (hs : h.Safe) : h.srstPress.Safe :=
  iteInduction (fun _ => hs) fun _ => hs

theorem Husk.Safe.srstRelease {h : Husk} (hs : h.Safe) (x : SrstEdge) : (h.srstRelease x).Safe := by
  have hidle : ({ h with srst := false, rst := .ready } : Husk).Safe := hs
  exact iteInduction (fun _ => hs) fun _ => iteInduction (fun _ => hidle.accept x.same) fun _ => hidle

theorem Husk.Safe.resetHeld {h : Husk} (hs : h.Safe) : h.resetHeld.Safe :=
  have hheld : ({ h with rst := .held, held := (h.held + 1) % 256 } : Husk).Safe := hs
  iteInduction (fun _ => hheld.ev 470) fun _ => hs

/-! ## Power-up -/

/-- The start of the pairs changes the pairs and the events alone. -/
theorem Husk.startPairs_frame (h : Husk) : h.startPairs = { h with pairs := h.startPairs.pairs, evs := h.startPairs.evs } := by
  refine Husk.KeptByMoves.startPairs (P := fun g => g = { h with pairs := g.pairs, evs := g.evs }) ⟨fun g n p _ hg => ?_, fun g n hg => ?_⟩ rfl
  · exact congrArg (fun x : Husk => { x with pairs := (g.setPair n p).pairs }) hg
  · rw [g.ev_frame n]
    exact congrArg (fun x : Husk => { x with evs := (g.ev n).evs }) hg

/-- A Husk whose outputs stand at reset is safe: every output is open. -/
theorem Husk.TestsSafe.safe_of_outs {h : Husk} (ht : h.TestsSafe) (ho : h.outs = []) : h.Safe :=
  ht.safe fun m _ hon => absurd hon (by simp [Husk.out, ho, tabGet, HOut.zero])

theorem Husk.Safe.supplyReturn {h : Husk} (hs : h.Safe) : h.supplyReturn.Safe := by
  unfold Husk.supplyReturn
  extract_lets r h1
  split
  case isTrue => exact hs
  case isFalse =>
    have h1s : h1.TestsSafe := ⟨⟨rfl, rfl⟩, nofun, nofun⟩
    have houts : h1.startPairs.outs = [] := (congrArg Husk.outs h1.startPairs_frame).trans rfl
    exact ((Husk.testsSafe_kept.startPairs h1s).safe_of_outs houts).ev 468

end Sys2Proof.Machine
end

section
/-!
What a command can do to the Husk. One outside the rows of the Husk changes its pending set at most (R301, R462); a command of the
Husk's rows is an operation that keeps a safe Husk safe. So every step does (O44).
-/
namespace Sys2Proof.Machine

/-! ## Commands outside the Husk's rows -/

/-- Two Husks that differ at most in the set that awaits its confirmation, and in the reset machine that this set blocks. -/
def Husk.SameButPending (h g : Husk) : Prop :=
  ∃ (pend : List Byte) (confirm : Bool) (rst : RstState), g = { h with pend := pend, confirm := confirm, rst := rst }

theorem Husk.SameButPending.refl (h : Husk) : h.SameButPending h := ⟨_, _, _, rfl⟩

theorem Husk.SameButPending.trans {h g f : Husk} (h1 : h.SameButPending g) (h2 : g.SameButPending f) : h.SameButPending f := by
  obtain ⟨_, _, _, rfl⟩ := h1
  obtain ⟨_, _, _, rfl⟩ := h2
  exact ⟨_, _, _, rfl⟩

/-- The pending set decides nothing about the outputs. -/
theorem Husk.SameButPending.safe {h g : Husk} (hg : h.SameButPending g) (hs : h.Safe) : g.Safe := by
  obtain ⟨_, _, _, rfl⟩ := hg
  exact hs

/-- The set that was pending is dropped, or stays. -/
theorem State.dropPending_husk (s : State) : s.husk.SameButPending s.dropPending.husk := by
  unfold State.dropPending discardSet
  exact iteInduction (motive := fun r : Husk × SafetyCore => s.husk.SameButPending r.1) (fun _ => .refl _) fun _ => ⟨_, _, _, rfl⟩

theorem State.commitSet_husk (s : State) : s.husk.SameButPending s.commitSet.husk := by
  unfold State.commitSet
  exact iteInduction (motive := fun h : Husk => s.husk.SameButPending h) (fun _ => ⟨_, _, _, rfl⟩) fun _ => .refl _

theorem State.awaitConfirm_husk (s : State) : s.husk.SameButPending (awaitConfirm s.husk s.core s.chip).1 := by
  unfold awaitConfirm
  refine iteInduction (motive := fun r : Husk × SafetyCore => s.husk.SameButPending r.1) (fun _ => .refl _) fun _ => ?_
  exact iteInduction (motive := fun r : Husk × SafetyCore => s.husk.SameButPending r.1) (fun _ => ⟨_, _, _, rfl⟩) fun _ => .refl _

/-- A reset of Corukan drops the pending set. -/
theorem State.resetBy_husk (s : State) (cause : Nat) : s.husk.SameButPending (s.resetBy cause).husk := ⟨_, _, _, rfl⟩

theorem State.spsCommand_husk (s : State) : s.husk.SameButPending s.spsCommand.husk := by
  unfold State.spsCommand
  extract_lets v c s1 s2
  have h2 : s.husk.SameButPending s2.husk := by
    unfold s2
    split
    · exact s1.dropPending_husk
    · exact .refl _
  split
  · exact h2.trans s2.commitSet_husk
  · exact h2

/-- The requests that a command left drop the pending set or replace it, and touch nothing else of the Husk. -/
theorem State.settle_husk (s : State) (chk : StepCheck) : s.husk.SameButPending (s.settle chk).husk := by
  unfold State.settle
  split
  · exact .refl _
  · extract_lets s1
    have h1 : s.husk.SameButPending s1.husk := s.spsCommand_husk
    split
    · exact h1
    · exact h1.trans (State.resetBy_husk _ _)

/-- The Husk after a command; one that gives no next state leaves it. -/
def State.huskAfter (s : State) : Out → Husk
  | .next t => t.husk
  | _ => s.husk

/-- The commands that change the chip and the core and then meet the requests they left. -/
def settles : Instr → Bool
  | .fullReset .. | .warmReset .. | .stateRequestConfig .. | .stateRequestSync .. | .stateRequestRun .. | .sysHostwdKick ..
  | .snapshotRequest .. | .tickRegPeriodWrite .. | .tickRegUlWrite .. | .tickRegDlWrite .. | .tickRegTierWrite ..
  | .dioOutWrite .. | .dioOsetWrite .. | .dioOrstWrite .. | .dioDebWrite .. | .kppWrite .. | .ethKeyWrite ..
  | .ethPortWrite .. | .fbkClr .. | .fbkObsWrite .. | .fbkLchWrite .. | .fbkDivWrite .. | .fbkMirrorWrite .. | .hltShedCmd ..
  | .hstDoorbell .. | .commitSubmit .. | .commitApply .. | .dmaGo .. | .dmaPiece .. | .lpeSwapSlot .. | .lpeSwapGroup ..
  | .lpeMsw .. | .lpeSlotWrite .. | .lpeBankWrite .. | .lpeXfWrite .. | .lpeMsetWrite .. | .memReload .. | .memZeroFill ..
  | .memCfgWrite .. | .fabricStoreAck .. | .dwrTransferApply .. | .podRun .. | .podHalt .. | .podStep .. | .podRestart ..
  | .disarm .. | .movePos .. | .moveVel .. | .moveTab .. | .pause .. | .resume .. | .stop .. | .home .. | .clrLim ..
  | .prfChEnWrite .. | .limitWrite .. | .kappaTgtWrite .. | .prfGfireNow .. | .prfGfireAtTick .. | .tableCommit ..
  | .tableWithdraw .. | .prfTblWrite .. | .prfCmpWrite .. | .prfStpWrite .. | .prfHomeWrite .. | .prfMstabWrite ..
  | .crnModereq .. | .crnTwinJoin .. | .crnTwinKeep .. | .crnTwinSwap .. | .replayTick .. | .paramSetCommit ..
  | .paramSetDiscard .. | .schTaskWrite .. | .schOflowWrite .. | .schHpost .. | .schHcancel .. | .planLoad .. | .sepPsrel ..
  | .sepArmWrite .. | .strAdmit .. | .strPortWrite .. | .strGuardWrite .. | .offsetSample .. | .timeSet .. | .timXtsGo ..
  | .triggerArm .. | .triggerDisarm .. | .timCpWrite .. => true
  | _ => false

/-- What such a command does. -/
theorem exec_of_settles {i : Instr} (hi : settles i = true) (s : State) :
    ∃ c k chk, exec i s = .next (({ s with chip := c, core := k } : State).settle chk) := by
  cases i with
  | _ => cases hi <;> exact ⟨_, _, _, rfl⟩

/-- R8: a command outside the Husk's rows changes the Husk's pending set at most. -/
theorem huskAfter_of_not_huskRow {i : Instr} (hi : huskRow i = false) (s : State) :
    s.husk.SameButPending (s.huskAfter (exec i s)) := by
  cases hset : settles i
  case true =>
    obtain ⟨c, k, chk, h⟩ := exec_of_settles hset s
    rw [h]
    exact State.settle_husk { s with chip := c, core := k } chk
  case false =>
    cases i with
    | powerOnReset | pinReset | railReset => exact s.resetBy_husk _
    | railOrderViolation => exact s.resetBy_husk 3
    | xrefLoss =>
      show s.husk.SameButPending (ite _ s (s.resetBy 2)).husk
      split
      · exact .refl _
      · exact s.resetBy_husk 2
    | paramSetAwaitConfirm => exact s.awaitConfirm_husk
    | paramConfirmTimeout =>
      show s.husk.SameButPending (s.huskAfter (ite _ _ _))
      split
      · exact s.dropPending_husk
      · exact .refl _
    | registerWrite m off v whole =>
      show s.husk.SameButPending (s.huskAfter (ite _ _ _))
      split
      · exact State.settle_husk { s with chip := s.chip.regWrite m.val off.toNat v } .pass
      · exact .refl _
    | tick | feedbackPhase | publishDeadline | safetyCycle | dioClr =>
      show s.husk.SameButPending (s.huskAfter (ite _ _ _))
      split <;> exact .refl _
    | nop =>
      show s.husk.SameButPending (s.huskAfter (ite _ _ _))
      split
      · exact .refl _
      · split <;> exact .refl _
    | _ => cases hi <;> cases hset <;> exact .refl _

/-! ## Commands of the Husk's rows -/

/-- A confirmed set comes into force, or the telegram changes only what it carries. -/
theorem Husk.Safe.telegram {h : Husk} (hs : h.Safe) (k : SafetyCore) (c : Chip) (cur : List Nat) : (telegram h k c cur).1.Safe := by
  unfold Machine.telegram
  split
  · exact hs
  · extract_lets switch k1 r
    have hr : r.1.Safe := iteInduction (motive := fun x : Husk × SafetyCore × Chip => x.1.Safe)
      (fun _ => hs.activate h.pend) fun _ => hs
    exact hr

theorem Husk.Safe.startCore {h : Husk} (hs : h.Safe) (k : SafetyCore) (c : Chip) (img : List Byte) : (startCore h k c img).1.Safe := by
  unfold Machine.startCore
  extract_lets k1 img1 known r
  refine iteInduction (motive := fun x : Husk × SafetyCore => x.1.Safe) (fun _ => hs) fun _ => ?_
  refine iteInduction (motive := fun x : Husk × SafetyCore => x.1.Safe) (fun _ => hs) fun _ => ?_
  refine iteInduction (motive := fun x : Husk × SafetyCore => x.1.Safe) (fun _ => hs) fun _ => ?_
  exact iteInduction (motive := fun x : Husk × SafetyCore => x.1.Safe) (fun _ => hs.activate _) fun _ => hs

theorem State.bootRun_safe {s : State} (hs : s.husk.Safe) (fwOk : Bool) : (s.bootRun fwOk).husk.Safe := by
  unfold State.bootRun
  split
  · exact hs
  · split
    case h_1 => exact hs
    case h_2 =>
      extract_lets img
      split
      case h_1 => exact hs
      case h_2 =>
        extract_lets c r
        have hr : r.1.Safe := hs.startCore _ _ _
        clear_value c r
        split
        · exact hs
        · exact hr

theorem State.boot_safe {s : State} (hs : s.husk.Safe) (straps : BitVec 6) (trained fwOk : Bool) : (s.boot straps trained fwOk).husk.Safe := by
  unfold State.boot
  extract_lets c c1 s1
  have hs1 : s1.husk.Safe := hs
  split
  · exact State.bootRun_safe hs fwOk
  · split
    · exact hs
    · split
      · exact hs
      · split
        · exact hs
        · split
          · exact hs
          · exact State.bootRun_safe hs1 fwOk

theorem State.bootGoWrite_safe {s : State} (hs : s.husk.Safe) (v : W32) (fwOk : Bool) : (s.bootGoWrite v fwOk).husk.Safe := by
  unfold State.bootGoWrite
  extract_lets s1
  have hs1 : s1.husk.Safe := hs
  exact iteInduction (motive := fun t : State => t.husk.Safe) (fun _ => State.bootRun_safe hs1 fwOk) fun _ => hs1

/-- Every command keeps a safe Husk safe: by the operation it is, or by the frame of those outside the Husk's rows. -/
theorem huskAfter_safe (i : Instr) {s : State} (hs : s.husk.Safe) : (s.huskAfter (exec i s)).Safe := by
  cases hrow : huskRow i
  case false => exact (huskAfter_of_not_huskRow hrow s).safe hs
  case true =>
    cases i with
    | statusTelegram => exact hs.telegram _ _ _
    | lsdrvFrame =>
      show (s.huskAfter (ite _ _ _)).Safe
      split
      · exact hs.lsdrv _
      · exact hs
    | cstopFrame =>
      show (s.huskAfter (ite _ _ _)).Safe
      split
      · exact hs.cstopFrame _
      · exact hs
    | coreLinkTimeout stop => exact hs.linkTimeout stop
    | safetyInputQualified n b level => exact hs.inputQualified n.val b level
    | discrepancyTimeout n => exact hs.discrepancy n.val
    | twoHandTimeout e => exact hs.twoHandTimeout (evenPair e.val)
    | testPulse k low around => exact hs.testPulse k.val _ _
    | tpOvercurrent k => exact hs.tpOvercurrent k.val
    | cat1DelayExpiry m => exact hs.delayExpiry m.val
    | outputSwitchTest m low => exact hs.testSwitch m.val low
    | outputTestTimeout m low => exact hs.testTimeout m.isLt low
    | switchTestResponse m low => exact hs.testResponse m.val low
    | safeOutputOvercurrent m => exact hs.overcurrent m.isLt
    | safeOutputBackfeed m => exact hs.backfeed m.isLt
    | huskLaneDisagree => exact hs.laneFault
    | safetySupplyFault => exact hs.supplyFault
    | safetySupplyReturn => exact hs.supplyReturn
    | srstPress => exact hs.srstPress
    | srstRelease x => exact hs.srstRelease x
    | resetHeld => exact hs.resetHeld
    | boot straps trained fwOk => exact (State.settle_husk _ _).safe (State.boot_safe hs straps trained fwOk)
    | sysBootCtrlGo m v fwOk => exact (State.settle_husk _ _).safe (State.bootGoWrite_safe hs _ fwOk)
    | _ => cases hrow

/-! ## The obligation -/

/-- Settles O44: an idle step changes nothing, and a step that executes a command keeps the Husk safe as that command does. -/
theorem huskStaysSafe : Obligations.HuskStaysSafe := by
  unfold Obligations.HuskStaysSafe
  intro s t hs hstep
  unfold step at hstep
  split at hstep
  case h_1 =>
    cases hstep
    exact hs
  case h_2 i rest _ =>
    have hsafe := huskAfter_safe i (s := { s with pending := rest }) hs
    rw [hstep] at hsafe
    exact hsafe

end Sys2Proof.Machine
end

section
/-!
What happens to the outputs, the core link, the safety supply and the reset input (R266 to R268, R277 to R283; O43).
-/
namespace Sys2Proof.Machine

/-! ## What the settled Husk has -/

/-- No output is closed in a settled Husk with a lock-out of every output, or without its supply. -/
theorem Husk.off_of_settle {h : Husk} (hl : h.lockedAll = true ∨ h.supply = false) (old : Husk) :
    ∀ m, m < 4 → ((h.settle old).out m).on = false := by
  intro m hm
  refine Bool.eq_false_iff.mpr fun hon => ?_
  obtain ⟨hcore, _⟩ := h.outSafe_settle old hm hon
  have hall : (h.settle old).lockedAll = h.lockedAll := by rw [h.settle_frame old]; rfl
  have hsupply : (h.settle old).supply = h.supply := by rw [h.settle_frame old]
  rcases hl with hl | hl <;> simp [Husk.corePermit, Husk.lockedOut, hall, hsupply, hl] at hcore

/-! ## Faults of the core link, the lanes and the supply -/

/-- A core-link fault locks every output out, and no frame since it counts (R266). -/
theorem Husk.linkTimeout_locks {h : Husk} (hs : h.supply = true) (stop : Bool) :
    (h.linkTimeout stop).lockLink = true ∧ (h.linkTimeout stop).lsGood = 0 ∧ (h.linkTimeout stop).csGood = 0 ∧
      ∀ m, m < 4 → ((h.linkTimeout stop).out m).on = false := by
  unfold Husk.linkTimeout
  rw [if_neg (by simp [hs])]
  extract_lets h1 h2 h3
  have h3s : h3.lockLink = true ∧ h3.lsGood = 0 ∧ h3.csGood = 0 := by
    unfold h3
    split
    case isTrue hl => exact ⟨hl, rfl, rfl⟩
    case isFalse =>
      rw [Husk.ev_frame]
      exact ⟨rfl, rfl, rfl⟩
  clear_value h3
  obtain ⟨hlock, hls, hcs⟩ := h3s
  rw [h3.blockReset_frame]
  refine ⟨?_, ?_, ?_, Husk.off_of_settle (.inl (by simp [Husk.lockedAll, hlock])) h⟩ <;> rw [Husk.settle_frame] <;> assumption

/-- A Husk internal fault asserts HUSK_STOP and opens every output (R268). -/
theorem Husk.laneFault_locks {h : Husk} (hs : h.supply = true) (hi : h.internal = false) :
    h.laneFault.internal = true ∧ h.laneFault.stop = true ∧ ∀ m, m < 4 → (h.laneFault.out m).on = false := by
  unfold Husk.laneFault
  rw [if_neg (by simp [hs, hi]), Husk.blockReset_frame, Husk.ev_frame _ 468, Husk.ev_frame _ 479]
  refine ⟨?_, ?_, Husk.off_of_settle (.inl (by simp [Husk.lockedAll])) h⟩ <;> rw [Husk.settle_frame]
  simp [Husk.stop]

/-- Without its supply the Husk asserts HUSK_STOP and opens every output (R267). -/
theorem Husk.supplyFault_locks {h : Husk} (hs : h.supply = true) :
    h.supplyFault.supply = false ∧ h.supplyFault.stop = true ∧ ∀ m, m < 4 → (h.supplyFault.out m).on = false := by
  unfold Husk.supplyFault
  rw [if_pos hs]
  refine ⟨?_, ?_, Husk.off_of_settle (.inr rfl) h⟩ <;> rw [Husk.settle_frame]
  simp [Husk.stop]

/-- The return of the supply is a power-up that keeps the set in force (R267). -/
theorem Husk.supplyReturn_starts {h : Husk} (hs : h.supply = false) :
    h.supplyReturn.supply = true ∧ h.supplyReturn.set = h.set ∧ h.supplyReturn.lockPower = true ∧ h.supplyReturn.internal = false ∧
      h.supplyReturn.rst = .blocked ∧ h.supplyReturn.outs = [] := by
  unfold Husk.supplyReturn
  rw [if_neg (by simp [hs]), Husk.ev_frame, Husk.startPairs_frame]
  exact ⟨rfl, rfl, rfl, rfl, rfl, rfl⟩

/-! ## The obligation -/

/-- A command that is an operation of the Husk has the effect of that operation. -/
theorem exec_withHusk {i : Instr} {s : State} {f g : Husk} (hi : exec i s = .next (s.withHusk f)) (h : f = g) :
    exec i s = .next (s.withHusk g) := h ▸ hi

/-- A frame of the core is taken while the core runs. -/
theorem exec_coreFrame {i : Instr} {s : State} {f g : Husk} (hstart : s.core.started = true) (hfault : s.core.fault = false)
    (hi : exec i s = if s.core.started && !s.core.fault then .next (s.withHusk f) else .next s) (h : f = g) :
    exec i s = .next (s.withHusk g) := by
  rw [hi, if_pos (by simp [hstart, hfault]), h]

/-- Settles O43: each command is one operation of the Husk, in the case that its hypotheses select. -/
theorem huskOutputsAndReset : Obligations.HuskOutputsAndReset := by
  unfold Obligations.HuskOutputsAndReset
  intro s m hs
  have hon : ¬ (!s.husk.supply) = true := by simp [hs]
  extract_lets h o now
  refine ⟨?delay, ?tests, ?overcurrent, ?backfeed, ?fault, ?frames, ?link, ?lanes, ?supplyFault, ?supplyReturn, ?press, ?release, ?held⟩
  case delay => exact fun hd => exec_withHusk rfl (if_pos hd)
  case tests =>
    intro low
    refine ⟨fun hstate hidle => ?_, fun ht => exec_withHusk rfl (if_pos ht), fun ht => exec_withHusk rfl (if_pos ht)⟩
    refine exec_withHusk rfl (if_pos ⟨hstate, List.all_eq_true.mpr fun k hk => ?_⟩)
    rw [hidle k (List.mem_range.mp hk)]
    rfl
  case overcurrent => exact exec_withHusk rfl (if_pos hs)
  case backfeed => exact fun hstate hf => exec_withHusk rfl (if_pos ⟨hstate, hf, hs⟩)
  case fault =>
    intro code
    exact ⟨fun hf => if_neg (by rw [hf]; exact Bool.false_ne_true), fun hf => if_pos hf⟩
  case frames =>
    exact fun hstart hfault => ⟨exec_coreFrame hstart hfault rfl (if_neg hon), exec_coreFrame hstart hfault rfl (if_neg hon)⟩
  case link =>
    intro stop
    obtain ⟨hlock, hls, hcs, hoff⟩ := h.linkTimeout_locks hs stop
    exact ⟨_, rfl, hlock, hls, hcs, hoff, rfl, rfl⟩
  case lanes =>
    intro hi
    obtain ⟨hint, hstop, hoff⟩ := h.laneFault_locks hs hi
    exact ⟨_, rfl, hint, hstop, hoff, rfl, rfl⟩
  case supplyFault =>
    obtain ⟨hsupply, hstop, hoff⟩ := h.supplyFault_locks hs
    exact ⟨_, rfl, hsupply, hstop, hoff, rfl, rfl⟩
  case supplyReturn =>
    intro u hu
    obtain ⟨hsupply, hset, hlock, hint, hrst, houts⟩ := Husk.supplyReturn_starts hu
    exact ⟨_, rfl, hsupply, hset, hlock, hint, hrst, houts, if_neg (by simp [hu]), rfl⟩
  case press => exact exec_withHusk rfl (if_neg hon)
  case release =>
    refine fun act same => ⟨fun hp hlo hhi => ?_, fun hout => ?_⟩
    · exact exec_withHusk rfl ((if_neg hon).trans (if_pos (by simp [show s.husk.rst = _ from hp, hlo, hhi])))
    · refine exec_withHusk rfl ((if_neg hon).trans (if_neg ?_))
      simp only [Bool.and_eq_true, beq_iff_eq, decide_eq_true_eq, not_and]
      exact fun ⟨hp, hlo⟩ hhi => hout.elim (absurd hp) (by omega)
  case held => exact fun hp => exec_withHusk rfl (if_pos (by simp [show s.husk.rst = _ from hp]))

end Sys2Proof.Machine
end

section
/-!
The state of a pair after faults of pairs (R271 to R275): what one fault does to every pair, and what a row of faults, as a test pulse
or an overcurrent brings about, does to one of the pairs it names.
-/
namespace Sys2Proof.Machine

/-! ## What the levels decide -/

/-- A Husk with the same section, supply and levels: what a move of the pairs keeps. -/
def Husk.SameLevels (h g : Husk) : Prop := g.set = h.set ∧ g.supply = h.supply ∧ ∀ k, (g.pair k).levels = (h.pair k).levels

theorem Husk.SameLevels.refl (h : Husk) : h.SameLevels h := ⟨rfl, rfl, fun _ => rfl⟩

theorem Husk.sameLevels_kept (h : Husk) : Husk.KeptByMoves h.SameLevels where
  setPair g n p hp := by
    rintro ⟨hset, hsupply, hlevels⟩
    refine ⟨hset, hsupply, fun k => ?_⟩
    rw [g.pair_setPair_eq]
    split
    case isTrue e => rw [e, hp, hlevels]
    case isFalse => exact hlevels k
  ev g n := by
    intro hg
    rw [g.ev_frame n]
    exact hg

theorem Husk.SameLevels.blockReset {h g : Husk} (hg : h.SameLevels g) : h.SameLevels g.blockReset := by
  rw [g.blockReset_frame]
  exact hg

theorem Husk.SameLevels.pairFault {h g : Husk} (hg : h.SameLevels g) (j code : Nat) : h.SameLevels (g.pairFault j code) :=
  h.sameLevels_kept.pairFault (fun _ hx => hx.blockReset) j code hg

/-- Release is a matter of the levels. -/
theorem HPair.released_of_levels {p q : HPair} (h : p.levels = q.levels) (f : Nat) : p.released f = q.released f := by
  simp only [HPair.levels, Prod.mk.injEq] at h
  obtain ⟨ha, hb, hqa, hqb⟩ := h
  simp only [HPair.released, HPair.qual, ha, hb, hqa, hqb]

/-- Demand on both channels is a matter of the levels. -/
theorem HPair.demandsBoth_of_levels {p q : HPair} (h : p.levels = q.levels) (f : Nat) : p.demandsBoth f = q.demandsBoth f := by
  simp only [HPair.levels, Prod.mk.injEq] at h
  obtain ⟨ha, hb, hqa, hqb⟩ := h
  simp only [HPair.demandsBoth, HPair.qual, ha, hb, hqa, hqb]

theorem Husk.SameLevels.func {h g : Husk} (hg : h.SameLevels g) (n : Nat) : g.func n = h.func n := by
  simp only [Husk.func, hg.1]

theorem Husk.SameLevels.twoHand {h g : Husk} (hg : h.SameLevels g) (n : Nat) : g.twoHand n = h.twoHand n := by
  simp only [Husk.twoHand, hg.func]

theorem Husk.SameLevels.handsReleased {h g : Husk} (hg : h.SameLevels g) (e : Nat) : g.handsReleased e = h.handsReleased e := by
  obtain ⟨_, _, hlevels⟩ := hg
  simp only [Husk.handsReleased, HPair.released_of_levels (hlevels _)]

/-- With channel A high no pair is at demand on both channels. -/
theorem HPair.not_demandsBoth_of_high {p : HPair} (h : p.lvlA = true) (f : Nat) : p.demandsBoth f = false := by
  simp [HPair.demandsBoth, demandBoth, h]

/-- A two-hand control with channel A high is not released. -/
theorem HPair.not_released_of_high {p : HPair} (h : p.lvlA = true) {f : Nat} (hf : f = 3 ∨ f = 4) : p.released f = false := by
  rcases hf with rfl | rfl <;> simp [HPair.released, releaseLevel, h]

/-! ## Two-hand functions -/

/-- The pairs of one two-hand function are those with the same even pair. -/
theorem mem_hands_iff {k n : Nat} : k ∈ [evenPair n, evenPair n + 1] ↔ evenPair k = evenPair n := by
  simp only [List.mem_cons, List.not_mem_nil, or_false, evenPair]
  omega

theorem self_mem_hands (n : Nat) : n = evenPair n ∨ n = evenPair n + 1 := by
  unfold evenPair
  omega

/-- A pair after both pairs of a two-hand function took a state. -/
theorem Husk.pair_setHands (h : Husk) (e : Nat) (st : PairState) (seq k : Nat) : (h.setHands e st seq).pair k =
    if k = e + 1 then { h.pair (e + 1) with state := st } else if k = e then { h.pair e with state := st, seq := seq } else h.pair k := by
  unfold Husk.setHands
  rw [Husk.pair_setPair_eq, Husk.pair_setPair_eq]

/-- The state that both pairs of a two-hand function took. -/
theorem Husk.state_setHands (h : Husk) (n : Nat) (st : PairState) (seq k : Nat) :
    ((h.setHands (evenPair n) st seq).pair k).state = if evenPair k = evenPair n then st else (h.pair k).state := by
  rw [h.pair_setHands]
  by_cases h1 : k = evenPair n + 1
  · rw [if_pos h1, if_pos (mem_hands_iff.mp (by simp [h1]))]
  · by_cases h2 : k = evenPair n
    · rw [if_neg h1, if_pos h2, if_pos (mem_hands_iff.mp (by simp [h2]))]
    · rw [if_neg h1, if_neg h2, if_neg fun he => by simpa [h1, h2] using mem_hands_iff.mpr he]

/-- Taking a state leaves both controls at their levels. -/
theorem Husk.handsReleased_setHands (h : Husk) (e : Nat) (st : PairState) (seq : Nat) :
    (h.setHands e st seq).handsReleased e = h.handsReleased e :=
  (h.sameLevels_kept.setHands e st seq (.refl h)).handsReleased e

/-! ## Moves of one pair and of a two-hand function -/

theorem Husk.evaluate_off {h : Husk} {n : Nat} (hf : h.func n = 0) : h.evaluate n = h := if_pos (.inl hf)

theorem Husk.evaluate_pair {h : Husk} {n : Nat} (hs : h.supply = true) (hf : h.func n ≠ 0) (ht : h.twoHand n = false) :
    h.evaluate n = h.evalPair n := by
  unfold Husk.evaluate
  rw [if_neg (by simp [hs, hf]), if_neg (by simp [ht])]

/-- A control of a two-hand function has a function. -/
theorem Husk.func_of_twoHand {h : Husk} {n : Nat} (ht : h.twoHand n = true) : h.func n ≠ 0 := by
  intro hf
  simp [Husk.twoHand, hf] at ht

theorem Husk.evaluate_hands {h : Husk} {n : Nat} (hs : h.supply = true) (ht : h.twoHand n = true) :
    h.evaluate n = h.evalHands (evenPair n) := by
  unfold Husk.evaluate
  rw [if_neg (by simp [hs, Husk.func_of_twoHand ht]), if_pos ht]

theorem Husk.evalPair_active {h : Husk} {n : Nat} (hst : (h.pair n).state = .run ∨ (h.pair n).state = .waitReset) :
    h.evalPair n = if (h.pair n).demands (h.func n) then h.enterDemand n else h := by
  rcases hst with hst | hst <;> simp only [Husk.evalPair, hst]

theorem Husk.evalPair_demand {h : Husk} {n : Nat} (hst : (h.pair n).state = .demand) : h.evalPair n =
    if (h.pair n).released (h.func n) then h.setPair n { h.pair n with state := if h.restart n then .run else .waitReset } else h := by
  simp only [Husk.evalPair, hst]

theorem Husk.evalPair_fault {h : Husk} {n : Nat} (hst : (h.pair n).state = .fault) : h.evalPair n =
    if (h.pair n).demandsBoth (h.func n) then h.setPair n { h.pair n with state := .faultClr } else h := by
  simp only [Husk.evalPair, hst]

theorem Husk.evalPair_faultClr {h : Husk} {n : Nat} (hst : (h.pair n).state = .faultClr) : h.evalPair n =
    if (h.pair n).released (h.func n) then h.setPair n { h.pair n with state := .waitReset } else h := by
  simp only [Husk.evalPair, hst]

theorem Husk.evalHands_run {h : Husk} {e : Nat} (hst : (h.pair e).state = .run) : h.evalHands e =
    if (h.pair e).actuated && (h.pair (e + 1)).actuated then h
    else ((h.enterDemand e).enterDemand (e + 1)).setHands e .demand (if h.handsReleased e then 1 else 0) := by
  simp only [Husk.evalHands, hst]

theorem Husk.evalHands_demand {h : Husk} {e : Nat} (hst : (h.pair e).state = .demand) : h.evalHands e =
    if h.handsReleased e then h.setHands e .demand 1
    else if (h.pair e).seq = 0 then h
    else if (h.pair e).actuated && (h.pair (e + 1)).actuated then h.setHands e .run 0
    else if (h.pair e).actuated || (h.pair (e + 1)).actuated then h.setHands e .demand 2
    else h := by
  simp only [Husk.evalHands, hst]

/-- The second actuation within its window enables a two-hand function (R272). -/
theorem Husk.evalHands_both {h : Husk} {e : Nat} (hst : (h.pair e).state = .demand) (hr : h.handsReleased e = false)
    (hseq : (h.pair e).seq ≠ 0) (ha : (h.pair e).actuated = true) (hb : (h.pair (e + 1)).actuated = true) :
    h.evalHands e = h.setHands e .run 0 := by
  rw [Husk.evalHands_demand hst, if_neg (Bool.eq_false_iff.mp hr), if_neg hseq, if_pos (by rw [ha, hb]; rfl)]

/-- The first actuation begins the window of the second (R272). -/
theorem Husk.evalHands_one {h : Husk} {e : Nat} (hst : (h.pair e).state = .demand) (hr : h.handsReleased e = false)
    (hseq : (h.pair e).seq ≠ 0) (hx : ((h.pair e).actuated != (h.pair (e + 1)).actuated) = true) :
    h.evalHands e = h.setHands e .demand 2 := by
  rw [Husk.evalHands_demand hst, if_neg (Bool.eq_false_iff.mp hr), if_neg hseq]
  cases ha : (h.pair e).actuated <;> cases hb : (h.pair (e + 1)).actuated <;> simp [ha, hb] at hx ⊢

/-- A two-hand function in FAULT leaves it with both controls released, through FAULT_CLR into DEMAND (R273). -/
theorem Husk.evalHands_fault {h : Husk} {e : Nat} (hst : (h.pair e).state = .fault) : h.evalHands e =
    if h.handsReleased e then ((h.setHands e .faultClr 0).setHands e .demand 1).ev 464 else h := by
  simp only [Husk.evalHands, hst]
  split
  case isTrue hr => exact if_pos ((h.handsReleased_setHands e _ _).trans hr)
  case isFalse => rfl

/-! ## One fault -/

/-- The pairs that a fault of pair `n` takes into FAULT. -/
def Husk.faultPairs (h : Husk) (n : Nat) : List Nat := if h.twoHand n then [evenPair n, evenPair n + 1] else [n]

/-- A pair's fault before the pair is evaluated: the states, the code, the events and the lock-out. -/
def Husk.enterFault (h : Husk) (n code : Nat) : Husk :=
  let g := forL (h.faultPairs n) (fun k h => h.setPair k { h.pair k with state := .fault, seq := 0 }) h
  (((g.setPair n { g.pair n with fcode := code }).ev 465).ev 468).blockReset

theorem Husk.pairFault_enters {h : Husk} {n : Nat} (hf : h.func n ≠ 0) (hst : (h.pair n).state ≠ .fault) (code : Nat) :
    h.pairFault n code = (h.enterFault n code).evaluate n := by
  unfold Husk.pairFault
  rw [if_neg hf, if_neg hst]
  rfl

/-- Pairs that are sent into FAULT one after the other are in FAULT, and the others where they were. -/
theorem Husk.state_forL_fault (l : List Nat) (k : Nat) : ∀ h : Husk,
    ((forL l (fun k h => h.setPair k { h.pair k with state := .fault, seq := 0 }) h).pair k).state =
      if k ∈ l then .fault else (h.pair k).state := by
  induction l with
  | nil => intro h; rfl
  | cons n l ih =>
    intro h
    refine (ih _).trans ?_
    rw [h.pair_setPair_eq]
    by_cases e : k = n <;> by_cases hl : k ∈ l <;> simp [e, hl]

theorem Husk.state_enterFault (h : Husk) (n code k : Nat) :
    ((h.enterFault n code).pair k).state = if k ∈ h.faultPairs n then .fault else (h.pair k).state := by
  rw [← Husk.state_forL_fault]
  unfold Husk.enterFault
  simp only [Husk.pair_blockReset, Husk.pair_ev, Husk.pair_setPair_eq]
  split
  case isTrue e => rw [e]
  case isFalse => rfl

theorem Husk.sameLevels_enterFault (h : Husk) (n code : Nat) : h.SameLevels (h.enterFault n code) := by
  have hk := h.sameLevels_kept
  refine Husk.SameLevels.blockReset (hk.ev _ _ (hk.ev _ _ (hk.setPair _ _ _ rfl ?_)))
  refine forL_keeps h.SameLevels _ _ (fun k g hg => ?_) h (.refl h)
  exact hk.setPair g k _ rfl hg

/-- The state that a fault of pair `n` leaves in the pairs it takes into FAULT: channels at demand level together leave it at once (R273). -/
def Husk.faultState (h : Husk) (n : Nat) : PairState :=
  if h.twoHand n then (if h.handsReleased (evenPair n) then .demand else .fault)
  else if (h.pair n).demandsBoth (h.func n) then .faultClr else .fault

/-- The state of every pair after a fault of pair `n`. -/
theorem Husk.state_pairFault {h : Husk} (hs : h.supply = true) (n code k : Nat) : ((h.pairFault n code).pair k).state =
    if h.func n ≠ 0 ∧ (h.pair n).state ≠ .fault ∧ k ∈ h.faultPairs n then h.faultState n else (h.pair k).state := by
  by_cases hf : h.func n = 0
  · rw [Husk.pairFault, if_pos hf, if_neg fun hc => hc.1 hf]
  by_cases hst : (h.pair n).state = .fault
  · rw [Husk.pairFault, if_neg hf, if_pos hst, if_neg fun hc => hc.2.1 hst, h.pair_setPair_eq]
    split
    case isTrue e => rw [e]
    case isFalse => rfl
  have hg := h.sameLevels_enterFault n code
  have hstate := h.state_enterFault n code
  rw [Husk.pairFault_enters hf hst]
  generalize h.enterFault n code = g at hg hstate
  have hgs : g.supply = true := hg.2.1.trans hs
  have hin : (h.func n ≠ 0 ∧ (h.pair n).state ≠ .fault ∧ k ∈ h.faultPairs n) = (k ∈ h.faultPairs n) := by simp [hf, hst]
  simp only [hin]
  cases ht : h.twoHand n
  case false =>
    have hpairs : ∀ k, k ∈ h.faultPairs n ↔ k = n := by simp [Husk.faultPairs, ht]
    simp only [hpairs] at hstate ⊢
    rw [Husk.evaluate_pair hgs (by rwa [hg.func]) (by rwa [hg.twoHand]), Husk.evalPair_fault (by simp [hstate]), hg.func,
      HPair.demandsBoth_of_levels (hg.2.2 n)]
    cases hd : (h.pair n).demandsBoth (h.func n) <;> by_cases e : k = n <;>
      simp [Husk.faultState, ht, hd, e, hstate, g.pair_setPair_eq]
  case true =>
    have hpairs : ∀ k, k ∈ h.faultPairs n ↔ evenPair k = evenPair n := by simp [Husk.faultPairs, ht, ← mem_hands_iff]
    have heven : evenPair (evenPair n) = evenPair n := mem_hands_iff.mp (by simp)
    simp only [hpairs] at hstate ⊢
    rw [Husk.evaluate_hands hgs (by rwa [hg.twoHand]), Husk.evalHands_fault (by simp [hstate, heven]), hg.handsReleased]
    cases hr : h.handsReleased (evenPair n) <;> by_cases e : evenPair k = evenPair n <;>
      simp [Husk.faultState, ht, hr, e, hstate, Husk.state_setHands]

/-! ## A row of faults -/

/-- A loop of faults brings pair `n` where its own fault brings it, if every fault keeps the pair's state within `p` and, from there,
within `q`. -/
theorem Husk.forL_faults {β : Type} {h : Husk} {n : Nat} (p q : PairState → Prop) {l : List β} {f : β → Husk → Husk} {b : β}
    (hf : ∀ b g, f b g = g ∨ ∃ j c, f b g = g.pairFault j c) (hb : ∃ c, ∀ g, f b g = g.pairFault n c) (hl : b ∈ l)
    (hp : ∀ g j c, h.SameLevels g → p (g.pair n).state → p ((g.pairFault j c).pair n).state)
    (hn : ∀ g c, h.SameLevels g → p (g.pair n).state → q ((g.pairFault n c).pair n).state)
    (hq : ∀ g j c, h.SameLevels g → p (g.pair n).state → q (g.pair n).state → q ((g.pairFault j c).pair n).state)
    (h0 : p (h.pair n).state) : q ((forL l f h).pair n).state := by
  refine forL_reaches (fun g => h.SameLevels g ∧ p (g.pair n).state) (fun g => q (g.pair n).state) f ?_ (b := b) ?_ ?_ l hl h ⟨.refl h, h0⟩
  · rintro b g ⟨hg, hpg⟩
    obtain e | ⟨j, c, e⟩ := hf b g <;> rw [e]
    · exact ⟨hg, hpg⟩
    · exact ⟨hg.pairFault j c, hp g j c hg hpg⟩
  · rintro g ⟨hg, hpg⟩
    obtain ⟨c, e⟩ := hb
    rw [e]
    exact hn g c hg hpg
  · rintro b g ⟨hg, hpg⟩ hqg
    obtain e | ⟨j, c, e⟩ := hf b g <;> rw [e]
    · exact hqg
    · exact hq g j c hg hpg hqg

/-- A pair whose levels release it from no fault. -/
def Husk.Held (h : Husk) (n : Nat) : Prop :=
  h.handsReleased (evenPair n) = false ∧ (h.twoHand n = false → (h.pair n).demandsBoth (h.func n) = false)

/-- A pair with channel A high is held in FAULT. -/
theorem Husk.held_of_high {h : Husk} {n : Nat} (ha : (h.pair n).lvlA = true) : h.Held n := by
  refine ⟨?_, fun _ => HPair.not_demandsBoth_of_high ha _⟩
  unfold Husk.handsReleased
  obtain e | e := self_mem_hands n
  · rw [← e, HPair.not_released_of_high ha (.inl rfl), Bool.false_and]
  · rw [← e, HPair.not_released_of_high ha (.inr rfl), Bool.and_false]

/-- A fault that takes a held pair into FAULT leaves it there. -/
theorem Husk.Held.faultState {h g : Husk} {n j : Nat} (hh : h.Held n) (hg : h.SameLevels g) (hj : n ∈ g.faultPairs j) :
    g.faultState j = .fault := by
  obtain ⟨hhands, hboth⟩ := hh
  unfold Husk.faultState
  unfold Husk.faultPairs at hj
  cases ht : g.twoHand j <;> simp only [ht, Bool.false_eq_true, if_false, if_true] at hj ⊢
  · obtain rfl := List.mem_singleton.mp hj
    rw [HPair.demandsBoth_of_levels (hg.2.2 n), hg.func, hboth (by rwa [← hg.twoHand]), if_neg Bool.false_ne_true]
  · rw [← mem_hands_iff.mp hj, hg.handsReleased, hhands, if_neg Bool.false_ne_true]

/-- The pair's own fault is one of the row. -/
theorem Husk.self_mem_faultPairs (h : Husk) (n : Nat) : n ∈ h.faultPairs n := by
  unfold Husk.faultPairs
  split
  · exact mem_hands_iff.mpr rfl
  · exact List.mem_singleton.mpr rfl

section
variable {β : Type} {h : Husk} {n : Nat} (hs : h.supply = true) (hfunc : h.func n ≠ 0) {l : List β} {f : β → Husk → Husk}
  (hf : ∀ b g, f b g = g ∨ ∃ j c, f b g = g.pairFault j c) {b : β} (hb : ∃ c, ∀ g, f b g = g.pairFault n c) (hl : b ∈ l)
include hs hfunc hf hb hl

/-- A held pair ends a row of faults that names it in FAULT. -/
theorem Husk.forL_faults_held (hh : h.Held n) : ((forL l f h).pair n).state = .fault := by
  refine Husk.forL_faults (fun _ => True) (· = .fault) hf hb hl (fun _ _ _ _ _ => trivial) (fun g c hg _ => ?_) (fun g j c hg _ hq => ?_) trivial
  · rw [Husk.state_pairFault (hg.2.1.trans hs)]
    by_cases hst : (g.pair n).state = .fault
    · rw [if_neg fun hc => hc.2.1 hst, hst]
    · rw [if_pos ⟨by rwa [hg.func], hst, g.self_mem_faultPairs n⟩, hh.faultState hg (g.self_mem_faultPairs n)]
  · rw [Husk.state_pairFault (hg.2.1.trans hs)]
    split
    case isTrue hc => exact hh.faultState hg hc.2.2
    case isFalse => exact hq

/-- A released two-hand function that is not in FAULT ends a row of faults in DEMAND. -/
theorem Husk.forL_faults_hands (ht : h.twoHand n = true) (hr : h.handsReleased (evenPair n) = true) (hst : (h.pair n).state ≠ .fault) :
    ((forL l f h).pair n).state = .demand := by
  have hmove : ∀ g j, h.SameLevels g → n ∈ g.faultPairs j → g.faultState j = .demand := by
    intro g j hg hj
    have htj : g.twoHand j = true := by
      cases htj : g.twoHand j
      case true => rfl
      case false =>
        rw [Husk.faultPairs, if_neg (Bool.eq_false_iff.mp htj)] at hj
        obtain rfl := List.mem_singleton.mp hj
        exact htj.symm.trans ((hg.twoHand n).trans ht)
    rw [Husk.faultPairs, if_pos htj] at hj
    rw [Husk.faultState, if_pos htj, if_pos (by rw [← mem_hands_iff.mp hj, hg.handsReleased, hr])]
  refine Husk.forL_faults (· ≠ .fault) (· = .demand) hf hb hl (fun g j c hg hp => ?_) (fun g c hg hp => ?_) (fun g j c hg _ hq => ?_) hst
  · rw [Husk.state_pairFault (hg.2.1.trans hs)]
    split
    case isTrue hc => rw [hmove g j hg hc.2.2]; exact nofun
    case isFalse => exact hp
  · rw [Husk.state_pairFault (hg.2.1.trans hs), if_pos ⟨by rwa [hg.func], hp, g.self_mem_faultPairs n⟩]
    exact hmove g n hg (g.self_mem_faultPairs n)
  · rw [Husk.state_pairFault (hg.2.1.trans hs)]
    split
    case isTrue hc => exact hmove g j hg hc.2.2
    case isFalse => exact hq

/-- A pair outside the two-hand functions ends a row of faults in FAULT, or in FAULT_CLR when it met the first of them at demand level. -/
theorem Husk.forL_faults_pair (h1 : h.twoHand (evenPair n) = false) (h2 : h.twoHand (evenPair n + 1) = false) :
    ((forL l f h).pair n).state =
      if (h.pair n).state ≠ .fault ∧ (h.pair n).demandsBoth (h.func n) = true then .faultClr else .fault := by
  have hown : ∀ g j, h.SameLevels g → n ∈ g.faultPairs j → j = n := by
    intro g j hg hj
    cases htj : g.twoHand j
    case false => exact (List.mem_singleton.mp (by simpa [Husk.faultPairs, htj] using hj)).symm
    case true =>
      have he : evenPair n = evenPair j := mem_hands_iff.mp (by simpa [Husk.faultPairs, htj] using hj)
      rw [hg.twoHand] at htj
      obtain e | e := self_mem_hands j <;> rw [← he] at e
      · rw [e, h1] at htj
        exact absurd htj Bool.false_ne_true
      · rw [e, h2] at htj
        exact absurd htj Bool.false_ne_true
  have ht : h.twoHand n = false := by
    obtain e | e := self_mem_hands n <;> rw [e] <;> assumption
  generalize htarget : (if (h.pair n).state ≠ .fault ∧ (h.pair n).demandsBoth (h.func n) = true then PairState.faultClr else .fault) = target
  have hstep : ∀ g c, h.SameLevels g → (g.pair n).state = (h.pair n).state ∨ (g.pair n).state = target →
      ((g.pairFault n c).pair n).state = target := by
    intro g c hg hst
    have hstate : g.faultState n = if (h.pair n).demandsBoth (h.func n) then .faultClr else .fault := by
      rw [Husk.faultState, if_neg (by simp [hg.twoHand, ht]), hg.func, HPair.demandsBoth_of_levels (hg.2.2 n)]
    rw [Husk.state_pairFault (hg.2.1.trans hs)]
    by_cases hgf : (g.pair n).state = .fault
    · rw [if_neg fun hc => hc.2.1 hgf]
      refine hst.elim (fun e => ?_) id
      rw [hgf, ← htarget, if_neg fun hc => hc.1 (e ▸ hgf)]
    · have hhf : (h.pair n).state ≠ .fault := fun hhf =>
        hgf (hst.elim (·.trans hhf) (·.trans (htarget ▸ if_neg fun hc => hc.1 hhf)))
      rw [if_pos ⟨by rwa [hg.func], hgf, g.self_mem_faultPairs n⟩, hstate, ← htarget]
      simp only [ne_eq, hhf, not_false_eq_true, true_and]
  have hstay : ∀ g j c, h.SameLevels g → j ≠ n → ((g.pairFault j c).pair n).state = (g.pair n).state := by
    intro g j c hg hj
    rw [Husk.state_pairFault (hg.2.1.trans hs), if_neg fun hc => hj (hown g j hg hc.2.2)]
  refine Husk.forL_faults (fun st => st = (h.pair n).state ∨ st = target) (· = target) hf hb hl (fun g j c hg hp => ?_) hstep
    (fun g j c hg hp hq => ?_) (.inl rfl)
  · by_cases e : j = n
    · rw [e]
      exact .inr (hstep g c hg hp)
    · rwa [hstay g j c hg e]
  · by_cases e : j = n
    · rw [e]
      exact hstep g c hg hp
    · rwa [hstay g j c hg e]

end

end Sys2Proof.Machine
end

section
/-!
Input levels, discrepancies, two-hand windows and test pulses of the Husk (R270 to R275; O42).
-/
namespace Sys2Proof.Machine

/-! ## A qualified level -/

/-- The Husk with the level of one input qualified (R270). -/
def Husk.withLevel (h : Husk) (n : Nat) (b level : Bool) : Husk :=
  h.setPair n (if b then { h.pair n with lvlB := level, qualB := true } else { h.pair n with lvlA := level, qualA := true })

/-- A qualified level moves its pair, and the outputs follow. -/
theorem exec_inputQualified {s : State} {n : Fin 8} {b level : Bool} (hs : s.husk.supply = true) {g : Husk}
    (hg : (s.husk.withLevel n.val b level).evaluate n.val = g) :
    exec (.safetyInputQualified n b level) s = .next (s.withHusk (g.settle s.husk)) :=
  exec_withHusk rfl ((if_neg (by simp [hs])).trans (congrArg (Husk.settle · s.husk) hg))

/-- Between qualified levels demand and release are those of the function (R271). -/
theorem HPair.demands_of_qual {p : HPair} (h : p.qual = true) (f : Nat) : p.demands f = demandLevel f p.lvlA p.lvlB ∧
    p.released f = releaseLevel f p.lvlA p.lvlB ∧ p.demandsBoth f = demandBoth f p.lvlA p.lvlB := by
  obtain ⟨ha, hb⟩ := Bool.and_eq_true_iff.mp h
  simp [HPair.demands, HPair.released, HPair.demandsBoth, h, ha, hb]

theorem Husk.discrepancy_due {h : Husk} {n : Nat} (hs : h.supply = true) (hd : (h.pair n).discrepant (h.func n) = true)
    (hst : (h.pair n).state ≠ .fault) : h.discrepancy n = (h.pairFault n 1).settle h :=
  if_pos (by simp [hs, hd, hst])

theorem Husk.twoHandTimeout_due {h : Husk} {e : Nat} (hs : h.supply = true) (hf : h.func e = 3) (hseq : (h.pair e).seq = 2) :
    h.twoHandTimeout e = h.setPair e { h.pair e with seq := 0 } :=
  if_pos (by simp [hs, hf, hseq])

/-! ## Test pulses -/

/-- Where a fault that a test pulse finds leaves pair `n` (R271 to R275). -/
def Husk.AtFault (h g : Husk) (n : Nat) : Prop :=
  (h.twoHand (evenPair n) = false → h.twoHand (evenPair n + 1) = false → (g.pair n).state =
    if (h.pair n).state ≠ .fault ∧ (h.pair n).demandsBoth (h.func n) = true then .faultClr else .fault) ∧
  (h.twoHand n = true → h.handsReleased (evenPair n) = false → (g.pair n).state = .fault) ∧
  (h.twoHand n = true → h.handsReleased (evenPair n) = true → (h.pair (evenPair n)).state ≠ .fault →
    (h.pair (evenPair n + 1)).state ≠ .fault → (g.pair n).state = .demand)

/-- Every loop of faults that names pair `n` leaves it there, before and after the outputs follow. -/
theorem Husk.atFault_forL {β : Type} {h : Husk} {n : Nat} (hs : h.supply = true) (hfunc : h.func n ≠ 0) {l : List β}
    {f : β → Husk → Husk} (hf : ∀ b g, f b g = g ∨ ∃ j c, f b g = g.pairFault j c) {b : β}
    (hb : ∃ c, ∀ g, f b g = g.pairFault n c) (hl : b ∈ l) : h.AtFault ((forL l f h).settle h) n := by
  unfold Husk.AtFault
  rw [Husk.pair_settle]
  refine ⟨Husk.forL_faults_pair hs hfunc hf hb hl, fun ht hr => Husk.forL_faults_held hs hfunc hf hb hl ⟨hr, fun hno => ?_⟩,
    fun ht hr h1 h2 => Husk.forL_faults_hands hs hfunc hf hb hl ht hr ?_⟩
  · rw [ht] at hno
    exact absurd hno.symm Bool.false_ne_true
  · obtain e | e := self_mem_hands n <;> rw [e] <;> assumption

/-- What an off-pulse of a test output does for one input (R274): an input that stays high on the pulse, or that follows a pulse of
another source, is at fault. -/
def Husk.pulseInput (h : Husk) (k low around : Nat) (i : Nat × Bool) (g : Husk) : Husk :=
  let bitNo := 2 * i.1 + i.2.toNat
  let s := h.source i.1 i.2
  let lvl := if i.2 then (h.pair i.1).lvlB else (h.pair i.1).lvlA
  if s = k + 1 then (if lvl && !low.testBit bitNo then g.pairFault i.1 2 else g)
  else if s != 0 && low.testBit bitNo && around.testBit bitNo then g.pairFault i.1 3
  else g

theorem Husk.testPulse_on {h : Husk} {k low around : Nat} (hs : h.supply = true) (ht : (leAt h.set 4 1).testBit k = true) :
    h.testPulse k low around = (forL inputs (h.pulseInput k low around) h).settle h := by
  unfold Husk.testPulse
  rw [if_neg (by simp [hs, ht])]
  rfl

theorem Husk.pulseInput_cases (h : Husk) (k low around : Nat) (i : Nat × Bool) (g : Husk) :
    h.pulseInput k low around i g = g ∨ ∃ j c, h.pulseInput k low around i g = g.pairFault j c := by
  unfold Husk.pulseInput
  extract_lets bitNo s lvl
  split
  · split
    · exact .inr ⟨_, _, rfl⟩
    · exact .inl rfl
  · split
    · exact .inr ⟨_, _, rfl⟩
    · exact .inl rfl

/-- An input of the pulse's source that stays high is at fault. -/
theorem Husk.pulseInput_stuck {h : Husk} {n k low : Nat} (around : Nat) (hsrc : h.source n false = k + 1) (ha : (h.pair n).lvlA = true)
    (hlow : low.testBit (2 * n) = false) (g : Husk) : h.pulseInput k low around (n, false) g = g.pairFault n 2 := by
  unfold Husk.pulseInput
  simp [hsrc, ha, hlow]

/-- An input of another source that follows the pulse is at fault. -/
theorem Husk.pulseInput_crossed {h : Husk} {n k low around : Nat} (h0 : h.source n true ≠ 0) (hk : h.source n true ≠ k + 1)
    (hlow : low.testBit (2 * n + 1) = true) (haround : around.testBit (2 * n + 1) = true) (g : Husk) :
    h.pulseInput k low around (n, true) g = g.pairFault n 3 := by
  unfold Husk.pulseInput
  simp [h0, hk, hlow, haround]

theorem mem_inputs (n : Fin 8) (b : Bool) : (n.val, b) ∈ inputs := by
  revert n b
  decide

/-- What an overcurrent of a test output does for one pair (R275). -/
def Husk.overcurrentPair (h : Husk) (k n : Nat) (g : Husk) : Husk :=
  if h.source n false == k + 1 || h.source n true == k + 1 then g.pairFault n 5 else g

theorem Husk.tpOvercurrent_on {h : Husk} {k : Nat} (hs : h.supply = true) (ht : (leAt h.set 4 1).testBit k = true) :
    h.tpOvercurrent k = (forL (List.range 8) (h.overcurrentPair k) h).settle h := by
  unfold Husk.tpOvercurrent
  rw [if_neg (by simp [hs, ht])]
  rfl

theorem Husk.overcurrentPair_cases (h : Husk) (k n : Nat) (g : Husk) :
    h.overcurrentPair k n g = g ∨ ∃ j c, h.overcurrentPair k n g = g.pairFault j c := by
  unfold Husk.overcurrentPair
  split
  · exact .inr ⟨_, _, rfl⟩
  · exact .inl rfl

/-- An overcurrent of the source of channel A is a fault of the pair. -/
theorem Husk.overcurrentPair_source {h : Husk} {n k : Nat} (hsrc : h.source n false = k + 1) (g : Husk) :
    h.overcurrentPair k n g = g.pairFault n 5 :=
  if_pos (by simp [hsrc])

/-! ## The obligation -/

/-- Settles O42: each command in the state of the pair, or of the two-hand function, that its hypotheses name. -/
theorem huskInputs : Obligations.HuskInputs := by
  unfold Obligations.HuskInputs
  intro s n b level hs
  extract_lets h old h1 p moves f e act rel hand atFault
  have hmoves : ∀ g, h1.evaluate n.val = g → moves g := fun g hg => exec_inputQualified hs hg
  refine ⟨fun hfunc htwo => ?pair, fun hfunc => hmoves _ (Husk.evaluate_off hfunc), fun htwo => ?hands, fun hfunc hseq => ?window,
    fun k hk => ?pulses⟩
  case pair =>
    have hpair : ∀ g, h1.evalPair n.val = g → moves g := fun g hg => hmoves g ((Husk.evaluate_pair (h := h1) hs hfunc htwo).trans hg)
    refine ⟨fun hq => p.demands_of_qual hq f, fun hst hd => ?_, fun hst hd => ?_, fun hst hr => ?_, fun hst hd => ?_, fun hst hr => ?_,
      fun hd hst => exec_withHusk rfl (Husk.discrepancy_due hs hd hst)⟩
    · exact hpair _ ((Husk.evalPair_active hst).trans (if_pos hd))
    · exact hpair _ ((Husk.evalPair_active hst).trans (if_neg (Bool.eq_false_iff.mp hd)))
    · exact hpair _ ((Husk.evalPair_demand hst).trans (if_pos hr))
    · exact hpair _ ((Husk.evalPair_fault hst).trans (if_pos hd))
    · exact hpair _ ((Husk.evalPair_faultClr hst).trans (if_pos hr))
  case hands =>
    have hhands : ∀ g, h1.evalHands e = g → moves g := fun g hg => hmoves g ((Husk.evaluate_hands (h := h1) hs htwo).trans hg)
    refine ⟨fun hst ha => ?_, fun hst hr => ?_, fun hst hr hseq => ⟨fun ha hb => ?_, fun hx => ?_⟩, fun hst hr => ?_⟩
    · exact hhands _ ((Husk.evalHands_run hst).trans (if_neg (Bool.eq_false_iff.mp ha)))
    · exact hhands _ ((Husk.evalHands_demand hst).trans (if_pos hr))
    · exact hhands _ (Husk.evalHands_both hst hr hseq ha hb)
    · exact hhands _ (Husk.evalHands_one hst hr hseq hx)
    · exact hhands _ ((Husk.evalHands_fault hst).trans (if_pos hr))
  case window => exact exec_withHusk rfl (Husk.twoHandTimeout_due hs hfunc hseq)
  case pulses =>
    refine ⟨fun low around => ⟨_, exec_withHusk rfl (Husk.testPulse_on hs hk), rfl, rfl, fun hfunc hsrc ha hlow => ?_,
      fun hfunc h0 hk' hlow haround => ?_⟩, _, exec_withHusk rfl (Husk.tpOvercurrent_on hs hk), rfl, rfl, fun hfunc hsrc => ?_⟩
    · rw [State.withHusk_husk, Husk.pair_settle]
      exact Husk.forL_faults_held hs hfunc (h.pulseInput_cases _ _ _) ⟨2, Husk.pulseInput_stuck _ hsrc ha hlow⟩ (mem_inputs n false)
        (Husk.held_of_high ha)
    · exact Husk.atFault_forL hs hfunc (h.pulseInput_cases _ _ _) ⟨3, Husk.pulseInput_crossed h0 hk' hlow haround⟩ (mem_inputs n true)
    · exact Husk.atFault_forL hs hfunc (h.overcurrentPair_cases _) ⟨5, Husk.overcurrentPair_source hsrc⟩ (List.mem_range.mpr n.isLt)

end Sys2Proof.Machine
end

section
/-!
The commands of the star (O41): where the words of the STR block lie in its map, what leaves and reaches a port, what its link does, and
what a write to each register makes of it.
-/
namespace Sys2Proof.Machine

/-! ## Writes to the blocks of the star and the ring (R471) -/

/-- A word that a row of its block's map holds is assigned. -/
theorem regDesc_isSome_of_mem {off i : Nat} {d : RegDesc} (hd : d ∈ blockMap (off / 0x100000)) (hs : 0 < d.stride) (hi : i < d.count)
    (hx : off % 0x100000 = d.off + d.stride * i) : (regDesc off).isSome = true := by
  rw [regDesc, List.find?_isSome]
  exact ⟨d, hd, (RegDesc.has_iff _ hs).mpr ⟨i, hi, hx⟩⟩

/-- A write to an assigned word of the STR or CRN block that leaves no request is what the block makes of it. -/
theorem State.regw_starRing (s : State) (m : Master) {off : Nat} {v : W32} {d : Chip} (hlo : 0x600000 ≤ off) (hhi : off < 0x800000)
    (hdesc : (regDesc off).isSome = true) (hd : s.chip.blockWrite off v = d) (hq : d.quiet = true) :
    s.regw m off v = .next (s.withChip d) := by
  rw [← hd] at hq ⊢
  exact s.regw_open m off v (by omega) (by omega) (Option.isNone_eq_false_iff.mpr hdesc) (by omega) hq

/-! ## Downlinks (R314, R316) -/

/-- The header begins with TYPE, VERSION and HS. -/
theorem Chip.downHeader_take (c : Chip) (n : Nat) (stop : Bool) (ncmd : Nat) (smsg : Bool) (aux : Nat) :
    (c.downHeader n stop ncmd smsg aux).take 3 = [0xD1#8, 1#8, hsByte stop] := rfl

/-- The header has 32 bytes. -/
theorem Chip.downHeader_length (c : Chip) (n : Nat) (stop : Bool) (ncmd : Nat) (smsg : Bool) (aux : Nat) :
    (c.downHeader n stop ncmd smsg aux).length = 32 := by
  simp only [Chip.downHeader, List.length_append, toBytes_length, List.length_cons, List.length_nil]

/-- A port that is not OFF sends its payload behind a header, with FCRC over both. -/
theorem Chip.downlinkSend_payload (c : Chip) {n ncmd aux : Nat} {smsg : Bool} {bytes : List Byte} (stop : Bool)
    (hp : (c.port n).payload = some (ncmd, smsg, aux, bytes)) (hs : c.portState n ≠ psOff) :
    c.downlinkSend n stop =
      let f := c.downHeader n stop ncmd smsg aux ++ bytes
      c.modPort n fun p => { p with payload := none, sent := f ++ toBytes 4 (crc32c f) } := by
  simp only [Chip.downlinkSend, hp, if_neg hs]

/-! ## Uplinks (R318) -/

/-- A port in OFF, DOWN or FENCED takes no frame. -/
theorem Chip.uplinkFrame_closed (c : Chip) {n : Nat} (h : c.portState n = psOff ∨ c.portState n = psDown ∨ c.portState n = psFenced)
    (ts : Int) (bytes : List Byte) (codeOk : Bool) : c.uplinkFrame n ts bytes codeOk = c :=
  if_pos h

/-- A port in RUN is in none of the states that take no frame. -/
theorem Chip.notClosed_of_run {c : Chip} {n : Nat} (h : c.portState n = psRun) :
    ¬ (c.portState n = psOff ∨ c.portState n = psDown ∨ c.portState n = psFenced) := by
  rw [h]; decide

/-- The second frame of a tick is cut. -/
theorem Chip.uplinkFrame_second (c : Chip) {n : Nat} (hrun : c.portState n = psRun) (hsof : (c.port n).sof = true) (ts : Int)
    (bytes : List Byte) (codeOk : Bool) : c.uplinkFrame n ts bytes codeOk = c.frameBad n false := by
  unfold Chip.uplinkFrame
  dsimp only
  rw [if_neg (Chip.notClosed_of_run hrun), if_pos (by rw [hsof]; rfl)]

/-- A valid frame of a port in RUN within the window, the guard and the port's length is accepted. -/
theorem Chip.uplinkFrame_accepted (c : Chip) {n : Nat} {ts : Int} {bytes : List Byte} {codeOk : Bool} (hrun : c.portState n = psRun)
    (hsof : (c.port n).sof = false) (hopen : (16 * c.ulStart : Nat) ≤ ts) (hclose : ts ≤ (16 * c.ulEnd : Nat))
    (hlo : -c.guard16 ≤ ts - c.slot16 n) (hhi : ts - c.slot16 n ≤ c.guard16) (hlen : bytes.length + 2 ≤ c.regF (portReg n 0) 25 16)
    (hvalid : c.uplinkValid bytes codeOk true = true) :
    c.uplinkFrame n ts bytes codeOk = (c.modPort n fun p => { p with sof := true }).frameAccept n (ts - c.slot16 n) bytes := by
  have hwindow : ¬ ((c.port n).sof || decide (ts < (16 * c.ulStart : Nat)) || decide (ts > (16 * c.ulEnd : Nat))) = true := by
    rw [hsof, decide_eq_false (Int.not_lt.mpr hopen), decide_eq_false (Int.not_lt.mpr hclose)]
    decide
  have hguard : ¬ (decide (c.portState n = psRun) &&
      (decide (ts - c.slot16 n < -c.guard16) || decide (ts - c.slot16 n > c.guard16))) = true := by
    simp [hlo, hhi]
  have hgood : ¬ (!c.uplinkValid bytes codeOk (c.portState n == psRun)) = true := by simp [hrun, hvalid]
  exact (if_neg (Chip.notClosed_of_run hrun)).trans ((if_neg hwindow).trans ((if_neg hguard).trans
    ((if_neg (Nat.not_lt.mpr hlen)).trans (if_neg hgood))))

/-! ## Links (R310, R319) -/

/-- A change of a port's state leaves its event due. -/
theorem Chip.setPortState_ne (c : Chip) {n st : Nat} (h : c.portState n ≠ st) :
    c.setPortState n st = (c.setF (pstReg n 0) 31 29 st).modPort n fun p => { p with moved := true } :=
  if_neg h

/-- A port that is neither OFF nor DOWN goes DOWN. -/
theorem Chip.starLoss_up (c : Chip) {n : Nat} (hoff : c.portState n ≠ psOff) (hdown : c.portState n ≠ psDown) :
    c.starLoss n = (c.setF (pstReg n 0) 31 29 psDown).modPort n fun p => { p with moved := true } :=
  (if_neg hoff).trans (c.setPortState_ne hdown)

/-- With AUTO 0 a port that is DOWN is fenced. -/
theorem Chip.starRegain_fenced (c : Chip) {n : Nat} (hdown : c.portState n = psDown) (hauto : c.regB (portReg n 0) 30 = false) :
    c.starRegain n = c.fencePort n := by
  simp [Chip.starRegain, hdown, hauto]

/-- With AUTO 1 it is admitted. -/
theorem Chip.starRegain_auto (c : Chip) {n : Nat} (hdown : c.portState n = psDown) (hauto : c.regB (portReg n 0) 30 = true) :
    c.starRegain n = c.enterAdmit n := by
  simp [Chip.starRegain, hdown, hauto]

/-! ## STR_ADMIT and STR_GUARD (R319, R332) -/

/-- A write that is ignored sets CFG_IGN. -/
theorem Chip.strIgn_eq (c : Chip) : c.strIgn = c.setB 0x600000 1 true := rfl

/-- A port that enters ADMIT leaves no request. -/
theorem Chip.quiet_enterAdmit (c : Chip) (n : Nat) : (c.enterAdmit n).quiet = c.quiet := by
  have hstate : (c.setPortState n psAdmit).quiet = c.quiet := by
    unfold Chip.setPortState
    split <;> rfl
  exact hstate

/-- A write to STR_ADMIT is the star's. -/
theorem exec_strAdmit (s : State) (m : Master) {v : W32} {d : Chip} (hd : s.chip.admitWrite v = d) (hq : d.quiet = true) :
    exec (.strAdmit m v) s = .next (s.withChip d) :=
  s.regw_starRing m (by decide) (by decide) (by decide) hd hq

/-- A fenced port is admitted. -/
theorem Chip.admitWrite_fenced (c : Chip) {v : W32} (h : c.portState (fld v 4 0) = psFenced) :
    c.admitWrite v = c.enterAdmit (fld v 4 0) :=
  if_pos h

/-- For another port the write is ignored. -/
theorem Chip.admitWrite_ignored (c : Chip) {v : W32} (h : c.portState (fld v 4 0) ≠ psFenced) : c.admitWrite v = c.setB 0x600000 1 true :=
  if_neg h

/-- A write to STR_GUARD is the star's. -/
theorem exec_strGuardWrite (s : State) (m : Master) {v : W32} {d : Chip} (hd : s.chip.guardWrite v = d) (hq : d.quiet = true) :
    exec (.strGuardWrite m v) s = .next (s.withChip d) :=
  s.regw_starRing m (by decide) (by decide) (by decide) hd hq

/-- In CONFIG both fields take values within their bounds. -/
theorem Chip.guardWrite_good (c : Chip) {v : W32} (hc : c.inConfig = true) (hstep : fld v 23 16 ≠ 0) (hlo : 8 ≤ fld v 8 0)
    (hhi : fld v 8 0 ≤ 400) : c.guardWrite v = (c.setF 0x600004 23 16 (fld v 23 16)).setF 0x600004 8 0 (fld v 8 0) := by
  simp [Chip.guardWrite, hc, hstep, hlo, hhi]

/-- Outside CONFIG the write is ignored. -/
theorem Chip.guardWrite_locked (c : Chip) (v : W32) (hc : c.inConfig = false) : c.guardWrite v = c.setB 0x600000 1 true := by
  simp [Chip.guardWrite, hc, Chip.strIgn_eq]

/-! ## The words of a port (R317, R332) -/

/-- The STR map has a row for each of the first eight words of the ports. -/
theorem strMap_port : ∀ w : Fin 8, ∃ d ∈ strMap, d.off = 0x1000 + 4 * w.val ∧ d.stride = 64 ∧ d.count = 32 := by decide

/-- A write to a word of a port is the star's. -/
theorem exec_strPortWrite (s : State) (m : Master) (n : Fin 32) (w : Fin 8) {v : W32} {d : Chip}
    (hd : s.chip.portWrite n.val w.val v = d) (hq : d.quiet = true) :
    exec (.strPortWrite m n (w.castLE (by decide)) v) s = .next (s.withChip d) := by
  obtain ⟨row, hrow, hoff, hstride, hcount⟩ := strMap_port w
  have hblock : portReg n.val w.val / 0x100000 = 6 := by unfold portReg; omega
  have hword : portReg n.val w.val % 0x100000 = 0x1000 + 64 * n.val + 4 * w.val := by unfold portReg; omega
  have hport : (0x1000 + 64 * n.val + 4 * w.val - 0x1000) / 64 = n.val := by omega
  have hindex : (0x1000 + 64 * n.val + 4 * w.val) % 64 / 4 = w.val := by omega
  have hdesc : (regDesc (portReg n.val w.val)).isSome = true := by
    refine regDesc_isSome_of_mem (i := n.val) (d := row) (by rw [hblock]; exact hrow) (by omega) (by omega) ?_
    rw [hword, hoff, hstride, Nat.add_right_comm]
  refine s.regw_starRing m (off := portReg n.val w.val) (by unfold portReg; omega) (by unfold portReg; omega) hdesc ?_ hq
  simp only [Chip.blockWrite, hblock, hword]
  rw [Chip.strWrite, if_neg (by omega), if_neg (by omega), if_pos (by omega), hport, hindex, hd]

/-- In CONFIG every word of a port is written by the map. -/
theorem Chip.portWrite_config (c : Chip) (n w : Nat) (v : W32) (hc : c.inConfig = true) :
    c.portWrite n w v = c.mapWrite (portReg n w) v := by
  unfold Chip.portWrite
  split
  · next hw => simp [Chip.portCtrl, hc, hw]
  · simp [hc]

/-- Outside CONFIG an enabled port ignores a write to words 1 to 7. -/
theorem Chip.portWrite_locked (c : Chip) {n w : Nat} (v : W32) (hc : c.inConfig = false) (h0 : w ≠ 0) (h8 : w < 8)
    (hen : c.portEn n = true) : c.portWrite n w v = c.setB 0x600000 1 true := by
  simp [Chip.portWrite, hc, h0, h8, hen, Chip.strIgn_eq]

/-! ## The obligation -/

/-- Settles O41: each frame, change of a link and write of the star in the state that its clause names. -/
theorem starCommands : Obligations.StarCommands := by
  unfold Obligations.StarCommands
  intro s m hq
  dsimp only
  refine ⟨?down, ?up, ?link, ?registers, ?port⟩
  case down =>
    intro n ncmd aux smsg bytes hp hs
    have hlen := s.chip.downHeader_length n.val s.husk.stop ncmd smsg aux
    refine ⟨s.chip.downHeader n.val s.husk.stop ncmd smsg aux ++ bytes,
      s.onChip_gives (s.chip.downlinkSend_payload s.husk.stop hp hs), ?_, List.drop_left' hlen⟩
    rw [List.take_append_of_le_length (by omega), Chip.downHeader_take, hsByte]
  case up =>
    intro n ts bytes codeOk
    refine ⟨fun h => ?closed, fun hrun hsof h0 h1 hlo hhi hlen hvalid => ?accepted, fun hrun hsof => ?second⟩
    case closed => exact s.onChip_gives (s.chip.uplinkFrame_closed h ts bytes codeOk)
    case accepted =>
      exact s.onChip_gives (s.chip.uplinkFrame_accepted hrun hsof (Int.ofNat_le.mpr h0) (Int.ofNat_le.mpr h1) hlo hhi hlen hvalid)
    case second => exact s.onChip_gives (s.chip.uplinkFrame_second hrun hsof ts bytes codeOk)
  case link =>
    exact fun n => ⟨fun hoff hdown => s.onChip_gives (s.chip.starLoss_up hoff hdown),
      fun hdown hauto => s.onChip_gives (s.chip.starRegain_fenced hdown hauto),
      fun hdown hauto => s.onChip_gives (s.chip.starRegain_auto hdown hauto)⟩
  case registers =>
    exact fun v => ⟨fun h => exec_strAdmit s m (s.chip.admitWrite_fenced h) ((s.chip.quiet_enterAdmit _).trans hq),
      fun h => exec_strAdmit s m (s.chip.admitWrite_ignored h) hq,
      fun hc hstep hlo hhi => exec_strGuardWrite s m (s.chip.guardWrite_good hc hstep hlo hhi) hq,
      fun hc => exec_strGuardWrite s m (s.chip.guardWrite_locked v hc) hq⟩
  case port =>
    exact fun n w v => ⟨fun hc => exec_strPortWrite s m n w (s.chip.portWrite_config _ _ v hc) ((s.chip.quiet_mapWrite _ _).trans hq),
      fun hc h0 hen => exec_strPortWrite s m n w (s.chip.portWrite_locked v hc h0 w.isLt hen) hq⟩

end Sys2Proof.Machine
end

section
/-!
The commands of a twin pair and of the hot join (O49): the flashes it sends, what the partner's flash and mask leave, what is missing by
its deadline, the decision on a digest mismatch, and the join up to its first replayed tick.
-/
namespace Sys2Proof.Machine

/-! ## Events of the ring (R363) -/

/-- A ring event changes registers, the scheduler's arrivals, the times of firing and the events already fired. -/
theorem Chip.crnFire_frame (c : Chip) (n : Nat) : c.crnFire n =
    { c with
      regs := (c.crnFire n).regs, sched := (c.crnFire n).sched, lastFire := (c.crnFire n).lastFire, ring := (c.crnFire n).ring } := by
  unfold Chip.crnFire
  split
  · rfl
  · rw [Chip.fire_frame]; rfl

/-- A ring event leaves the twin. -/
@[simp] theorem Chip.crnFire_twin (c : Chip) (n : Nat) : (c.crnFire n).twin = c.twin := by rw [c.crnFire_frame n]

/-- A ring event leaves no request. -/
@[simp] theorem Chip.quiet_crnFire (c : Chip) (n : Nat) : (c.crnFire n).quiet = c.quiet := by rw [c.crnFire_frame n]; rfl

/-- A ring event writes registers of the host block alone. -/
theorem Chip.reg_crnFire (c : Chip) (n : Nat) {off : Nat} (h : off < 0xF00040) : (c.crnFire n).reg off = c.reg off := by
  unfold Chip.crnFire
  split
  · rfl
  · exact Chip.reg_fire _ n h

/-! ## OWNER and ELIG (R353, R364) -/

/-- OWNER is a register's bit. -/
theorem Chip.owner_of_regs {c d : Chip} (h : d.regs = c.regs) : d.owner = c.owner := by
  simp only [Chip.owner, Chip.regB, Chip.reg, h]

/-- A ring event leaves OWNER. -/
@[simp] theorem Chip.owner_crnFire (c : Chip) (n : Nat) : (c.crnFire n).owner = c.owner :=
  congrArg (bit · 29) (c.reg_crnFire n (by omega))

/-- A written bit of another number leaves OWNER, whichever register it is in. -/
theorem Chip.owner_setB (c : Chip) (off : Nat) {i : Nat} (b : Bool) (h : i ≠ 29) : (c.setB off i b).owner = c.owner := by
  refine (congrArg (bit · 29) (c.reg_setReg_eq off 0x700020 _)).trans ?_
  split
  · next hoff =>
    rw [← hoff, setBit, bit_setFld _ (by omega), if_neg (by omega)]
    rfl
  · rfl

/-- A twin that gives up ownership owns no more. -/
theorem Chip.owner_dropOwner (c : Chip) : c.dropOwner.owner = false := by
  unfold Chip.dropOwner
  split
  · have hdropped : (c.setOwner false).owner = false := by
      unfold Chip.setOwner Chip.setB Chip.owner Chip.regB
      rw [Chip.reg_setReg, bit_setBit _ _ (by omega)]
    refine (Chip.owner_crnFire _ _).trans (Eq.trans ?_ hdropped)
    exact congrArg (bit · 29) ((c.setOwner false).reg_setReg_ne _ _ _ (by decide))
  · next h => exact Bool.eq_false_iff.mpr h

/-- Giving up ownership leaves the twin. -/
@[simp] theorem Chip.dropOwner_twin (c : Chip) : c.dropOwner.twin = c.twin := by
  unfold Chip.dropOwner
  split
  · exact Chip.crnFire_twin _ _
  · rfl

/-- Giving up ownership leaves no request. -/
@[simp] theorem Chip.quiet_dropOwner (c : Chip) : c.dropOwner.quiet = c.quiet := by
  unfold Chip.dropOwner
  split
  · exact Chip.quiet_crnFire _ _
  · rfl

/-- A twin that yields neither owns nor is eligible. -/
theorem Chip.yieldNow_owner (c : Chip) : c.yieldNow.owner = false ∧ c.yieldNow.eligible = false := by
  refine ⟨(c.dropOwner.owner_setB _ _ (by decide)).trans c.owner_dropOwner, ?_⟩
  refine (congrArg (bit · 30) (c.dropOwner.reg_setReg 0x700020 _)).trans ?_
  exact bit_setBit _ _ (by omega)

/-! ## Flashes that a twin sends (R354) -/

/-- A mask flash up to its FCRC. -/
def Chip.maskHead (c : Chip) : List Byte := toBytes 1 0x5F ++ toBytes 1 c.station ++ toBytes 2 c.tick ++ toBytes 4 (c.reg 0x60000C).toNat

/-- It has 8 bytes. -/
theorem Chip.maskHead_length (c : Chip) : c.maskHead.length = 8 := by
  simp only [Chip.maskHead, List.length_append, toBytes_length]

/-- A mask flash: its head, its FCRC and four zero bytes. -/
def Chip.maskBytes (c : Chip) : List Byte := c.maskHead ++ toBytes 4 (crc32c c.maskHead) ++ [0, 0, 0, 0]

/-- It has 16 bytes and begins with its head. -/
theorem Chip.maskBytes_head (c : Chip) : c.maskBytes.length = 16 ∧ c.maskBytes.take 8 = c.maskHead := by
  constructor
  · simp only [Chip.maskBytes, List.length_append, c.maskHead_length, toBytes_length, List.length_cons, List.length_nil]
  · rw [Chip.maskBytes, List.append_assoc, List.take_left' c.maskHead_length]

/-- A twin that sends flashes sends its mask flash. -/
theorem Chip.maskFlashSend_flashing (c : Chip) (h : c.flashing = true) : c.maskFlashSend = c.twinSend c.maskBytes :=
  if_pos h

/-- It sends its input flash. -/
theorem Chip.flashSend_flashing (c : Chip) (sseq : Nat) (h : c.flashing = true) :
    c.flashSend sseq = c.twinSend (ringFrame (c.twinFlash sseq)) :=
  if_pos h

/-! ## A header that is seen (R336) -/

/-- An uncorrupted frame is no collision. -/
theorem Chip.coldHears_ok (c : Chip) : c.coldHears true = c := by
  simp [Chip.coldHears]

/-- A header that is seen writes words of CRN_STA alone. -/
theorem Chip.reg_headerSeen (c : Chip) (b : List Byte) {off : Nat} (h : off < 0x702000) : (c.headerSeen b).reg off = c.reg off := by
  have hsta : ∀ s w, off ≠ staReg s w := fun s w => by unfold staReg; omega
  exact (Chip.reg_setReg_ne _ _ _ _ (hsta _ _)).trans ((Chip.reg_setReg_ne _ _ _ _ (hsta _ _)).trans
    (Chip.reg_setReg_ne _ _ _ _ (hsta _ _)))

/-- The words below CRN_STA tell whether the position holds a pair, and the partner's number. -/
theorem Chip.paired_of_regs {c d : Chip} (h : ∀ off, off < 0x702000 → d.reg off = c.reg off) :
    d.paired = c.paired ∧ d.partner = c.partner := by
  have hmode : d.crnMode = c.crnMode := congrArg (fld · 23 21) (h _ (by decide))
  have hen : d.ringEn = c.ringEn := congrArg (bit · 31) (h _ (by decide))
  have hstraps : d.reg 0x200 = c.reg 0x200 := h _ (by decide)
  have hpartner : d.partner = c.partner := by simp only [Chip.partner, Chip.position, Chip.twinT, Chip.regF, hstraps]
  have hm : c.crnMode < 8 := fld_lt _ 23 21
  have hp : c.partner < 17 := by
    have hpos : c.position < 8 := fld_lt _ 2 0
    unfold Chip.partner; omega
  have hloaded : d.modeLoaded c.crnMode = c.modeLoaded c.crnMode := congrArg (bit · 31) (h _ (by unfold modeReg; omega))
  have hpresent : d.present c.crnMode c.partner = c.present c.crnMode c.partner :=
    congrArg (fld · 13 0 != 0) (h _ (by unfold modeReg; omega))
  exact ⟨by simp only [Chip.paired, hmode, hen, hpartner, hloaded, hpresent], hpartner⟩

/-! ## The partner's input flash (R354, R356, R357) -/

/-- What a twin has noted of its partner's flash, with what its own ownership and its join turn on. -/
def Twin.notes (t : Twin) : Option (List Byte) × Nat × Bool × Bool × Nat := (t.flash, t.pflags, t.hbNow, t.joining, t.ownTick)

/-- The flash is noted. -/
def Chip.flashNoted (c : Chip) (b : List Byte) : Chip :=
  ((c.headerSeen b).setB 0x700020 28 ((leAt b 0x22 2).testBit 0)).modTwin fun t => { t with
    flash := some b, pflags := leAt b 0x22 2, pOwnTick := leAt b 0x24 4, hbNow := true, pSeq := leAt b 0x30 4
    sawRetq := (leAt b 0x22 2).testBit 4, sawReta := (leAt b 0x22 2).testBit 5 }

/-- The owner's record in it is used where it is due. -/
def Chip.flashUsed (c : Chip) (b : List Byte) : Chip :=
  if c.twin.recDue && (leAt b 0x22 2).testBit 0 then (c.useRecord b).modTwin fun t => { t with recDue := false } else c

/-- Its digest is compared where both twins' digests count. -/
def Chip.flashCompared (c : Chip) (b : List Byte) : Chip :=
  if (c.owner || c.eligible) && ((leAt b 0x22 2).testBit 0 || (leAt b 0x22 2).testBit 1) &&
      leAt b 0x28 4 == wrapN 32 ((c.tick : Int) - 1) && leAt b 0x2C 4 != c.twin.digest then
    c.digestMismatch ((leAt b 0x22 2).testBit 3)
  else c

/-- A faulty owner's place is taken. -/
def Chip.flashFault (c : Chip) (b : List Byte) : Chip :=
  if (leAt b 0x22 2).testBit 2 && (leAt b 0x22 2).testBit 0 && !c.owner && c.eligible then c.wantOwner true else c

/-- Of two owners that of the earlier tick yields, at a tie Y; where neither owns, an eligible twin asks for ownership. -/
def Chip.flashOwners (c : Chip) (b : List Byte) : Chip :=
  if c.owner && (leAt b 0x22 2).testBit 0 then
    if leAt b 0x24 4 > c.twin.ownTick then c.yieldNow else if leAt b 0x24 4 == c.twin.ownTick && c.twinT == 1 then c.dropOwner else c
  else if !c.owner && !(leAt b 0x22 2).testBit 0 && c.eligible && (!(leAt b 0x22 2).testBit 1 || decide (c.station < c.partner)) then
    c.wantOwner true
  else c

/-- A valid flash of the partner of a pair passes through these steps. -/
theorem Chip.twinInputFlash_partner (c : Chip) {b : List Byte} (hp : c.paired = true) (hok : ringFrameOk 0x5E b true = true)
    (hlen : b.length = 456) (hsrc : leAt b 1 1 = c.partner) :
    c.twinInputFlash b true = ((((c.flashNoted b).flashUsed b).flashCompared b).flashFault b).flashOwners b := by
  obtain ⟨hpaired, hpartner⟩ := Chip.paired_of_regs (c := c) (d := c.headerSeen b) fun off h => c.reg_headerSeen b h
  have hvalid : (ringFrameOk 0x5E b true && b.length == 456) = true := by rw [hok, hlen]; rfl
  have htaken : ¬ (!((c.headerSeen b).paired && true && leAt b 1 1 == (c.headerSeen b).partner)) = true := by
    simp [hpaired, hpartner, hp, hsrc]
  unfold Chip.twinInputFlash
  rw [hvalid]
  extract_lets ok heard seen
  have hseen : seen = c.headerSeen b := congrArg (·.headerSeen b) c.coldHears_ok
  clear_value seen
  subst hseen
  exact if_neg htaken

/-- An entry of the record leaves registers and the twin. -/
theorem Chip.useLchEntry_frame (c : Chip) (n : Nat) (e : List Byte) :
    (c.useLchEntry n e).regs = c.regs ∧ (c.useLchEntry n e).twin = c.twin :=
  ⟨rfl, rfl⟩

/-- The record leaves registers and the notes. -/
theorem Chip.useRecord_keeps (c : Chip) (b : List Byte) :
    (c.useRecord b).regs = c.regs ∧ (c.useRecord b).twin.notes = c.twin.notes := by
  unfold Chip.useRecord
  extract_lets d
  have hentries : d.regs = c.regs ∧ d.twin = c.twin := by
    refine forN_keeps (fun x : Chip => x.regs = c.regs ∧ x.twin = c.twin) _ 16 (fun n x _ h => ?_) c ⟨rfl, rfl⟩
    obtain ⟨hregs, htwin⟩ := x.useLchEntry_frame n ((b.drop (0x40 + 24 * n)).take 24)
    exact ⟨hregs.trans h.1, htwin.trans h.2⟩
  clear_value d
  obtain ⟨hregs, htwin⟩ := hentries
  refine ⟨hregs, ?_⟩
  rw [← htwin]
  rfl

/-- The use of the record leaves the notes and OWNER. -/
theorem Chip.flashUsed_keeps (c : Chip) (b : List Byte) :
    (c.flashUsed b).twin.notes = c.twin.notes ∧ (c.flashUsed b).owner = c.owner := by
  obtain ⟨hregs, hnotes⟩ := c.useRecord_keeps b
  unfold Chip.flashUsed
  generalize c.useRecord b = d at hregs hnotes ⊢
  split
  · exact ⟨hnotes, Chip.owner_of_regs hregs⟩
  · exact ⟨rfl, rfl⟩

/-- A digest mismatch leaves the notes, and an owner its ownership until the tick ends. -/
theorem Chip.digestMismatch_keeps (c : Chip) (stf : Bool) :
    (c.digestMismatch stf).twin.notes = c.twin.notes ∧ (c.digestMismatch stf).owner = c.owner := by
  unfold Chip.digestMismatch
  extract_lets mine d e
  have htwin : d.twin = ((c.modTwin fun t => { t with mm := true }).crnStat 8).twin := Chip.crnFire_twin _ _
  have hnotes : d.twin.notes = c.twin.notes := by rw [htwin]; rfl
  have howner : d.owner = c.owner := (Chip.owner_crnFire _ _).trans (Chip.owner_setB _ _ _ (by decide))
  have hineligible : ∀ x : Chip, x.ineligible.owner = x.owner := fun x => x.owner_setB _ _ (by decide)
  split
  · split
    · exact ⟨hnotes, howner⟩
    · exact ⟨hnotes, (hineligible d).trans howner⟩
  · split
    · split
      · exact ⟨hnotes, howner⟩
      · exact ⟨hnotes, howner⟩
    · have howner' : e.owner = c.owner := (d.owner_setB _ _ (by decide)).trans howner
      split
      · exact ⟨hnotes, howner'⟩
      · exact ⟨hnotes, (hineligible e).trans howner'⟩

/-- The comparison of digests leaves the notes and OWNER. -/
theorem Chip.flashCompared_keeps (c : Chip) (b : List Byte) :
    (c.flashCompared b).twin.notes = c.twin.notes ∧ (c.flashCompared b).owner = c.owner := by
  unfold Chip.flashCompared
  split
  · exact c.digestMismatch_keeps _
  · exact ⟨rfl, rfl⟩

/-- A faulty owner's place is taken at the tick boundary, so the notes and OWNER stay. -/
theorem Chip.flashFault_keeps (c : Chip) (b : List Byte) :
    (c.flashFault b).twin.notes = c.twin.notes ∧ (c.flashFault b).owner = c.owner := by
  unfold Chip.flashFault
  split <;> exact ⟨rfl, rfl⟩

/-- The rule of two owners and of none leaves the notes. -/
theorem Chip.flashOwners_notes (c : Chip) (b : List Byte) : (c.flashOwners b).twin.notes = c.twin.notes := by
  have hdropped : c.dropOwner.twin.notes = c.twin.notes := congrArg Twin.notes c.dropOwner_twin
  unfold Chip.flashOwners
  split
  · split
    · exact hdropped
    · split
      · exact hdropped
      · rfl
  · split <;> rfl

/-- An owner that another one of a later tick meets yields. -/
theorem Chip.flashOwners_yields (c : Chip) {b : List Byte} (ho : c.owner = true) (hown : (leAt b 0x22 2).testBit 0 = true)
    (hlater : c.twin.ownTick < leAt b 0x24 4) : c.flashOwners b = c.yieldNow := by
  unfold Chip.flashOwners
  rw [if_pos (by rw [ho, hown]; rfl), if_pos hlater]

/-- What a valid flash of the partner leaves noted. -/
theorem Chip.twinInputFlash_notes (c : Chip) {b : List Byte} (hp : c.paired = true) (hok : ringFrameOk 0x5E b true = true)
    (hlen : b.length = 456) (hsrc : leAt b 1 1 = c.partner) :
    (c.twinInputFlash b true).twin.notes = (some b, leAt b 0x22 2, true, c.twin.joining, c.twin.ownTick) := by
  rw [c.twinInputFlash_partner hp hok hlen hsrc, Chip.flashOwners_notes, (Chip.flashFault_keeps _ b).1, (Chip.flashCompared_keeps _ b).1,
    (Chip.flashUsed_keeps _ b).1]
  rfl

/-- An owner that meets the flash of an owner of a later tick yields at once. -/
theorem Chip.twinInputFlash_yields (c : Chip) {b : List Byte} (hp : c.paired = true) (hok : ringFrameOk 0x5E b true = true)
    (hlen : b.length = 456) (hsrc : leAt b 1 1 = c.partner) (ho : c.owner = true) (hown : (leAt b 0x22 2).testBit 0 = true)
    (hlater : c.twin.ownTick < leAt b 0x24 4) :
    (c.twinInputFlash b true).owner = false ∧ (c.twinInputFlash b true).eligible = false := by
  have hnoted : (c.flashNoted b).owner = true :=
    ((Chip.owner_setB _ _ _ (by decide)).trans (congrArg (bit · 29) (c.reg_headerSeen b (by decide)))).trans ho
  obtain ⟨hused, howner⟩ := (c.flashNoted b).flashUsed_keeps b
  obtain ⟨hcompared, howner'⟩ := ((c.flashNoted b).flashUsed b).flashCompared_keeps b
  obtain ⟨hfault, howner''⟩ := (((c.flashNoted b).flashUsed b).flashCompared b).flashFault_keeps b
  have hnotes := hfault.trans (hcompared.trans hused)
  have htick := congrArg (fun x : Option (List Byte) × Nat × Bool × Bool × Nat => x.2.2.2.2) hnotes
  rw [c.twinInputFlash_partner hp hok hlen hsrc,
    Chip.flashOwners_yields _ (howner''.trans (howner'.trans (howner.trans hnoted))) hown (Nat.lt_of_le_of_lt (Nat.le_of_eq htick) hlater)]
  exact Chip.yieldNow_owner _

/-! ## The mask flash and what is missing by its deadline (R320, R354, R357) -/

/-- A valid mask flash of the partner for this tick, whose mask is due, releases the records that both masks release. -/
theorem Chip.maskFlash_partner (c : Chip) {b : List Byte} (hp : c.paired = true) (hlen : b.length = 16) (htype : leAt b 0 1 = 0x5F)
    (hsrc : leAt b 1 1 = c.partner) (htick : leAt b 2 2 = c.tick % 65536) (hcrc : crc32c (b.take 8) = leAt b 8 4)
    (hdue : c.twin.maskDue = true) :
    c.maskFlash b true =
      ((c.modRing fun r => { r with listenFrom := c.tb3 }).maskReleased (BitVec.ofNat 32 (leAt b 4 4))).modTwin fun t =>
        { t with pmask := some (BitVec.ofNat 32 (leAt b 4 4)), maskDue := false } := by
  have hvalid : (true && b.length == 16 && leAt b 0 1 == 0x5F && crc32c (b.take 8) == leAt b 8 4) = true := by
    simp [hlen, htype, hcrc]
  have htaken : (c.paired && true && leAt b 1 1 == c.partner && leAt b 2 2 == c.tick % 65536 && c.twin.maskDue) = true := by
    simp [hp, hsrc, htick, hdue]
  unfold Chip.maskFlash
  rw [hvalid]
  extract_lets ok heard seen
  have hseen : seen = c.modRing fun r => { r with listenFrom := c.tb3 } :=
    congrArg (fun d : Chip => d.modRing fun r => { r with listenFrom := d.tb3 }) c.coldHears_ok
  clear_value seen
  subst hseen
  exact if_pos htaken

/-- The owner's record is missed by its deadline. -/
theorem Chip.lirMiss_record (c : Chip) (h : c.twin.recDue = true) :
    c.lirMiss false = (({ (c.modTwin fun t => { t with recDue := false }) with stf := true } : Chip).setB 0x700000 7 true).crnFire 107 :=
  if_neg (by simp [h])

/-- The partner's mask is missed by its deadline. -/
theorem Chip.lirMiss_mask (c : Chip) (h : c.twin.maskDue = true) :
    c.lirMiss true = (({ (c.modTwin fun t => { t with maskDue := false }) with stf := true } : Chip).setB 0x700000 7 true).crnFire 107 :=
  if_neg (by simp [h])

/-- An eligible twin takes the place of an owner that has been silent for a ring cycle. -/
theorem Chip.heartbeatTimeout_silent (c : Chip) (hp : c.paired = true) (ho : c.owner = false) (he : c.eligible = true)
    (hnow : c.twin.hbNow = false) (hmiss : c.ringCycle ≤ c.twin.hbMiss + 1) :
    c.heartbeatTimeout = c.modTwin fun t => { t with want := some true } :=
  if_pos (by simp [hp, ho, he, hnow, hmiss])

/-! ## DECIDE and JOIN of CRN_TWIN (R356, R360, R362) -/

/-- A write to CRN_TWIN is the twin's. -/
theorem State.regw_crnTwin (s : State) (m : Master) {v : W32} {d : Chip} (hd : s.chip.crnTwinWrite v = d) (hq : d.quiet = true) :
    s.regw m 0x70001C v = .next (s.withChip d) :=
  s.regw_starRing m (by decide) (by decide) (by decide) hd hq

/-- A write with DECIDE and without JOIN decides on the digest. -/
theorem Chip.crnTwinWrite_decide (c : Chip) {v : W32} (hjoin : bit v 5 = false) (hdecide : fld v 1 0 ≠ 0) :
    c.crnTwinWrite v = c.decideDigest (fld v 1 0) := by
  simp only [Chip.crnTwinWrite, hjoin, Bool.false_eq_true, if_false, hdecide]

/-- KEEP ends the mismatch that awaits a decision. -/
theorem Chip.decideDigest_keep (c : Chip) (h : c.regB 0x700020 31 = true) : c.decideDigest 1 = c.setB 0x700020 31 false := by
  simp [Chip.decideDigest, h]

/-- SWAP ends it too, and ownership changes at the end of the ring cycle. -/
theorem Chip.decideDigest_swap (c : Chip) (h : c.regB 0x700020 31 = true) :
    c.decideDigest 2 = (c.setB 0x700020 31 false).modTwin fun t => { t with swap := true } := by
  simp [Chip.decideDigest, h]

/-- Where none awaits it a decision is ignored. -/
theorem Chip.decideDigest_ignored (c : Chip) (k : Nat) (h : c.regB 0x700020 31 = false) : c.decideDigest k = c.setB 0x700000 2 true :=
  if_pos (by simp [h])

/-- A write with JOIN and without DECIDE starts a join. -/
theorem Chip.crnTwinWrite_join (c : Chip) {v : W32} (hjoin : bit v 5 = true) (hdecide : fld v 1 0 = 0) :
    c.crnTwinWrite v = c.joinStart := by
  simp only [Chip.crnTwinWrite, hjoin, if_true, hdecide]

/-- A join that fails leaves no request. -/
theorem Chip.quiet_joinFail (c : Chip) (code : Nat) : (c.joinFail code).quiet = c.quiet := Chip.quiet_crnFire _ _

/-- The chip with a join begun: nothing received, logged, replayed or compared. -/
def Chip.joinBegun (c : Chip) : Chip := c.modTwin fun t => { t with
  joining := true, joinAt := none, image := [], imageAt := 0, log := [], replay := none, opened := false, logAt := 0, rep := .none
  gotRing := [], gotCommits := [], matched := 0, live := 0 }

/-- A twin that starts a join neither owns nor is eligible. -/
theorem Chip.joinStart_slot (c : Chip) (h : (c.joinSlot c.crnMode c.position).2 ≠ 0) :
    c.joinStart = (c.joinBegun.dropOwner).setElig false :=
  if_neg h

/-- In a mode without a join slot the join fails at once. -/
theorem Chip.joinStart_noSlot (c : Chip) (h : (c.joinSlot c.crnMode c.position).2 = 0) : c.joinStart = c.joinBegun.joinFail 2 :=
  if_pos h

/-! ## The image and the first replayed tick (R339, R360) -/

/-- The chip with the bytes of a join frame behind those received; the first of them name T_c. -/
def Chip.imageGrown (c : Chip) (b : List Byte) : Chip :=
  (c.headerSeen b).modTwin fun t => { t with
    image := t.image ++ (b.drop 32).take (b.length - 40), joinAt := if t.image.length = 0 then some c.tick else t.joinAt }

/-- A valid join frame that follows the bytes received is taken by a joiner that does not replay yet. -/
theorem Chip.joinFrame_taken (c : Chip) (k : SafetyCore) {east : Bool} {t : Nat} {b : List Byte}
    (hr : c.rstate = rsInteg ∨ c.rstate = rsActive) (hguard : c.joinGuard east t b = (c, true)) (hok : ringFrameOk 0x5D b true = true)
    (hjoin : c.twin.joining = true) (hreplay : c.twin.replay = none) (hnext : leAt b 0x1C 4 = c.twin.image.length) :
    c.joinFrame k east t b true = (c.imageGrown b).joinLoad k := by
  have hstate : ¬ (!(c.rstate == rsInteg || c.rstate == rsActive)) = true := by
    obtain h | h := hr <;> rw [h] <;> decide
  have htaken : ¬ (!true || !true || !c.twin.joining || c.twin.replay.isSome || leAt b 0x1C 4 != c.twin.image.length) = true := by
    simp [hjoin, hreplay, hnext]
  unfold Chip.joinFrame
  rw [hok]
  refine (if_neg hstate).trans ?_
  rw [hguard]
  refine (if_neg htaken).trans ?_
  rw [hnext]
  rfl

/-- An image that has not reached its header's end is not loaded yet. -/
theorem Chip.joinLoad_short (c : Chip) (k : SafetyCore) (h : c.twin.image.length < c.identity.length + 64) : c.joinLoad k = (c, k) :=
  if_pos (by simp [h])

/-- A join frame gives the joiner its chip and core. -/
theorem exec_joinFrame (s : State) (east : Bool) (t : Nat) (b : List Byte) {c : Chip} {k : SafetyCore}
    (h : s.chip.joinFrame s.core east t b true = (c, k)) : exec (.joinFrame east t b true) s = .next { s with chip := c, core := k } :=
  congrArg (fun r : Chip × SafetyCore => (.next { s with chip := r.1, core := r.2 } : Out)) h

/-- A replayed tick gives the joiner its chip and core, with the requests it left. -/
theorem exec_replayTick (s : State) {c : Chip} {k : SafetyCore} (h : s.chip.replayTick s.core = (c, k)) :
    exec .replayTick s = .next (({ s with chip := c, core := k } : State).settle .pass) :=
  congrArg (fun r : Chip × SafetyCore => (.next (({ s with chip := r.1, core := r.2 } : State).settle .pass) : Out)) h

/-- Where no replayed tick is open, none is closed. -/
theorem Chip.replayClose_closed (c : Chip) (k : SafetyCore) (h : c.twin.opened = false) : c.replayClose k = (c, k) := by
  unfold Chip.replayClose
  split
  · rfl
  · exact if_pos (by simp [h])

/-- The first replayed tick, T_c, is worked and then stands open; the log keeps the later ones. -/
theorem Chip.replayTick_first (c : Chip) (k : SafetyCore) {n : Nat} {e : JoinTick} (hreplay : c.twin.replay = some n)
    (hopened : c.twin.opened = false) (hjoin : c.twin.joinAt = some n) (hlog : (c.twin.log.find? fun x => x.tick == n) = some e) :
    c.replayTick k = ((c.replayWork k e).1.modTwin fun t =>
      { t with replay := some (n + 1), opened := true, log := t.log.filter fun x => decide (n < x.tick) }, (c.replayWork k e).2) := by
  simp only [Chip.replayTick, hreplay, hlog, c.replayClose_closed k hopened, hjoin, beq_self_eq_true, if_true, Option.isNone_some,
    Bool.false_eq_true, if_false]

/-! ## The obligation -/

/-- Settles O49: each flash, deadline, decision and step of the join in the state that its clause names. -/
theorem twinCommands : Obligations.TwinCommands := by
  unfold Obligations.TwinCommands
  intro s m hq c now
  refine ⟨fun hf => ?send, fun b => rfl, fun b hp hok hlen hsrc hj => ?flash, fun b hp hlen htype hsrc htick hcrc hdue => ?mask,
    fun h => ?record, fun h => ?maskMiss, fun hp ho he hnow hmiss => ?heartbeat, fun h => ?decide, fun h => ?ignored, ?join,
    fun east t b hr hguard hok hj hreplay hnext => ?frame, fun n e hreplay hopened hjoin hlog => ?replay⟩
  case send =>
    refine ⟨s.onChip_gives (c.flashSend_flashing _ hf), c.maskBytes, s.onChip_gives (c.maskFlashSend_flashing hf), ?_⟩
    exact c.maskBytes_head
  case flash =>
    have hnotes := c.twinInputFlash_notes hp hok hlen hsrc
    simp only [Twin.notes, Prod.mk.injEq] at hnotes
    obtain ⟨hflash, hpflags, hnow, hjoining, -⟩ := hnotes
    have hlive : (c.twinInputFlash b true).joinFlash = c.twinInputFlash b true :=
      if_neg (by simp [hjoining, hj])
    refine ⟨_, s.onChip_gives hlive, hflash, hpflags, hnow, rfl, rfl, fun ho hown hlater => ?_⟩
    exact c.twinInputFlash_yields hp hok hlen hsrc ho hown hlater
  case mask => exact s.onChip_gives (c.maskFlash_partner hp hlen htype hsrc htick hcrc hdue)
  case record => exact s.onChip_gives (c.lirMiss_record h)
  case maskMiss => exact s.onChip_gives (c.lirMiss_mask h)
  case heartbeat => exact s.onChip_gives (c.heartbeatTimeout_silent hp ho he hnow hmiss)
  case decide =>
    exact ⟨s.regw_crnTwin m ((c.crnTwinWrite_decide rfl (by decide)).trans (c.decideDigest_keep h)) hq,
      s.regw_crnTwin m ((c.crnTwinWrite_decide rfl (by decide)).trans (c.decideDigest_swap h)) hq⟩
  case ignored =>
    exact ⟨s.regw_crnTwin m ((c.crnTwinWrite_decide rfl (by decide)).trans (c.decideDigest_ignored 1 h)) hq,
      s.regw_crnTwin m ((c.crnTwinWrite_decide rfl (by decide)).trans (c.decideDigest_ignored 2 h)) hq⟩
  case join =>
    exact ⟨fun h => s.regw_crnTwin m ((c.crnTwinWrite_join rfl rfl).trans (c.joinStart_slot h)) ((Chip.quiet_dropOwner _).trans hq),
      fun h => s.regw_crnTwin m ((c.crnTwinWrite_join rfl rfl).trans (c.joinStart_noSlot h)) ((Chip.quiet_joinFail _ _).trans hq)⟩
  case frame =>
    have htaken := c.joinFrame_taken s.core hr hguard hok hj hreplay hnext
    exact ⟨fun hshort => exec_joinFrame s east t b (htaken.trans (Chip.joinLoad_short _ s.core hshort)),
      exec_joinFrame s east t b htaken⟩
  case replay => exact exec_replayTick s (c.replayTick_first s.core hreplay hopened hjoin hlog)

end Sys2Proof.Machine
end
